-- ==== Sys2Proof/Word.lean ====
section
/-!
DEFINITION. The two word sizes that the line protocol carries: the eight data bits of a character (R1) and the
16-bit numbers that travel as two of them (R181).
-/

namespace Sys2Proof

/-- The eight data bits of a character (R1), a byte of a layout, an address. -/
abbrev Byte := BitVec 8

/-- A 16-bit number sent as two bytes, high byte first (R181); also the CRC register (R7). -/
abbrev Word := BitVec 16

end Sys2Proof
end

