-- ==== Sys2Proof/Config.lean ====
section
/-!
DEFINITION. The capacities and identification values that the manual fixes for every LC-4. The manual leaves no value
of a result open, so there is no opaque constant here.
-/

namespace Sys2Proof.Config

/-- Buffers of the frame buffer pool (R118). -/
abbrev bufferCount : Nat := 48

/-- Records of the transaction table (R45). -/
abbrev recordCount : Nat := 16

/-- Entries of one route bank (R24). -/
abbrev entryCount : Nat := 24

/-- Poll slots (R130). -/
abbrev slotCount : Nat := 8

/-- Branch lines. -/
abbrev branchCount : Nat := 4

/-- The largest COUNT of a frame (section 1.3, R11). -/
abbrev maxData : Nat := 60

/-- The number of answer DATA bytes that one collection or snapshot read returns at most (R68, R138). -/
abbrev maxPiece : Nat := 48

/-- The largest template of a poll slot (R130). -/
abbrev maxTemplate : Nat := 16

/-- Every counter saturates here (section 5.3 of the scope file, R23, R154). -/
abbrev counterMax : Nat := 65535

/-- A slot's MISSES saturates here (R137). -/
abbrev missesMax : Nat := 255

/-- Consecutive contentions that put a branch into FAULT (R94). -/
abbrev faultRun : Nat := 3

/-- Family code of Olampa (section 10.8). -/
abbrev familyCode : Byte := 0x4F#8

/-- Part code of the LC-4 (section 10.8). -/
abbrev partCode : Byte := 0x04#8

/-- Revision of the part (section 10.8). -/
abbrev revision : Byte := 0x01#8

end Sys2Proof.Config
end

