-- ==== Sys2Proof/Syntax.lean ====
section
/-!
DEFINITION. The commands of the part: one constructor of `Instr` for each row of spec/opcode_table.json, with the
row's operands. The management commands carry the sequence number of their envelope and the argument bytes of
section 10.5, each as it is sent; an argument byte outside its code table is a well-formed command that the part
refuses with BAD_ARGUMENT.
-/

namespace Sys2Proof

/-- A branch line, B0 to B3. -/
abbrev Branch := Fin Config.branchCount

/-- An index of the transaction table (R45). -/
abbrev RecordIndex := Fin Config.recordCount

/-- An index of the poll slots (R130). -/
abbrev SlotIndex := Fin Config.slotCount

/-- The five line ports: the trunk port T and the branch ports B0 to B3. -/
inductive Port where
  | trunk
  | branch (b : Branch)
  deriving DecidableEq, Repr

/-- How the stored answer frame ends in RECV (R87). -/
inductive AnswerReport where
  /-- All its characters came: these DATA and these two CHECK characters, high byte first (R12). -/
  | complete (data : List Byte) (check : Word)
  /-- Cut short by a framing error, a break or an expired character timeout (R13). -/
  | truncated
  /-- Its COUNT character was this value, above 60 (R11). -/
  | malformed (count : Byte)
  deriving DecidableEq, Repr

/-- The commands and events of spec/opcode_table.json, in the table's order. -/
inductive Instr where
  /-- RESET_ASSERTED (R185). -/
  | resetAsserted
  /-- RESET_RELEASE with the strap inputs as they stand (R185). -/
  | resetRelease (strapA : BitVec 3) (strapR : BitVec 2)
  /-- RECEIVER_SYNCHRONISED (R3). -/
  | receiverSynchronised (p : Port)
  /-- ADDRESS_CHARACTER: a character with mark bit 1 is received (R8). -/
  | addressCharacter (p : Port) (c : Byte)
  /-- DATA_CHARACTER: a character with mark bit 0 is received (R8). -/
  | dataCharacter (p : Port) (c : Byte)
  /-- FRAMING_ERROR (R3). -/
  | framingError (p : Port)
  /-- BREAK: the line has been at space for 2 ct (R4). -/
  | lineBreak (p : Port)
  /-- CHARACTER_TIMEOUT (R9). -/
  | characterTimeout (p : Port)
  /-- GUARD_MET (R17). -/
  | guardMet (p : Port)
  /-- TRUNK_GOOD_FRAME: a frame with this ADDRESS and these DATA completes good on the trunk (R104). -/
  | trunkGoodFrame (address : Byte) (data : List Byte)
  /-- IDENTIFY (R165). -/
  | identify (seq : Byte)
  /-- GET_PARAM (R166). -/
  | getParam (seq index : Byte)
  /-- SET_PARAM (R167). -/
  | setParam (seq index : Byte) (value : Word)
  /-- READ_ENTRY (R40). -/
  | readEntry (seq bank index clear : Byte)
  /-- WRITE_ENTRY with the nine entry bytes E0 to E8 (R41, R183). -/
  | writeEntry (seq bank index : Byte) (entry : Vector Byte 9)
  /-- CLEAR_ENTRY (R42). -/
  | clearEntry (seq bank index : Byte)
  /-- COPY_BANK (R43). -/
  | copyBank (seq : Byte)
  /-- SWAP_BANKS (R44). -/
  | swapBanks (seq : Byte)
  /-- SUBMIT (R169). -/
  | submit (seq address : Byte) (data : List Byte)
  /-- COLLECT (R68). -/
  | collect (seq tag offset : Byte)
  /-- COLLECT_NEXT (R70). -/
  | collectNext (seq offset : Byte)
  /-- CANCEL (R71). -/
  | cancel (seq tag : Byte)
  /-- LIST_PENDING (R172). -/
  | listPending (seq : Byte)
  /-- POLL_SET with a full configuration (R139). -/
  | pollSet (seq slot branch lineAddress : Byte) (period : Word) (template : List Byte)
  /-- POLL_SET, unset form (R140). -/
  | pollSetUnset (seq slot : Byte)
  /-- POLL_START (R141). -/
  | pollStart (seq slot : Byte) (delay : Word)
  /-- POLL_STOP (R142). -/
  | pollStop (seq slot : Byte)
  /-- POLL_READ (R143). -/
  | pollRead (seq slot : Byte)
  /-- READ_SNAPSHOT (R138). -/
  | readSnapshot (seq slot offset : Byte)
  /-- READ_EVENTS (R152). -/
  | readEvents (seq : Byte)
  /-- CLEAR_EVENTS (R153). -/
  | clearEvents (seq : Byte) (mask : Word)
  /-- READ_COUNTERS (R155). -/
  | readCounters (seq port clear : Byte)
  /-- BRANCH_CONTROL with the action QUERY (R91). -/
  | branchControlQuery (seq branch : Byte)
  /-- BRANCH_CONTROL with the action DISABLE (R92). -/
  | branchControlDisable (seq branch : Byte)
  /-- BRANCH_CONTROL with the action ENABLE (R93). -/
  | branchControlEnable (seq branch : Byte)
  /-- RESTART (R177). -/
  | restart (seq : Byte)
  /-- ARBITRATION (R79). -/
  | arbitration (b : Branch)
  /-- BRANCH_SEND_COMPLETE (R83). -/
  | branchSendComplete (b : Branch)
  /-- BRANCH_CONTENTION (R84). -/
  | branchContention (b : Branch)
  /-- RESPONSE_WINDOW_EXPIRY (R86). -/
  | responseWindowExpiry (b : Branch)
  /-- ANSWER_END (R87). -/
  | answerEnd (b : Branch) (report : AnswerReport)
  /-- QUARANTINE_EXPIRY (R95). -/
  | quarantineExpiry (b : Branch)
  /-- HOLD_EXPIRY (R67). -/
  | holdExpiry (r : RecordIndex)
  /-- SLOT_EXPIRY (R133). -/
  | slotExpiry (k : SlotIndex)
  /-- TRUNK_REPLY_SENT (R109). -/
  | trunkReplySent
  /-- TRUNK_CONTENTION (R110). -/
  | trunkContention
  /-- START_BIT: taken as a start bit, or a false start (R3). -/
  | startBit (p : Port) (confirmed : Bool)
  /-- BREAK_END (R4). -/
  | breakEnd (p : Port)
  deriving DecidableEq, Repr

end Sys2Proof
end

