-- ==== Sys2Proof/WellFormed.lean ====
section
/-!
DEFINITION. Which terms of `Instr` spell something that can come about on the lines of the part. The only bounds that
the types do not carry are those of a frame: COUNT is at most 60 (section 1.3, R11).
-/

namespace Sys2Proof

/-- A frame carries at most 60 DATA characters (section 1.3). -/
def fitsFrame (data : List Byte) : Bool := data.length ≤ Config.maxData

/-- SUBMIT carries at most 57 bytes of request DATA: code, sequence number and address take three of the sixty (R162). -/
def Instr.submitFits (data : List Byte) : Bool := data.length + 3 ≤ Config.maxData

/-- POLL_SET carries at most 53 template bytes: code, sequence number and five arguments take seven of the sixty (R162).
A template of 17 to 53 bytes is sent, and the part refuses it with BAD_ARGUMENT (R139). -/
def Instr.templateFits (template : List Byte) : Bool := template.length + 7 ≤ Config.maxData

/-- The report of a stored answer that can come about: a complete frame of at most 60 DATA, a cut short one, or a COUNT
above 60 (R11, R12, R13). -/
def AnswerReport.wellFormed : AnswerReport → Bool
  | .complete data _ => fitsFrame data
  | .truncated => true
  | .malformed count => decide (Config.maxData < count.toNat)

/-- The terms that spell an event of the lines. Every other row's operands are bounded by their types. -/
def Instr.wellFormed : Instr → Bool
  | .trunkGoodFrame _ data => fitsFrame data
  | .submit _ _ data => Instr.submitFits data
  | .pollSet _ _ _ _ _ template => Instr.templateFits template
  | .answerEnd _ report => report.wellFormed
  | .resetAsserted | .resetRelease _ _ | .receiverSynchronised _ | .addressCharacter _ _ | .dataCharacter _ _
  | .framingError _ | .lineBreak _ | .characterTimeout _ | .guardMet _ | .identify _ | .getParam _ _
  | .setParam _ _ _ | .readEntry _ _ _ _ | .writeEntry _ _ _ _ | .clearEntry _ _ _ | .copyBank _ | .swapBanks _
  | .collect _ _ _ | .collectNext _ _ | .cancel _ _ | .listPending _ | .pollSetUnset _ _ | .pollStart _ _ _
  | .pollStop _ _ | .pollRead _ _ | .readSnapshot _ _ _ | .readEvents _ | .clearEvents _ _ | .readCounters _ _ _
  | .branchControlQuery _ _ | .branchControlDisable _ _ | .branchControlEnable _ _ | .restart _ | .arbitration _
  | .branchSendComplete _ | .branchContention _ | .responseWindowExpiry _ | .quarantineExpiry _ | .holdExpiry _
  | .slotExpiry _ | .trunkReplySent | .trunkContention | .startBit _ _ | .breakEnd _ => true

end Sys2Proof
end

