-- ==== Sys2Proof/Decode.lean ====
section
/-!
DEFINITION. The part decodes no instruction words: spec/opcode_table.json gives its rows no bits, so no word spells a
command.
-/

namespace Sys2Proof

/-- The command that a word spells by the table's bits: the table gives none to any row. -/
def decodeTableWord (_nbits _w : Nat) : Option Instr := none

end Sys2Proof
end

