-- ==== Sys2Proof/Machine/Straps.lean ====
section
/-!
DEFINITION. What the strap inputs select at the release of reset (R185).
-/

namespace Sys2Proof.Machine

/-- MGMT_ADDRESS after reset: E0h plus STRAP_A, STRAP_A2 its highest bit (R164, R185). -/
def strapAddress (strapA : BitVec 3) : Byte := 0xE0#8 + strapA.setWidth 8

/-- The trunk RATE code that STRAP_R selects (R2, R185). -/
def strapRate (strapR : BitVec 2) : Nat :=
  match strapR.toNat with
  | 0 => 0
  | 1 => 1
  | 2 => 3
  | _ => 4

end Sys2Proof.Machine
end

