-- ==== Sys2Proof/Machine/State.lean ====
section
/-!
DEFINITION. The state of the part as plain data, what can stop a step, and the state right after reset. INVENTORY.md
lists every field with the rule that names it. A buffer's holder is a field of the buffer, so that each of the 48
buffers is in exactly one holder (R118); a block's buffer is the one whose holder names it.
-/

namespace Sys2Proof.Machine

/-- The part never stops: no rule of the manual gives a condition that ends its operation, so no meaning faults. -/
inductive Fault where
  deriving DecidableEq, Repr

/-- What a step can refuse. -/
inductive Refusal where
  /-- Raised by no arm of `exec`: every row of the table has its meaning. Safe. -/
  | notModelled (mnemonic : String)
  /-- Raised by the meanings of TRUNK_GOOD_FRAME, SUBMIT, POLL_SET and ANSWER_END for a term that is not well formed:
  DATA longer than the 60 characters a frame can carry (section 1.3), or a COUNT called malformed that is at most 60
  (R11). No such frame exists on a line. Safe. -/
  | notAFrame
  deriving DecidableEq, Repr

/-- The two route banks (R24). -/
inductive Bank where
  | a
  | b
  deriving DecidableEq, Repr

/-- KIND of a route entry (R25). -/
inductive EntryKind where
  | station
  | group
  deriving DecidableEq, Repr

/-- MODE of a route entry (R25). -/
inductive EntryMode where
  | pass
  | deferOnly
  | block
  deriving DecidableEq, Repr

/-- A set of branches, bit b for Bb (section 10.4). -/
abbrev BranchSet := BitVec Config.branchCount

/-- One entry of a route bank (section 2.1). -/
structure RouteEntry where
  valid : Bool
  kind : EntryKind
  pattern : Byte
  mask : Byte
  branches : BranchSet
  mode : EntryMode
  rewrite : Option Byte
  retries : Nat
  notify : Bool
  hits : Nat
  deriving DecidableEq, Repr

/-- An empty slot of a bank reads as zero in every field (R25). -/
def RouteEntry.empty : RouteEntry :=
  { valid := false, kind := .station, pattern := 0, mask := 0, branches := 0, mode := .pass, rewrite := none,
    retries := 0, notify := false, hits := 0 }

/-- KIND of a transaction record (section 3.1). -/
inductive RecordKind where
  | transparent
  | deferred
  | cyclic
  | group
  deriving DecidableEq, Repr

/-- STATE of a transaction record (R46). -/
inductive RecordState where
  | free
  | queued
  | onLine
  | ended
  | delivering
  deriving DecidableEq, Repr

/-- OUTCOME of an exchange (section 3.1). -/
inductive ExchangeOutcome where
  | answered
  | noAnswer
  | badAnswer
  | contention
  | branchOff
  deriving DecidableEq, Repr

/-- A running timer: whole milliseconds counted, and the value at which it expires, as taken when it started. -/
structure Timer where
  count : Nat
  limit : Nat
  deriving DecidableEq, Repr

/-- One record of the transaction table (section 3.1). REQUEST and ANSWER are the buffers whose holder names the
record. A field that the record's kind does not have is absent or zero. -/
structure Record where
  kind : Option RecordKind
  state : RecordState
  tag : Option Byte
  trunkAddress : Option Byte
  lineAddress : Byte
  branch : Option Branch
  pendingSet : BranchSet
  sendingSet : BranchSet
  slot : Option SlotIndex
  attempts : Nat
  retriesLeft : Nat
  notify : Bool
  outcome : Option ExchangeOutcome
  cancelPending : Bool
  abandoned : Bool
  hold : Option Timer
  deriving DecidableEq, Repr

/-- A FREE record: every other field absent or zero (R45). -/
def Record.free : Record :=
  { kind := none, state := .free, tag := none, trunkAddress := none, lineAddress := 0, branch := none, pendingSet := 0,
    sendingSet := 0, slot := none, attempts := 0, retriesLeft := 0, notify := false, outcome := none,
    cancelPending := false, abandoned := false, hold := none }

/-- The holders of a buffer (R118). -/
inductive Holder where
  | free
  | trunkAssembly
  | branchAnswer (b : Branch)
  | request (r : RecordIndex)
  | answer (r : RecordIndex)
  | snapshot (k : SlotIndex)
  | owedReply
  | lastResponse
  deriving DecidableEq, Repr

/-- One buffer of the pool: its holder and the characters written into it, from position 0 (R118). -/
structure Buffer where
  holder : Holder
  chars : List Byte
  deriving DecidableEq, Repr

/-- A free buffer. What it held before cannot be read (R118). -/
def Buffer.empty : Buffer := { holder := .free, chars := [] }

/-- A frame that has begun and not ended: whether it is stored or followed (section 1.5), and its characters so far,
ADDRESS first. Its position, COUNT, remaining characters and CRC register are functions of them. -/
structure Assembly where
  stored : Bool
  got : List Byte
  deriving DecidableEq, Repr

/-- The receive side of a port (section 1.4). -/
inductive RxState where
  | hunt
  | discard
  | assemble (a : Assembly)
  deriving DecidableEq, Repr

/-- A frame given to a port to send; COUNT is the number of DATA and CHECK is computed afresh (R6). -/
structure TxFrame where
  address : Byte
  data : List Byte
  deriving DecidableEq, Repr

/-- The transmit side of a port (section 1.6). In SEND, `echoed` is the transmit position: the characters whose echo
has compared equal. -/
inductive TxState where
  | quiet
  | lead (f : TxFrame)
  | send (f : TxFrame) (echoed : Nat)
  deriving DecidableEq, Repr

/-- The five counters of every port (section 1.8). -/
structure PortCounters where
  framesRxGood : Nat
  framesTx : Nat
  checkErrors : Nat
  truncated : Nat
  contentions : Nat
  deriving DecidableEq, Repr

/-- A line-port engine (chapter 1). -/
structure PortState where
  rate : Nat
  guard : Nat
  charTimeout : Nat
  guardInUse : Nat
  gapTimeout : Nat
  synchronised : Bool
  inBreak : Bool
  charInProgress : Bool
  lineRest : Nat
  rx : RxState
  tx : TxState
  counters : PortCounters
  deriving DecidableEq, Repr

/-- The states of a branch (R76). -/
inductive BranchStatus where
  | off
  | idle
  | lead
  | send
  | await
  | recv
  | fault
  deriving DecidableEq, Repr

/-- The last-served marker (R75). -/
inductive Served where
  | queue
  | poll
  deriving DecidableEq, Repr

/-- The branch counter group (R99). -/
structure BranchCounters where
  answers : Nat
  noAnswers : Nat
  badAnswers : Nat
  wrongResponder : Nat
  lateAnswers : Nat
  unsolicited : Nat
  stalls : Nat
  skips : Nat
  uncollected : Nat
  deriving DecidableEq, Repr

/-- A branch controller with its port (R75). -/
structure BranchState where
  port : PortState
  status : BranchStatus
  queue : List RecordIndex
  lastServed : Served
  stalled : Bool
  contentionRun : Nat
  onLine : Option RecordIndex
  windowTimer : Option Timer
  quarantineTimer : Option Timer
  pendingRate : Option Nat
  responseWindow : Nat
  queueLimit : Nat
  quarantine : Nat
  counters : BranchCounters
  deriving DecidableEq, Repr

/-- The owed reply (R101). -/
inductive OwedReply where
  | nothing
  | pendingAnswer (r : RecordIndex)
  | answer
  | proxy
  | response
  deriving DecidableEq, Repr

/-- A setting that waits for its own response (R114). -/
inductive PendingSetting where
  | trunkRate (code : Nat)
  | mgmtAddress (address : Byte)
  deriving DecidableEq, Repr

/-- The counters of the trunk group that are not port counters (R117). -/
structure TrunkCounters where
  unrouted : Nat
  refused : Nat
  superseded : Nat
  replays : Nat
  bufLost : Nat
  mgmtMalformed : Nat
  deriving DecidableEq, Repr

/-- The trunk controller with its port (R100). -/
structure Trunk where
  port : PortState
  owed : OwedReply
  pendingSetting : Option PendingSetting
  counters : TrunkCounters
  deriving DecidableEq, Repr

/-- STATE of a poll slot (R131). -/
inductive SlotState where
  | unset
  | stopped
  | armed
  | due
  | onLine
  | stopping
  deriving DecidableEq, Repr

/-- The configuration of a poll slot, written whole by POLL_SET (R130). -/
structure SlotConfig where
  branch : Branch
  lineAddress : Byte
  template : List Byte
  period : Nat
  deriving DecidableEq, Repr

/-- A poll slot (R130). The ANSWER of its snapshot is the buffer whose holder names the slot. -/
structure Slot where
  state : SlotState
  config : Option SlotConfig
  countdown : Nat
  overruns : Nat
  seq : Byte
  age : Option Nat
  misses : Nat
  deriving DecidableEq, Repr

/-- An UNSET slot (R130). -/
def Slot.unset : Slot :=
  { state := .unset, config := none, countdown := 0, overruns := 0, seq := 0, age := none, misses := 0 }

/-- The global parameters (section 9.3). -/
structure GlobalParams where
  mgmtAddress : Byte
  trunkReserve : Nat
  holdTime : Nat
  bufLowMark : Nat
  eventEnable : BitVec 12
  deriving DecidableEq, Repr

/-- The whole part, and the queue of the commands that wait for it. -/
structure State where
  inReset : Bool
  strapA : BitVec 3
  strapR : BitVec 2
  params : GlobalParams
  trunk : Trunk
  branches : Vector BranchState Config.branchCount
  bankA : Vector RouteEntry Config.entryCount
  bankB : Vector RouteEntry Config.entryCount
  activeBank : Bank
  records : Vector Record Config.recordCount
  tagCounter : Byte
  completions : List RecordIndex
  slots : Vector Slot Config.slotCount
  buffers : Vector Buffer Config.bufferCount
  flags : BitVec 12
  lastCode : Option Byte
  lastSeq : Option Byte
  pending : List Instr
  deriving DecidableEq, Repr

/-- All five port counters zero (R23). -/
def PortCounters.zero : PortCounters :=
  { framesRxGood := 0, framesTx := 0, checkErrors := 0, truncated := 0, contentions := 0 }

/-- All nine branch counters zero (R99). -/
def BranchCounters.zero : BranchCounters :=
  { answers := 0, noAnswers := 0, badAnswers := 0, wrongResponder := 0, lateAnswers := 0, unsolicited := 0, stalls := 0,
    skips := 0, uncollected := 0 }

/-- The trunk's own counters zero (R117). -/
def TrunkCounters.zero : TrunkCounters :=
  { unrouted := 0, refused := 0, superseded := 0, replays := 0, bufLost := 0, mgmtMalformed := 0 }

/-- A port after power-on or pin reset, at a given RATE code (section 1.7, R3, R5, R8). `guardInUse` and `gapTimeout`
take the reset values of GUARD and CHAR_TIMEOUT (DESIGN CHOICE, log entry 26). -/
def PortState.atReset (rate : Nat) : PortState :=
  { rate := rate, guard := 2, charTimeout := 2, guardInUse := 2, gapTimeout := 2, synchronised := false,
    inBreak := false, charInProgress := false, lineRest := 0, rx := .hunt, tx := .quiet, counters := .zero }

/-- A branch after power-on or pin reset (R75, section 4.6, R51). -/
def BranchState.atReset : BranchState :=
  { port := .atReset 1, status := .idle, queue := [], lastServed := .poll, stalled := false, contentionRun := 0,
    onLine := none, windowTimer := none, quarantineTimer := none, pendingRate := none, responseWindow := 100,
    queueLimit := 4, quarantine := 0, counters := .zero }

/-- Every block at the reset values of its chapter, with the straps latched as given (R185). -/
def State.atReset (strapA : BitVec 3) (strapR : BitVec 2) : State :=
  { inReset := false
    strapA := strapA
    strapR := strapR
    params := { mgmtAddress := strapAddress strapA, trunkReserve := 2, holdTime := 50, bufLowMark := 8,
                eventEnable := 0 }
    trunk := { port := .atReset (strapRate strapR), owed := .nothing, pendingSetting := none, counters := .zero }
    branches := Vector.replicate Config.branchCount .atReset
    bankA := Vector.replicate Config.entryCount .empty
    bankB := Vector.replicate Config.entryCount .empty
    activeBank := .a
    records := Vector.replicate Config.recordCount .free
    tagCounter := 1
    completions := []
    slots := Vector.replicate Config.slotCount .unset
    buffers := Vector.replicate Config.bufferCount .empty
    flags := 0
    lastCode := none
    lastSeq := none
    pending := [] }

/-- The machine right after reset, with all straps low (DESIGN CHOICE, log entry 10) and no command waiting. -/
def State.reset : State := State.atReset 0 0

end Sys2Proof.Machine
end

