-- ==== Sys2Proof/Machine/Flags.lean ====
section
/-!
DEFINITION. The event flags, their places in an event set, ALERT_N (chapter 8, R182) and the saturating counters
(section 5.3 of the scope file).
-/

namespace Sys2Proof.Machine

/-- The twelve event flags, in the order in which every event set carries them (section 8.1). -/
inductive Flag where
  | unrouted
  | refused
  | answerFail
  | lineError
  | unsolicited
  | contention
  | branchFault
  | bufLow
  | bufExhausted
  | pollOverrun
  | completion
  | uncollected
  deriving DecidableEq, Repr

/-- The bit of a flag in an event set (R182). -/
def flagBit : Flag → Nat
  | .unrouted => 0
  | .refused => 1
  | .answerFail => 2
  | .lineError => 3
  | .unsolicited => 4
  | .contention => 5
  | .branchFault => 6
  | .bufLow => 7
  | .bufExhausted => 8
  | .pollOverrun => 9
  | .completion => 10
  | .uncollected => 11

/-- The event set that names one flag. -/
def flagMask (f : Flag) : BitVec 12 := 1#12 <<< flagBit f

/-- A flag is set when its cause occurs, and stays set when it was (R147). -/
def raise (f : Flag) (s : State) : State := { s with flags := s.flags ||| flagMask f }

/-- Whether a flag is set. -/
def flagSet (f : Flag) (s : State) : Bool := s.flags.getLsbD (flagBit f)

/-- Some flag is set whose enable is set: ATTENTION of the summary (R150). -/
def attention (s : State) : Bool := s.flags &&& s.params.eventEnable != 0

/-- ALERT is asserted exactly while some flag is set whose enable is set, and released while reset is held
(R149, R185). -/
def State.alertAsserted (s : State) : Bool := !s.inReset && attention s

/-- An increment of a 16-bit counter: at 65535 it stays (R23, R154). -/
def countUp (n : Nat) : Nat := if n < Config.counterMax then n + 1 else n

/-- An increment of a slot's MISSES: at 255 it stays (R137). -/
def missUp (n : Nat) : Nat := if n < Config.missesMax then n + 1 else n

end Sys2Proof.Machine
end

