-- ==== Sys2Proof/Machine/Frames.lean ====
section
/-!
DEFINITION. Characters and frames as bytes: the levels of a character (R1), the CRC (R7), a frame as its characters in
the order they are sent (R6), the reading of a frame's fields, the address classes (section 1.3) and the bit rates in
CLK periods (R2, R186).
-/

namespace Sys2Proof.Machine

/-- The eleven levels of a character, `true` for mark: start bit, D0 to D7, mark bit, stop bit (R1). -/
def characterLevels (c : Byte) (mark : Bool) : List Bool :=
  [false] ++ [0, 1, 2, 3, 4, 5, 6, 7].map (fun i => c.getLsbD i) ++ [mark, true]

/-- CLK periods of one bit period at a RATE code (R2, R186). -/
def bitClocks (rate : Nat) : Nat :=
  match rate with
  | 0 => 1536
  | 1 => 768
  | 2 => 384
  | 3 => 256
  | 4 => 128
  | 5 => 64
  | _ => 32

/-- CLK periods of one character time, eleven bit periods (R2). -/
def characterClocks (rate : Nat) : Nat := 11 * bitClocks rate

/-- One bit into the CRC register: compare with its top bit, shift left, combine with 1021h where they differed (R7). -/
def crcBit (crc : Word) (bit : Bool) : Word :=
  if bit != crc.msb then (crc <<< 1) ^^^ 0x1021#16 else crc <<< 1

/-- One character into the CRC register, most significant data bit first (R7). -/
def crcByte (crc : Word) (c : Byte) : Word :=
  [7, 6, 5, 4, 3, 2, 1, 0].foldl (fun r i => crcBit r (c.getLsbD i)) crc

/-- The CRC of a frame over its ADDRESS, COUNT and DATA (R7). -/
def crcOf (chars : List Byte) : Word := chars.foldl crcByte 0xFFFF#16

/-- The high byte of a 16-bit number (R181). -/
def highByte (w : Word) : Byte := w.extractLsb' 8 8

/-- The low byte of a 16-bit number (R181). -/
def lowByte (w : Word) : Byte := w.extractLsb' 0 8

/-- A 16-bit number from its two bytes, high byte first (R181). -/
def wordOfBytes (high low : Byte) : Word := high ++ low

/-- A 16-bit number as its two bytes, high byte first (R181). -/
def bytesOfWord (w : Word) : List Byte := [highByte w, lowByte w]

/-- ADDRESS, COUNT and DATA of a frame: what its CRC covers. -/
def frameBody (address : Byte) (data : List Byte) : List Byte := address :: BitVec.ofNat 8 data.length :: data

/-- A frame as its characters in the order they are sent, with its CHECK (R6). -/
def mkFrame (address : Byte) (data : List Byte) : List Byte :=
  frameBody address data ++ bytesOfWord (crcOf (frameBody address data))

/-- The ADDRESS of a frame held in a buffer (R118). -/
def frameAddress (chars : List Byte) : Byte := chars.headD 0

/-- The COUNT of a frame held in a buffer (R118). -/
def frameCount (chars : List Byte) : Nat := (chars.getD 1 0).toNat

/-- The DATA of a frame held in a buffer (R118). -/
def frameData (chars : List Byte) : List Byte := (chars.drop 2).take (frameCount chars)

/-- A received frame's CHECK matches when it equals the CRC over the rest (R7). -/
def checkMatches (chars : List Byte) : Bool :=
  chars.drop (chars.length - 2) == bytesOfWord (crcOf (chars.take (chars.length - 2)))

/-- A frame whose characters stand so far has all its 4 + COUNT characters (R8). -/
def frameComplete (chars : List Byte) : Bool :=
  decide (2 ≤ chars.length) && chars.length == 4 + frameCount chars

/-- 01h to EFh (section 1.3). -/
def isStationAddress (a : Byte) : Bool := decide (1 ≤ a.toNat) && decide (a.toNat ≤ 0xEF)

/-- F0h to FEh (section 1.3). -/
def isGroupAddress (a : Byte) : Bool := decide (0xF0 ≤ a.toNat) && decide (a.toNat ≤ 0xFE)

/-- 00h (section 1.3). -/
def voidAddress : Byte := 0x00#8

/-- FFh (section 1.3). -/
def allCall : Byte := 0xFF#8

end Sys2Proof.Machine
end

