-- ==== Sys2Proof/Machine/Operands.lean ====
section
/-!
DEFINITION. The codes and layouts by which the management engine reads argument bytes and writes result bytes (R181 and
sections 10.4 to 10.7).
-/

namespace Sys2Proof.Machine

/-- A number as one result byte. -/
def byteOfNat (n : Nat) : Byte := BitVec.ofNat 8 n

/-- A number as a two-byte result field, high byte first (R181). -/
def wordBytes (n : Nat) : List Byte := bytesOfWord (BitVec.ofNat 16 n)

/-- A result byte standing for yes or no (R181). -/
def boolByte (b : Bool) : Byte := if b then 0x01#8 else 0x00#8

/-- A clear option: 00h no, 01h yes, nothing else (R162). -/
def clearOptionOf (a : Byte) : Option Bool :=
  if a = 0x00#8 then some false else if a = 0x01#8 then some true else none

/-- A bank argument (section 10.4). -/
def bankOf (a : Byte) : Option Bank :=
  if a = 0x00#8 then some .a else if a = 0x01#8 then some .b else none

/-- A bank as a result byte (section 10.4). -/
def bankCode : Bank → Byte
  | .a => 0x00#8
  | .b => 0x01#8

/-- A number as an index below a bound. -/
def indexOf (bound n : Nat) : Option (Fin bound) := if h : n < bound then some ⟨n, h⟩ else none

/-- A branch argument (section 10.4). -/
def branchOf (a : Byte) : Option Branch := indexOf Config.branchCount a.toNat

/-- A branch as a result byte (section 10.4). -/
def branchCode (b : Branch) : Byte := byteOfNat b.val

/-- A port argument of READ_COUNTERS (section 10.4). -/
def portOf (a : Byte) : Option Port :=
  if a = 0x04#8 then some .trunk else (branchOf a).map Port.branch

/-- A route entry index argument (R183). -/
def entryIndexOf (a : Byte) : Option (Fin Config.entryCount) := indexOf Config.entryCount a.toNat

/-- A slot argument: 0 to 7. -/
def slotOf (a : Byte) : Option SlotIndex := indexOf Config.slotCount a.toNat

/-- The commands of the set (section 10.4, R162). -/
inductive CommandCode where
  | identify
  | getParam
  | setParam
  | readEntry
  | writeEntry
  | clearEntry
  | copyBank
  | swapBanks
  | submit
  | collect
  | collectNext
  | cancel
  | listPending
  | pollSet
  | pollStart
  | pollStop
  | pollRead
  | readSnapshot
  | readEvents
  | clearEvents
  | readCounters
  | branchControl
  | restart
  deriving DecidableEq, Repr

/-- Command codes (section 10.4). -/
def commandByte : CommandCode → Byte
  | .identify => 0x01#8
  | .getParam => 0x02#8
  | .setParam => 0x03#8
  | .readEntry => 0x08#8
  | .writeEntry => 0x09#8
  | .clearEntry => 0x0A#8
  | .copyBank => 0x0B#8
  | .swapBanks => 0x0C#8
  | .submit => 0x10#8
  | .collect => 0x11#8
  | .collectNext => 0x12#8
  | .cancel => 0x13#8
  | .listPending => 0x14#8
  | .pollSet => 0x18#8
  | .pollStart => 0x19#8
  | .pollStop => 0x1A#8
  | .pollRead => 0x1B#8
  | .readSnapshot => 0x1C#8
  | .readEvents => 0x20#8
  | .clearEvents => 0x21#8
  | .readCounters => 0x22#8
  | .branchControl => 0x28#8
  | .restart => 0x2F#8

/-- Every command of the set. -/
def allCommands : List CommandCode :=
  [.identify, .getParam, .setParam, .readEntry, .writeEntry, .clearEntry, .copyBank, .swapBanks, .submit, .collect,
   .collectNext, .cancel, .listPending, .pollSet, .pollStart, .pollStop, .pollRead, .readSnapshot, .readEvents,
   .clearEvents, .readCounters, .branchControl, .restart]

/-- The command a received code names, if it is one of the set (R160). -/
def commandOf (c : Byte) : Option CommandCode := allCommands.find? fun k => commandByte k = c

/-- The result of a command (section 10.4). -/
inductive ResultCode where
  | ok
  | pending
  | nothingReady
  | badCommand
  | badLength
  | badArgument
  | activeBank
  | noRoute
  | routeBlocked
  | branchOff
  | queueFull
  | tableFull
  | noBuffer
  | noSuchTag
  | slotActive
  | limitBelowUse
  | slotUnset
  deriving DecidableEq, Repr

/-- Result codes (section 10.4). -/
def resultByte : ResultCode → Byte
  | .ok => 0x00#8
  | .pending => 0x01#8
  | .nothingReady => 0x02#8
  | .badCommand => 0x10#8
  | .badLength => 0x11#8
  | .badArgument => 0x12#8
  | .activeBank => 0x13#8
  | .noRoute => 0x14#8
  | .routeBlocked => 0x15#8
  | .branchOff => 0x16#8
  | .queueFull => 0x17#8
  | .tableFull => 0x18#8
  | .noBuffer => 0x19#8
  | .noSuchTag => 0x1A#8
  | .slotActive => 0x1B#8
  | .limitBelowUse => 0x1C#8
  | .slotUnset => 0x1D#8

/-- Outcome codes, which are also proxy reason codes 1 to 4 (section 10.4). -/
def outcomeByte : ExchangeOutcome → Byte
  | .answered => 0x00#8
  | .noAnswer => 0x01#8
  | .badAnswer => 0x02#8
  | .contention => 0x03#8
  | .branchOff => 0x04#8

/-- Proxy reason code BUSY (section 10.4). -/
def reasonBusy : Byte := 0x05#8

/-- Branch state codes (section 10.4). -/
def statusByte : BranchStatus → Byte
  | .off => 0x00#8
  | .idle => 0x01#8
  | .lead => 0x02#8
  | .send => 0x03#8
  | .await => 0x04#8
  | .recv => 0x05#8
  | .fault => 0x06#8

/-- Record state codes of LIST_PENDING (section 10.4, R172). -/
def recordStateByte (r : Record) : Byte :=
  match r.state with
  | .queued => 0x01#8
  | .onLine => if r.cancelPending then 0x03#8 else 0x02#8
  | .ended => 0x04#8
  | .free | .delivering => 0x00#8

/-- Slot state codes (section 10.4). -/
def slotStateByte : SlotState → Byte
  | .unset => 0x00#8
  | .stopped => 0x01#8
  | .armed => 0x02#8
  | .due => 0x03#8
  | .onLine => 0x04#8
  | .stopping => 0x05#8

/-- KIND of an entry on the line (section 10.6). -/
def kindByte : EntryKind → Byte
  | .station => 0x00#8
  | .group => 0x01#8

/-- MODE of an entry on the line (section 10.6). -/
def modeByte : EntryMode → Byte
  | .pass => 0x00#8
  | .deferOnly => 0x01#8
  | .block => 0x02#8

/-- The nine entry bytes of READ_ENTRY (R183); an absent REWRITE base reads as 00h. -/
def entryBytes (e : RouteEntry) : List Byte :=
  [kindByte e.kind, e.pattern, e.mask, e.branches.setWidth 8, modeByte e.mode, boolByte e.rewrite.isSome,
   e.rewrite.getD 0, byteOfNat e.retries, boolByte e.notify]

/-- The number of branches in the low four bits of E3 (section 10.4). -/
def branchCountOf (e3 : Byte) : Nat := [0, 1, 2, 3].countP fun i => e3.getLsbD i

/-- Check 3 of R41 on E0, E4 and E5 (R183). -/
def entryCheck3 (e0 e4 e5 : Byte) : Bool :=
  decide (e0.toNat ≤ 1) && decide (e4.toNat ≤ 2) && !(e4 == 0x01#8 && e0 == 0x01#8) && decide (e5.toNat ≤ 1)

/-- Check 4 of R41 on E3 (R183). -/
def entryCheck4 (e0 e3 : Byte) : Bool :=
  decide (e3.toNat < 16) && (if e0 = 0x00#8 then branchCountOf e3 == 1 else branchCountOf e3 != 0)

/-- Check 5 of R41 on E7 (R183). -/
def entryCheck5 (e0 e7 : Byte) : Bool :=
  if e0 = 0x00#8 then decide (e7.toNat ≤ 3) else e7 == 0x00#8

/-- Check 6 of R41 on E8 (R183). -/
def entryCheck6 (e0 e4 e8 : Byte) : Bool :=
  e8 == 0x00#8 || (e8 == 0x01#8 && e0 == 0x00#8 && e4 == 0x00#8)

/-- Checks 3 to 6 of R41 on the nine entry bytes, each of which fails with BAD_ARGUMENT (R183). -/
def entryBytesValid : List Byte → Bool
  | [e0, _, _, e3, e4, e5, _, e7, e8] =>
    entryCheck3 e0 e4 e5 && entryCheck4 e0 e3 && entryCheck5 e0 e7 && entryCheck6 e0 e4 e8
  | _ => false

/-- The valid entry that nine accepted bytes write, with HITS zero (R41, R183). -/
def entryOfBytes : List Byte → RouteEntry
  | [e0, e1, e2, e3, e4, e5, e6, e7, e8] =>
    { valid := true
      kind := if e0 = 0x00#8 then .station else .group
      pattern := e1
      mask := e2
      branches := e3.setWidth 4
      mode := if e4 = 0x00#8 then .pass else if e4 = 0x01#8 then .deferOnly else .block
      rewrite := if e5 = 0x01#8 then some e6 else none
      retries := e7.toNat
      notify := e8 == 0x01#8
      hits := 0 }
  | _ => .empty

/-- The parameters of section 10.7. -/
inductive Param where
  | mgmtAddress
  | trunkReserve
  | holdTime
  | bufLowMark
  | eventEnable
  | rate (p : Port)
  | guard (p : Port)
  | charTimeout (p : Port)
  | responseWindow (b : Branch)
  | queueLimit (b : Branch)
  | quarantine (b : Branch)
  deriving DecidableEq, Repr

/-- The parameters that every branch has, by the low digit of their index (section 10.7). -/
def branchParamOf (b : Branch) (low : Nat) : Option Param :=
  match low with
  | 0 => some (.rate (.branch b))
  | 1 => some (.guard (.branch b))
  | 2 => some (.charTimeout (.branch b))
  | 3 => some (.responseWindow b)
  | 4 => some (.queueLimit b)
  | 5 => some (.quarantine b)
  | _ => none

/-- The parameter an index byte names, if any (R184). -/
def paramOf (index : Byte) : Option Param :=
  let high := index.toNat / 16
  let low := index.toNat % 16
  match high with
  | 0 =>
    match low with
    | 0 => some .mgmtAddress
    | 1 => some .trunkReserve
    | 2 => some .holdTime
    | 3 => some .bufLowMark
    | 4 => some .eventEnable
    | _ => none
  | 1 =>
    match low with
    | 0 => some (.rate .trunk)
    | 1 => some (.guard .trunk)
    | 2 => some (.charTimeout .trunk)
    | _ => none
  | 2 => branchParamOf 0 low
  | 3 => branchParamOf 1 low
  | 4 => branchParamOf 2 low
  | 5 => branchParamOf 3 low
  | _ => none

/-- The range of a parameter, judged on the 16-bit number (sections 9.3 and 10.7, R184). -/
def paramInRange (q : Param) (v : Word) : Bool :=
  match q with
  | .mgmtAddress => decide (1 ≤ v.toNat) && decide (v.toNat ≤ 0xEF)
  | .trunkReserve => decide (1 ≤ v.toNat) && decide (v.toNat ≤ 8)
  | .holdTime => decide (1 ≤ v.toNat) && decide (v.toNat ≤ 255)
  | .bufLowMark => decide (v.toNat ≤ 47)
  | .eventEnable => decide (v.toNat < 4096)
  | .rate _ => decide (v.toNat ≤ 6)
  | .guard _ => decide (v.toNat ≤ 15)
  | .charTimeout _ => decide (1 ≤ v.toNat) && decide (v.toNat ≤ 7)
  | .responseWindow _ => decide (1 ≤ v.toNat) && decide (v.toNat ≤ 1000)
  | .queueLimit _ => decide (1 ≤ v.toNat) && decide (v.toNat ≤ 8)
  | .quarantine _ => decide (v.toNat ≤ 255)

/-- The counters of the trunk group in the order of READ_COUNTERS (section 10.5). -/
def trunkCounterList (p : PortCounters) (t : TrunkCounters) : List Nat :=
  [p.framesRxGood, p.framesTx, p.checkErrors, p.truncated, p.contentions,
   t.unrouted, t.refused, t.superseded, t.replays, t.bufLost, t.mgmtMalformed]

/-- The counters of a branch group in the order of READ_COUNTERS (section 10.5). -/
def branchCounterList (p : PortCounters) (c : BranchCounters) : List Nat :=
  [p.framesRxGood, p.framesTx, p.checkErrors, p.truncated, p.contentions,
   c.answers, c.noAnswers, c.badAnswers, c.wrongResponder, c.lateAnswers, c.unsolicited, c.stalls, c.skips,
   c.uncollected]

/-- Counters as two bytes each, in order (section 10.5). -/
def counterBytes (l : List Nat) : List Byte := (l.map wordBytes).flatten

end Sys2Proof.Machine
end

