-- ==== Sys2Proof/Machine/Ops.lean ====
section
/-!
DEFINITION. The operations that the blocks share: tables, ports, the frame buffer pool, and the records with their
queues. Every effect of a command on the state is made of these.
-/

namespace Sys2Proof.Machine

/-! ### Tables -/

/-- A table with one place changed. -/
def updateAt {α : Type} {n : Nat} (v : Vector α n) (i : Fin n) (f : α → α) : Vector α n := v.set i.val (f v[i]) i.isLt

/-- A table built place by place. -/
def tableOf {α : Type} {n : Nat} (f : Fin n → α) : Vector α n := ⟨⟨(List.finRange n).map f⟩, by simp⟩

/-- A table with every place changed. -/
def mapTable {α β : Type} {n : Nat} (f : α → β) (v : Vector α n) : Vector β n := ⟨⟨v.toList.map f⟩, by simp⟩

/-- The lowest index whose place meets a test. -/
def lowestIndex {n : Nat} (p : Fin n → Bool) : Option (Fin n) := (List.finRange n).find? p

/-! ### Blocks of the state -/

/-- One branch controller changed. -/
def modifyBranch (b : Branch) (f : BranchState → BranchState) (s : State) : State :=
  { s with branches := updateAt s.branches b f }

/-- Every branch controller changed, each by its own number. -/
def mapBranches (f : Branch → BranchState → BranchState) (s : State) : State :=
  { s with branches := tableOf fun b => f b s.branches[b] }

/-- The trunk controller changed. -/
def modifyTrunk (f : Trunk → Trunk) (s : State) : State := { s with trunk := f s.trunk }

/-- One record changed. -/
def modifyRecord (i : RecordIndex) (f : Record → Record) (s : State) : State :=
  { s with records := updateAt s.records i f }

/-- One poll slot changed. -/
def modifySlot (k : SlotIndex) (f : Slot → Slot) (s : State) : State := { s with slots := updateAt s.slots k f }

/-- A line port. -/
def State.port (s : State) : Port → PortState
  | .trunk => s.trunk.port
  | .branch b => s.branches[b].port

/-- One line port changed. -/
def modifyPort (p : Port) (f : PortState → PortState) (s : State) : State :=
  match p with
  | .trunk => modifyTrunk (fun t => { t with port := f t.port }) s
  | .branch b => modifyBranch b (fun x => { x with port := f x.port }) s

/-- The counters of a port changed. -/
def modifyPortCounters (p : Port) (f : PortCounters → PortCounters) (s : State) : State :=
  modifyPort p (fun q => { q with counters := f q.counters }) s

/-- The trunk's own counters changed. -/
def modifyTrunkCounters (f : TrunkCounters → TrunkCounters) (s : State) : State :=
  modifyTrunk (fun t => { t with counters := f t.counters }) s

/-- The counter group of a branch changed. -/
def modifyBranchCounters (b : Branch) (f : BranchCounters → BranchCounters) (s : State) : State :=
  modifyBranch b (fun x => { x with counters := f x.counters }) s

/-- A route bank. -/
def State.bank (s : State) : Bank → Vector RouteEntry Config.entryCount
  | .a => s.bankA
  | .b => s.bankB

/-- The other bank. -/
def otherBank : Bank → Bank
  | .a => .b
  | .b => .a

/-- A route bank replaced. -/
def setBank (k : Bank) (v : Vector RouteEntry Config.entryCount) (s : State) : State :=
  match k with
  | .a => { s with bankA := v }
  | .b => { s with bankB := v }

/-- One entry of a bank changed. -/
def modifyEntry (k : Bank) (j : Fin Config.entryCount) (f : RouteEntry → RouteEntry) (s : State) : State :=
  setBank k (updateAt (s.bank k) j f) s

/-- A branch is in service when it is neither OFF nor FAULT (R36, R93, R94). -/
def inService (s : State) (b : Branch) : Bool :=
  s.branches[b].status != .off && s.branches[b].status != .fault

/-! ### The pins that are computed -/

/-- The port is in SEND. -/
def TxState.sending : TxState → Bool
  | .send _ _ => true
  | .quiet | .lead _ => false

/-- The port is in LEAD. -/
def TxState.leading : TxState → Bool
  | .lead _ => true
  | .quiet | .send _ _ => false

/-- DE is high exactly while the port is in SEND, and low in reset (R18, R185, R186). -/
def State.driverEnabled (s : State) (p : Port) : Bool := !s.inReset && (s.port p).tx.sending

/-- The levels of the character at a transmit position: the first of a frame carries the mark bit (R1, R6). -/
def TxFrame.levels (f : TxFrame) (position : Nat) : Option (List Bool) :=
  (mkFrame f.address f.data)[position]?.map fun c => characterLevels c (position == 0)

/-- TXD in a bit period of the present character: while DE is high the level of the character being sent, at every other
time mark (R186). -/
def State.txd (s : State) (p : Port) (bit : Nat) : Bool :=
  match (s.port p).tx with
  | .send f position => s.inReset || ((f.levels position).getD []).getD bit true
  | .quiet | .lead _ => true

/-! ### The frame buffer pool -/

/-- The number of free buffers (R118). -/
def freeCount (s : State) : Nat := s.buffers.toList.countP fun c => c.holder == .free

/-- The lowest-numbered free buffer (R120). -/
def lowestFreeBuffer (s : State) : Option (Fin Config.bufferCount) := lowestIndex fun i => s.buffers[i].holder == .free

/-- A claim that has passed its gate takes the lowest-numbered free buffer, writes it from position 0, and sets BUF_LOW
when it leaves the free count less than BUF_LOW_MARK (R118, R120, R124). -/
def claimBuffer (h : Holder) (chars : List Byte) (s : State) : State :=
  match lowestFreeBuffer s with
  | none => s
  | some i =>
    let t := { s with buffers := updateAt s.buffers i fun _ => { holder := h, chars := chars } }
    if freeCount t < s.params.bufLowMark then raise .bufLow t else t

/-- A return: every buffer of a holder goes back to the free pool (R126). -/
def returnBuffer (h : Holder) (s : State) : State :=
  { s with buffers := mapTable (fun c => if c.holder = h then .empty else c) s.buffers }

/-- A hand-over moves a buffer to another holder (R125). -/
def handOver (h g : Holder) (s : State) : State :=
  { s with buffers := mapTable (fun c => if c.holder = h then { c with holder := g } else c) s.buffers }

/-- The characters in a holder's buffer are replaced. -/
def writeBuffer (h : Holder) (chars : List Byte) (s : State) : State :=
  { s with buffers := mapTable (fun c => if c.holder = h then { c with chars := chars } else c) s.buffers }

/-- The characters in a holder's buffer, if it holds one. -/
def heldFrame (h : Holder) (s : State) : Option (List Byte) :=
  (s.buffers.toList.find? fun c => c.holder == h).map fun c => c.chars

/-- The gate of a branch grant and of SUBMIT: free count greater than TRUNK_RESERVE (section 6.3). -/
def gateOpen (s : State) : Bool := decide (s.params.trunkReserve < freeCount s)

/-- What a port sends from a buffer: its ADDRESS and DATA; CHECK is computed afresh (R6, R107). -/
def frameToSend (h : Holder) (s : State) : TxFrame :=
  let chars := (heldFrame h s).getD []
  { address := frameAddress chars, data := frameData chars }

/-! ### Records, queues and the completion list -/

/-- The number of FREE records (R38). -/
def freeRecords (s : State) : Nat := s.records.toList.countP fun r => r.state == .free

/-- The lowest-indexed FREE record (R38). -/
def lowestFreeRecord (s : State) : Option RecordIndex := lowestIndex fun i => s.records[i].state == .free

/-- A branch of a set (section 10.4). -/
def inSet (x : BranchSet) (b : Branch) : Bool := x.getLsbD b.val

/-- A set without a branch. -/
def setWithout (x : BranchSet) (b : Branch) : BranchSet := x &&& ~~~(1#4 <<< b.val)

/-- A set with a branch. -/
def setWith (x : BranchSet) (b : Branch) : BranchSet := x ||| (1#4 <<< b.val)

/-- The poll slot is a DUE slot of the branch (R134). -/
def slotDueOn (s : State) (b : Branch) (k : SlotIndex) : Bool :=
  s.slots[k].state == .due && (s.slots[k].config.map fun c => c.branch) == some b

/-- The lowest-numbered DUE slot of a branch (R79, R134). -/
def lowestDueSlot (s : State) (b : Branch) : Option SlotIndex := lowestIndex (slotDueOn s b)

/-- A branch has work when its queue holds a record or a poll slot of the branch is DUE (R78). -/
def hasWork (s : State) (b : Branch) : Bool := !s.branches[b].queue.isEmpty || (lowestDueSlot s b).isSome

/-- A branch left with no work stops being stalled (R80). -/
def endIdleStalls (s : State) : State :=
  mapBranches (fun b x => if hasWork s b then x else { x with stalled := false }) s

/-- A record leaves every queue that holds it. -/
def leaveQueues (i : RecordIndex) (s : State) : State :=
  mapBranches (fun _ x => { x with queue := x.queue.filter fun j => j != i }) s

/-- A record joins the tail of a branch's queue (R50). -/
def enqueueTail (b : Branch) (i : RecordIndex) (s : State) : State :=
  modifyBranch b (fun x => { x with queue := x.queue ++ [i] }) s

/-- A record joins the head of a branch's queue (R50). -/
def enqueueHead (b : Branch) (i : RecordIndex) (s : State) : State :=
  modifyBranch b (fun x => { x with queue := i :: x.queue }) s

/-- A record becomes FREE: the buffers it still holds are returned, it leaves every queue and the completion list, its
tag and HOLD timer go with its fields (R47), and a branch left with no work stops being stalled (R80). The arbitrations
that the return causes are events of their branches (R160). -/
def freeRecord (i : RecordIndex) (s : State) : State :=
  let s := returnBuffer (.answer i) (returnBuffer (.request i) s)
  let s := leaveQueues i s
  let s := { s with completions := s.completions.filter fun j => j != i }
  endIdleStalls (modifyRecord i (fun _ => .free) s)

/-- A branch leaves a GROUP record's PENDING and SENDING; when both are then empty the record is freed (R62). -/
def groupLeave (b : Branch) (i : RecordIndex) (s : State) : State :=
  let s := modifyRecord i
    (fun r => { r with pendingSet := setWithout r.pendingSet b, sendingSet := setWithout r.sendingSet b }) s
  if s.records[i].pendingSet = 0 ∧ s.records[i].sendingSet = 0 then freeRecord i s else s

/-- The deferred count of a branch: its DEFERRED records that are QUEUED or ON_LINE (R51). -/
def deferredCount (s : State) (b : Branch) : Nat :=
  s.records.toList.countP fun r =>
    r.kind == some .deferred && r.branch == some b && (r.state == .queued || r.state == .onLine)

/-- The live TRANSPARENT record that is not ABANDONED (R64). -/
def liveTransparent (s : State) : Option RecordIndex :=
  lowestIndex fun i => s.records[i].kind == some .transparent && s.records[i].state != .free && !s.records[i].abandoned

/-! ### Line ports -/

/-- The port hears its line: the part is not in reset, and the branch is not OFF (R21, R185). -/
def hears (s : State) (p : Port) : Bool :=
  !s.inReset && (match p with | .trunk => true | .branch b => s.branches[b].status != .off)

/-- The receiver may take a start bit: it hears its line, is synchronised, and the line is not in a break (R3, R4). -/
def receives (s : State) (p : Port) : Bool := hears s p && (s.port p).synchronised && !(s.port p).inBreak

/-- A character ends: line rest time begins from zero, and a gap begins under the CHAR_TIMEOUT in force (R5, R22). -/
def characterEnds (p : Port) (s : State) : State :=
  modifyPort p (fun q => { q with lineRest := 0, charInProgress := false, gapTimeout := q.charTimeout }) s

/-- The receive side takes a state. -/
def setRx (p : Port) (x : RxState) (s : State) : State := modifyPort p (fun q => { q with rx := x }) s

/-- A truncated or malformed frame is counted and flagged once (R13). -/
def countTruncated (p : Port) (s : State) : State :=
  raise .lineError (modifyPortCounters p (fun c => { c with truncated := countUp c.truncated }) s)

/-- The trunk's receive buffer, if it holds one, is returned; a branch keeps its answer buffer (R14, R15). -/
def returnAssembly (p : Port) (s : State) : State :=
  match p with
  | .trunk => returnBuffer .trunkAssembly s
  | .branch _ => s

/-- An open frame is truncated with its buffer returned (R13, R14), and a DISCARD ends without a second count (R11); the
receive side is left in HUNT. -/
def truncateOpen (p : Port) (s : State) : State :=
  match (s.port p).rx with
  | .hunt => s
  | .discard => setRx p .hunt s
  | .assemble _ => returnAssembly p (countTruncated p (setRx p .hunt s))

/-- A controller gives its port a frame: LEAD, with the GUARD then in force (R17, R22). -/
def enterLead (p : Port) (f : TxFrame) (s : State) : State :=
  modifyPort p (fun q => { q with tx := .lead f, guardInUse := q.guard }) s

/-- A controller's order to abort: the transmit side returns to QUIET and the receive side to HUNT, nothing counted
(R13, R21). -/
def abortPort (p : Port) (s : State) : State := modifyPort p (fun q => { q with tx := .quiet, rx := .hunt }) s

/-- A new RATE is applied: an open frame is truncated, a character being received is discarded, and the receiver must
resynchronise; line rest time carries on (R22). -/
def applyRate (p : Port) (code : Nat) (s : State) : State :=
  modifyPort p (fun q => { q with rate := code, synchronised := false, charInProgress := false }) (truncateOpen p s)

end Sys2Proof.Machine
end

