-- ==== Sys2Proof/Machine/TrunkControl.lean ====
section
/-!
DEFINITION. The trunk controller: the owed reply, its sending and its end, the settling point, and supersede
(chapter 5 and R64).
-/

namespace Sys2Proof.Machine

/-- The owed reply becomes ANSWER, PROXY or RESPONSE: the controller gives the trunk port the frame in the holder's
buffer and enters LEAD (R102, R107). -/
def oweReply (kind : OwedReply) (h : Holder) (s : State) : State :=
  enterLead .trunk (frameToSend h s) (modifyTrunk (fun t => { t with owed := kind }) s)

/-- The owed reply becomes one that the controller does not send: PENDING_ANSWER or none (R102). -/
def setOwed (kind : OwedReply) (s : State) : State := modifyTrunk (fun t => { t with owed := kind }) s

/-- The characters of a proxy status frame (R58, R112). -/
def proxyFrame (s : State) (trunkAddress reason : Byte) : List Byte :=
  mkFrame s.params.mgmtAddress [0x7F#8, trunkAddress, reason]

/-- A buffer is rebuilt in place as a proxy status frame, handed to the trunk controller and owed (R36, R58, R112). -/
def oweProxy (h : Holder) (trunkAddress reason : Byte) (s : State) : State :=
  oweReply .proxy .owedReply (handOver h .owedReply (writeBuffer h (proxyFrame s trunkAddress reason) s))

/-- The last-response memory is emptied and its buffer returned; last code and last sequence become absent (R114,
R157, R164). -/
def emptyLastResponse (s : State) : State :=
  { returnBuffer .lastResponse s with lastCode := none, lastSeq := none }

/-- The settling point: a pending setting is applied and becomes absent (R114). -/
def settlePending (s : State) : State :=
  match s.trunk.pendingSetting with
  | none => s
  | some (.trunkRate code) => applyRate .trunk code (modifyTrunk (fun t => { t with pendingSetting := none }) s)
  | some (.mgmtAddress a) =>
    let s := modifyTrunk (fun t => { t with pendingSetting := none }) s
    emptyLastResponse { s with params := { s.params with mgmtAddress := a } }

/-- The management address in force once a pending one has settled (R31, R114). -/
def settledAddress (s : State) : Byte :=
  match s.trunk.pendingSetting with
  | some (.mgmtAddress a) => a
  | some (.trunkRate _) | none => s.params.mgmtAddress

/-- The owed reply is finished: an ANSWER or PROXY buffer is returned, a response stays in the last-response memory, and
the owed reply becomes none (R109, R110). -/
def finishOwed (s : State) : State := setOwed .nothing (returnBuffer .owedReply s)

/-- Step 1 of supersede: the owed reply is emptied, withdrawn from LEAD, and counted (R104). -/
def supersedeOwed (s : State) : State :=
  match s.trunk.owed with
  | .nothing => s
  | .pendingAnswer _ =>
    modifyTrunkCounters (fun c => { c with superseded := countUp c.superseded }) (setOwed .nothing s)
  | .answer | .proxy | .response =>
    modifyTrunkCounters (fun c => { c with superseded := countUp c.superseded }) (finishOwed (abortPort .trunk s))

/-- Step 2 of supersede: the live TRANSPARENT record is freed when QUEUED, marked ABANDONED when ON_LINE (R64). -/
def supersedeRecord (s : State) : State :=
  match liveTransparent s with
  | none => s
  | some i =>
    if s.records[i].state = .queued then freeRecord i s
    else modifyRecord i (fun r => { r with abandoned := true }) s

/-- A supersede, up to the passing of the frame to the classifier (R104). -/
def supersede (s : State) : State := settlePending (supersedeRecord (supersedeOwed s))

/-- The port part of a clean completion: DE released, FRAMES_TX counted, QUIET, the receive side in HUNT, line rest
time from the end of the last echo (R20). -/
def transmissionComplete (p : Port) (s : State) : State :=
  modifyPort p (fun q => { q with
    tx := .quiet, rx := .hunt, lineRest := 0, charInProgress := false
    counters := { q.counters with framesTx := countUp q.counters.framesTx } }) s

/-- The port part of contention: DE released at once, CONTENTIONS counted and flagged, QUIET, HUNT (R19). -/
def transmissionContended (p : Port) (s : State) : State :=
  raise .contention (modifyPort p (fun q => { q with
    tx := .quiet, rx := .hunt, lineRest := 0, charInProgress := false
    counters := { q.counters with contentions := countUp q.counters.contentions } }) s)

/-- The trunk's owed reply has been sent cleanly (R109). -/
def trunkSent (s : State) : State := settlePending (finishOwed (transmissionComplete .trunk s))

/-- The trunk's owed reply is lost to contention (R110). A pending RATE then settles; R115 says that R22 truncates the
other party's frame, but by R19 the receive side is already in HUNT, so no frame is open and none is counted as TRUNCATED
(log entry 27). -/
def trunkContended (s : State) : State := settlePending (finishOwed (transmissionContended .trunk s))

end Sys2Proof.Machine
end

