-- ==== Sys2Proof/Machine/Scheduler.lean ====
section
/-!
DEFINITION. The poll scheduler: expiries, the end of a poll, and branches leaving service (chapter 7).
-/

namespace Sys2Proof.Machine

/-- MISSES of a slot is incremented (R137). -/
def slotMiss (k : SlotIndex) (s : State) : State := modifySlot k (fun x => { x with misses := missUp x.misses }) s

/-- The slot is running: ARMED, DUE, ON_LINE or STOPPING (R131). -/
def SlotState.running : SlotState → Bool
  | .unset | .stopped => false
  | .armed | .due | .onLine | .stopping => true

/-- A skip: MISSES of the slot and SKIPS of its branch are incremented (R96, R133). -/
def slotSkip (k : SlotIndex) (b : Branch) (s : State) : State :=
  modifyBranchCounters b (fun c => { c with skips := countUp c.skips }) (slotMiss k s)

/-- An overrun: OVERRUNS is incremented and POLL_OVERRUN set (R133). -/
def slotOverrun (k : SlotIndex) (s : State) : State :=
  raise .pollOverrun (modifySlot k (fun x => { x with overruns := countUp x.overruns }) s)

/-- The period of a running slot expires: the countdown is reloaded with PERIOD (R132) and the expiry acts by the
slot's state and its branch's (R133). -/
def slotExpire (k : SlotIndex) (s : State) : State :=
  match s.slots[k].config with
  | none => s
  | some c =>
    let t := modifySlot k (fun x => { x with countdown := c.period }) s
    match s.slots[k].state with
    | .unset | .stopped => s
    | .armed =>
      if inService s c.branch then modifySlot k (fun x => { x with state := .due }) t else slotSkip k c.branch t
    | .due | .onLine | .stopping => slotOverrun k t

/-- What RESTART makes of a slot (R146). -/
def restartSlot (x : Slot) : Slot :=
  let period := (x.config.map fun c => c.period).getD 0
  let y := { x with seq := 0, age := none, misses := 0, overruns := 0 }
  match x.state with
  | .unset => y
  | .stopped => y
  | .armed | .due | .onLine => { y with state := .armed, countdown := period }
  | .stopping => { y with state := .stopped, countdown := 0 }

/-- The response that waits in LEAD is that of a RESTART and has waited there since that RESTART: every good frame that
comes later, the one answered by its replay among them, is counted from the 0 to which RESTART cleared (R159, R178,
R179). -/
def restartResponseWaits (s : State) : Bool :=
  s.lastCode == some (commandByte .restart) && s.trunk.owed == .response && s.trunk.port.tx.leading &&
    s.trunk.port.counters.framesRxGood == 0

/-- The slot stands as a RESTART has just left it, and the response to that RESTART still waits in LEAD: the slot is ARMED
with its countdown at PERIOD, and no expiry, miss or answer has come since (R146, R180). -/
def justRestarted (k : SlotIndex) (s : State) : Bool :=
  restartResponseWaits s && s.slots[k].state == .armed && s.slots[k] == restartSlot s.slots[k]

/-- An expiry reported by a row: one that falls together with a RESTART and is taken behind it finds the countdown
reloaded and does not happen (R180). -/
def slotExpiryTaken (k : SlotIndex) (s : State) : State := if justRestarted k s then s else slotExpire k s

/-- The slot leaves its poll state: ON_LINE to ARMED, STOPPING to STOPPED with its countdown stopped (R135). -/
def slotLeavePoll (k : SlotIndex) (s : State) : State :=
  match s.slots[k].state with
  | .onLine => modifySlot k (fun x => { x with state := .armed }) s
  | .stopping => modifySlot k (fun x => { x with state := .stopped, countdown := 0 }) s
  | .unset | .stopped | .armed | .due => s

/-- A good answer replaces the snapshot in one step: the branch's answer buffer becomes the ANSWER, the previous one is
returned, SEQ advances, AGE and MISSES start from 0 (R136). -/
def replaceSnapshot (k : SlotIndex) (b : Branch) (s : State) : State :=
  let s := handOver (.branchAnswer b) (.snapshot k) (returnBuffer (.snapshot k) s)
  modifySlot k (fun x => { x with seq := x.seq + 1, age := some 0, misses := 0 }) s

/-- The end of a slot's poll (R135). -/
def pollEnds (k : SlotIndex) (b : Branch) (answered : Bool) (s : State) : State :=
  slotLeavePoll k (if answered then replaceSnapshot k b s else slotMiss k s)

/-- The scheduler is told that a branch has left service: each DUE slot of it is abandoned with a miss (R144). -/
def abandonDuePolls (b : Branch) (s : State) : State :=
  { s with slots := tableOf fun k =>
      if slotDueOn s b k then { s.slots[k] with state := .armed, misses := missUp s.slots[k].misses } else s.slots[k] }

/-- The snapshot of a slot is discarded with its counts (R139, R140, R146). -/
def discardSnapshot (k : SlotIndex) (s : State) : State :=
  modifySlot k (fun x => { x with seq := 0, age := none, misses := 0, overruns := 0 }) (returnBuffer (.snapshot k) s)

end Sys2Proof.Machine
end

