-- ==== Sys2Proof/Machine/Exchange.lean ====
section
/-!
DEFINITION. The transaction table's handling of outcomes: retry, settlement by kind, entry to the completion list
(section 3.5).
-/

namespace Sys2Proof.Machine

/-- ANSWER_FAIL is set when an outcome is fixed as NO_ANSWER or BAD_ANSWER (R56). -/
def noteOutcome (o : ExchangeOutcome) (s : State) : State :=
  match o with
  | .noAnswer | .badAnswer => raise .answerFail s
  | .answered | .contention | .branchOff => s

/-- An answer that no one waits for any more is returned to the pool (R59, R72). -/
def dropLateAnswer (b : Branch) (o : ExchangeOutcome) (s : State) : State :=
  if o = .answered then returnBuffer (.branchAnswer b) s else s

/-- A TRANSPARENT record that is answered: the answer buffer becomes its ANSWER, is rewritten to the trunk address with
its CHECK recomputed, is handed to the trunk controller and owed, and the record is freed (R57, R111). -/
def answerTransparent (i : RecordIndex) (b : Branch) (s : State) : State :=
  let answer := (heldFrame (.branchAnswer b) s).getD []
  let s := handOver (.branchAnswer b) (.answer i) s
  let s := writeBuffer (.answer i) (mkFrame (s.records[i].trunkAddress.getD 0) (frameData answer)) s
  freeRecord i (oweReply .answer .owedReply (handOver (.answer i) .owedReply s))

/-- A TRANSPARENT record that ends without an answer: a proxy status frame if NOTIFY, else the owed reply becomes none
(R58). -/
def failTransparent (i : RecordIndex) (o : ExchangeOutcome) (s : State) : State :=
  let r := s.records[i]
  freeRecord i
    (if r.notify then oweProxy (.request i) (r.trunkAddress.getD 0) (outcomeByte o) s else setOwed .nothing s)

/-- A TRANSPARENT record is settled (R57, R58), or, when ABANDONED, freed without a word to the trunk (R59). -/
def settleTransparent (i : RecordIndex) (b : Branch) (o : ExchangeOutcome) (s : State) : State :=
  if s.records[i].abandoned then freeRecord i (dropLateAnswer b o s)
  else if o = .answered then answerTransparent i b s
  else failTransparent i o s

/-- A DEFERRED record enters ENDED: its REQUEST is returned, an answer becomes its ANSWER, it joins the tail of the
completion list, COMPLETION is set and its HOLD timer starts under the HOLD_TIME in force (R60, R65, R66). -/
def endDeferred (i : RecordIndex) (b : Branch) (o : ExchangeOutcome) (s : State) : State :=
  let s := returnBuffer (.request i) s
  let s := if o = .answered then handOver (.branchAnswer b) (.answer i) s else s
  let s := modifyRecord i
    (fun r => { r with
      state := .ended, outcome := some o, hold := some { count := 0, limit := s.params.holdTime * 100 } }) s
  raise .completion { leaveQueues i s with completions := s.completions ++ [i] }

/-- A DEFERRED record is settled: ended, or, with CANCEL_PENDING, freed (R60, R72). -/
def settleDeferred (i : RecordIndex) (b : Branch) (o : ExchangeOutcome) (s : State) : State :=
  if s.records[i].cancelPending then freeRecord i (dropLateAnswer b o s) else endDeferred i b o s

/-- A CYCLIC record is settled: its slot's poll ends and the record is freed (R61). -/
def settleCyclic (i : RecordIndex) (b : Branch) (o : ExchangeOutcome) (s : State) : State :=
  match s.records[i].slot with
  | none => freeRecord i s
  | some k => freeRecord i (pollEnds k b (o == .answered) s)

/-- The outcome of a TRANSPARENT, DEFERRED or CYCLIC record is fixed (R54, R56). -/
def fixOutcome (i : RecordIndex) (b : Branch) (o : ExchangeOutcome) (s : State) : State :=
  match s.records[i].kind with
  | some .transparent => settleTransparent i b o (noteOutcome o s)
  | some .deferred => settleDeferred i b o (noteOutcome o s)
  | some .cyclic => settleCyclic i b o (noteOutcome o s)
  | some .group | none => s

/-- A record is retried: RETRIES_LEFT falls by one and it is QUEUED at the head of its branch's queue (R55). -/
def retryRecord (i : RecordIndex) (b : Branch) (s : State) : State :=
  enqueueHead b i (modifyRecord i (fun r => { r with state := .queued, retriesLeft := r.retriesLeft - 1 }) s)

/-- The table settles or retries a record on the attempt result that its branch reports (R54). -/
def settleAttempt (i : RecordIndex) (b : Branch) (o : ExchangeOutcome) (s : State) : State :=
  let r := s.records[i]
  if o = .answered || r.abandoned || r.cancelPending || r.retriesLeft == 0 then fixOutcome i b o s
  else retryRecord i b s

/-- An ENDED record's HOLD timer expires: UNCOLLECTED is counted for its branch and flagged, and the record is freed
with its answer unread (R67). -/
def holdExpire (i : RecordIndex) (s : State) : State :=
  if s.records[i].state = .ended then
    let t := match s.records[i].branch with
      | some b => modifyBranchCounters b (fun c => { c with uncollected := countUp c.uncollected }) s
      | none => s
    freeRecord i (raise .uncollected t)
  else s

end Sys2Proof.Machine
end

