-- ==== Sys2Proof/Machine/BranchControl.lean ====
section
/-!
DEFINITION. The branch controllers: entry to IDLE, the arbiter and its grants, the attempt from the clean end of SEND to
its result, contention and FAULT, and leaving and returning to service (chapter 4, R187, R188).
-/

namespace Sys2Proof.Machine

/-! ### Entry to IDLE, OFF and FAULT -/

/-- A held pending rate is applied and becomes absent (R89, R188). -/
def applyPendingRate (b : Branch) (s : State) : State :=
  match s.branches[b].pendingRate with
  | none => s
  | some code => applyRate (.branch b) code (modifyBranch b (fun x => { x with pendingRate := none }) s)

/-- The branch state changes. -/
def setStatus (b : Branch) (x : BranchStatus) (s : State) : State := modifyBranch b (fun y => { y with status := x }) s

/-- The branch enters IDLE, applying its pending rate first; the arbitration that follows is an event of its own
(R89, R160). -/
def enterIdle (b : Branch) (s : State) : State := setStatus b .idle (applyPendingRate b s)

/-- One record of a branch that leaves service is settled with outcome BRANCH_OFF, or, for a GROUP record, loses the
branch (R63). -/
def settleBranchOff (b : Branch) (s : State) (i : RecordIndex) : State :=
  if s.records[i].kind = some .group then groupLeave b i s else fixOutcome i b .branchOff s

/-- The branch's work is settled: the on-line record first, then the queue from head to tail (R63). -/
def settleBranchWork (b : Branch) (s : State) : State :=
  let s := match s.branches[b].onLine with
    | some i => settleBranchOff b s i
    | none => s
  let s := s.branches[b].queue.foldl (settleBranchOff b) s
  modifyBranch b (fun x => { x with onLine := none, queue := [] }) s

/-- What leaving service does by DISABLE and by FAULT alike: the work is settled, a pending rate is applied, the poll
scheduler is told, and STALLED becomes no (R92, R94, R188). -/
def leaveService (b : Branch) (s : State) : State :=
  let s := abandonDuePolls b (applyPendingRate b (settleBranchWork b s))
  modifyBranch b (fun x => { x with stalled := false }) s

/-- The branch enters FAULT (R94). -/
def enterFault (b : Branch) (s : State) : State :=
  let s := raise .branchFault (leaveService b s)
  modifyBranch b (fun x => { x with
    status := .fault
    quarantineTimer := if x.quarantine = 0 then none else some { count := 0, limit := x.quarantine * 100 } }) s

/-- The receive side of a branch port stops: nothing assembled is kept and no line rest time (R21, R92, R95). -/
def stopReceive (b : Branch) (s : State) : State :=
  modifyPort (.branch b) (fun q => { q with
    tx := .quiet, rx := .hunt, lineRest := 0, charInProgress := false, inBreak := false, synchronised := false }) s

/-- DISABLE (R92, R95). -/
def disableBranch (b : Branch) (s : State) : State :=
  match s.branches[b].status with
  | .off => s
  | .fault => modifyBranch b (fun x => { x with status := .off, quarantineTimer := none }) (stopReceive b s)
  | .idle | .lead | .send | .await | .recv =>
    let s := modifyBranch b (fun x => { x with windowTimer := none }) (stopReceive b s)
    setStatus b .off (leaveService b (returnBuffer (.branchAnswer b) s))

/-- ENABLE: from OFF the port's receive side starts in HUNT and resynchronises (R93); from FAULT it has kept running
(R95); elsewhere there is no effect. -/
def enableBranch (b : Branch) (s : State) : State :=
  match s.branches[b].status with
  | .off => enterIdle b (modifyBranch b (fun x => { x with contentionRun := 0 }) (stopReceive b s))
  | .fault => enterIdle b (modifyBranch b (fun x => { x with contentionRun := 0, quarantineTimer := none }) s)
  | .idle | .lead | .send | .await | .recv => s

/-- Quarantine expiry: the branch leaves FAULT (R95). -/
def quarantineExpire (b : Branch) (s : State) : State :=
  if s.branches[b].status = .fault ∧ s.branches[b].quarantineTimer.isSome then
    enterIdle b (modifyBranch b (fun x => { x with contentionRun := 0, quarantineTimer := none }) s)
  else s

/-! ### The arbiter -/

/-- The transparent candidate: the TRANSPARENT record of the queue (R79). -/
def transparentCandidate (b : Branch) (s : State) : Option RecordIndex :=
  s.branches[b].queue.find? fun i => s.records[i].kind == some .transparent

/-- The queue-class candidate: the first record of the queue that is not TRANSPARENT (R79). -/
def queueCandidate (b : Branch) (s : State) : Option RecordIndex :=
  s.branches[b].queue.find? fun i => s.records[i].kind != some .transparent

/-- A record leaves the branch's queue. -/
def dequeue (b : Branch) (i : RecordIndex) (s : State) : State :=
  modifyBranch b (fun x => { x with queue := x.queue.filter fun j => j != i }) s

/-- The last steps of every grant: the on-line assignment, STALLED no, LEAD with the frame for the port (R81). -/
def assign (b : Branch) (i : RecordIndex) (f : TxFrame) (s : State) : State :=
  enterLead (.branch b) f
    (modifyBranch b (fun x => { x with onLine := some i, stalled := false, status := .lead }) s)

/-- The last-served marker is set (R79). -/
def setServed (b : Branch) (m : Served) (s : State) : State := modifyBranch b (fun x => { x with lastServed := m }) s

/-- The frame of a record that has a REQUEST: its COUNT and DATA under the record's LINE_ADDRESS (R81). -/
def requestFrame (i : RecordIndex) (s : State) : TxFrame :=
  { address := s.records[i].lineAddress, data := (frameToSend (.request i) s).data }

/-- The grant of a TRANSPARENT or DEFERRED record (R81, R122). -/
def grantRecord (b : Branch) (i : RecordIndex) (s : State) : State :=
  let s := claimBuffer (.branchAnswer b) [] s
  let s := modifyRecord i (fun r => { r with state := .onLine }) (dequeue b i s)
  assign b i (requestFrame i s) s

/-- The grant of a GROUP record: the branch passes from PENDING to SENDING (R62, R81). -/
def grantGroup (b : Branch) (i : RecordIndex) (s : State) : State :=
  let s := modifyRecord i
    (fun r => { r with pendingSet := setWithout r.pendingSet b, sendingSet := setWith r.sendingSet b }) (dequeue b i s)
  assign b i (requestFrame i s) s

/-- The CYCLIC record that the grant of a poll slot creates (R53). -/
def cyclicRecord (b : Branch) (k : SlotIndex) (lineAddress : Byte) : Record :=
  { Record.free with
    kind := some .cyclic, state := .onLine, branch := some b, slot := some k, lineAddress := lineAddress }

/-- The grant of a DUE poll slot (R53, R81, R134). -/
def grantSlot (b : Branch) (k : SlotIndex) (s : State) : State :=
  match lowestFreeRecord s, s.slots[k].config with
  | some i, some c =>
    let s := claimBuffer (.branchAnswer b) [] s
    let s := modifyRecord i (fun _ => cyclicRecord b k c.lineAddress) s
    let s := modifySlot k (fun x => { x with state := .onLine }) s
    assign b i { address := c.lineAddress, data := c.template } s
  | _, _ => s

/-- The queue-class candidate's grant, if it has one and its condition holds: none for a GROUP record (R79, R80). -/
def tryQueueClass (b : Branch) (s : State) : Option State :=
  match queueCandidate b s with
  | none => none
  | some i =>
    if s.records[i].kind = some .group then some (setServed b .queue (grantGroup b i s))
    else if gateOpen s then some (setServed b .queue (grantRecord b i s))
    else none

/-- The poll-class candidate's grant, if there is one and its condition holds (R79, R80). -/
def tryPollClass (b : Branch) (s : State) : Option State :=
  match lowestDueSlot s b with
  | none => none
  | some k => if gateOpen s ∧ 2 ≤ freeRecords s then some (setServed b .poll (grantSlot b k s)) else none

/-- The transparent candidate's grant, if there is one and its condition holds; the marker is left (R79, R80). -/
def tryTransparent (b : Branch) (s : State) : Option State :=
  match transparentCandidate b s with
  | none => none
  | some i => if gateOpen s then some (grantRecord b i s) else none

/-- The grant that the arbiter chooses: transparent first, then the class that was not served last, then the other
(R79). -/
def chooseGrant (b : Branch) (s : State) : Option State :=
  match tryTransparent b s with
  | some t => some t
  | none =>
    match s.branches[b].lastServed with
    | .poll => (tryQueueClass b s).or (tryPollClass b s)
    | .queue => (tryPollClass b s).or (tryQueueClass b s)

/-- Work that cannot be granted stalls the branch; STALLS counts entries into the stalled condition (R80). -/
def stallBranch (b : Branch) (s : State) : State :=
  if s.branches[b].stalled then s
  else modifyBranch b (fun x => { x with
    stalled := true, counters := { x.counters with stalls := countUp x.counters.stalls } }) s

/-- Arbitration, taken only while the branch is IDLE (R78, R79, R80). -/
def arbitrate (b : Branch) (s : State) : State :=
  if s.branches[b].status = .idle then
    if hasWork s b then
      match chooseGrant b s with
      | some t => t
      | none => stallBranch b s
    else modifyBranch b (fun x => { x with stalled := false }) s
  else s

/-! ### The attempt -/

/-- The kinds whose attempt awaits an answer (R76). -/
def isStationKind (r : Record) : Bool :=
  r.kind == some .transparent || r.kind == some .deferred || r.kind == some .cyclic

/-- ATTEMPTS of a TRANSPARENT or DEFERRED record is counted (R83, R84). -/
def countAttempt (i : RecordIndex) (s : State) : State :=
  modifyRecord i (fun r =>
    if r.kind = some .transparent ∨ r.kind = some .deferred then { r with attempts := r.attempts + 1 } else r) s

/-- The branch leaves its on-line assignment. -/
def dropAssignment (b : Branch) (s : State) : State := modifyBranch b (fun x => { x with onLine := none }) s

/-- The branch's frame completes cleanly (R83). -/
def sendCompleted (b : Branch) (s : State) : State :=
  let s := modifyBranch b (fun x => { x with contentionRun := 0 }) (transmissionComplete (.branch b) s)
  match s.branches[b].onLine with
  | none => enterIdle b s
  | some i =>
    let s := countAttempt i s
    if isStationKind s.records[i] then
      modifyBranch b (fun x => { x with
        status := .await, windowTimer := some { count := 0, limit := x.responseWindow } }) s
    else enterIdle b (dropAssignment b (groupLeave b i s))

/-- The port reports contention of the branch's frame (R84). -/
def sendContended (b : Branch) (s : State) : State :=
  let s := modifyBranch b (fun x => { x with contentionRun := x.contentionRun + 1 })
    (transmissionContended (.branch b) s)
  let s := match s.branches[b].onLine with
    | none => s
    | some i =>
      let s := countAttempt i s
      if isStationKind s.records[i] then
        dropAssignment b (settleAttempt i b .contention (returnBuffer (.branchAnswer b) s))
      else dropAssignment b (groupLeave b i s)
  if Config.faultRun ≤ s.branches[b].contentionRun then enterFault b s else enterIdle b s

/-- An attempt whose result is reached in AWAIT or RECV counts one counter of the branch group; `late` for a record
ABANDONED or with CANCEL_PENDING (R88). -/
def countResult (b : Branch) (o : ExchangeOutcome) (late : Bool) (s : State) : State :=
  modifyBranchCounters b (fun c =>
    match o with
    | .answered =>
      if late then { c with lateAnswers := countUp c.lateAnswers } else { c with answers := countUp c.answers }
    | .noAnswer => { c with noAnswers := countUp c.noAnswers }
    | .badAnswer => { c with badAnswers := countUp c.badAnswers }
    | .contention | .branchOff => c) s

/-- The end of an attempt in AWAIT or RECV: counted, the answer buffer returned unless ANSWERED, reported to the table,
and the branch enters IDLE (R54, R86, R87, R88, R89). -/
def attemptEnds (b : Branch) (o : ExchangeOutcome) (s : State) : State :=
  let s := modifyBranch b (fun x => { x with windowTimer := none }) s
  match s.branches[b].onLine with
  | none => enterIdle b s
  | some i =>
    let s := countResult b o (s.records[i].abandoned || s.records[i].cancelPending) s
    let s := if o = .answered then s else returnBuffer (.branchAnswer b) s
    enterIdle b (dropAssignment b (settleAttempt i b o s))

/-- The stored answer ended good: ANSWERED when its ADDRESS is the record's LINE_ADDRESS, else BAD_ANSWER from a wrong
responder (R87, R88). -/
def answerGood (b : Branch) (address : Byte) (s : State) : State :=
  match s.branches[b].onLine with
  | none => enterIdle b s
  | some i =>
    if s.records[i].lineAddress = address then attemptEnds b .answered s
    else attemptEnds b .badAnswer
      (modifyBranchCounters b (fun c => { c with wrongResponder := countUp c.wrongResponder }) s)

/-- The response window expires in AWAIT (R86). -/
def windowExpire (b : Branch) (s : State) : State :=
  if s.branches[b].status = .await then attemptEnds b .noAnswer s else s

end Sys2Proof.Machine
end

