-- ==== Sys2Proof/Machine/Routing.lean ====
section
/-!
DEFINITION. The route table: match, rewrite, lookup and HITS (sections 2.1 and 2.3), and the creation of the records
that come from a frame or a SUBMIT (R35, R37, R48, R52).
-/

namespace Sys2Proof.Machine

/-- An entry matches an address: the masked bits are equal, and the address is of the entry's class (R26). -/
def entryMatches (e : RouteEntry) (a : Byte) : Bool :=
  e.valid && (a &&& e.mask == e.pattern &&& e.mask) &&
    (match e.kind with
     | .station => isStationAddress a
     | .group => isGroupAddress a)

/-- The outgoing line address of an address that an entry selected (R27). -/
def outgoing (e : RouteEntry) (a : Byte) : Byte :=
  match e.rewrite with
  | none => a
  | some base => (base &&& e.mask) ||| (a &&& ~~~e.mask)

/-- A lookup in the active bank selects the lowest-indexed matching entry (R28). -/
def lookup (s : State) (a : Byte) : Option (Fin Config.entryCount) :=
  lowestIndex fun j => entryMatches (s.bank s.activeBank)[j] a

/-- The selected entry of the active bank. -/
def activeEntry (s : State) (j : Fin Config.entryCount) : RouteEntry := (s.bank s.activeBank)[j]

/-- A selection increments the entry's HITS (R29). -/
def hitEntry (j : Fin Config.entryCount) (s : State) : State :=
  modifyEntry s.activeBank j (fun e => { e with hits := countUp e.hits }) s

/-- The branches of a set, in number order. -/
def branchesOf (x : BranchSet) : List Branch := (List.finRange Config.branchCount).filter fun b => inSet x b

/-- The one branch of a STATION entry (R25). -/
def stationBranch (e : RouteEntry) : Branch := (branchesOf e.branches).headD 0

/-- The branches of a set that are in service (R33, R37). -/
def inServiceSet (s : State) (x : BranchSet) : BranchSet :=
  (List.finRange Config.branchCount).foldl (fun y b => if inSet x b && inService s b then setWith y b else y) 0

/-- The set of all four branches (R33). -/
def everyBranch : BranchSet := 0xF#4

/-! ### Creation of records -/

/-- A TRANSPARENT record (R35). -/
def transparentRecord (trunkAddress lineAddress : Byte) (b : Branch) (retries : Nat) (notify : Bool) : Record :=
  { Record.free with
    kind := some .transparent, state := .queued, trunkAddress := some trunkAddress, lineAddress := lineAddress,
    branch := some b, retriesLeft := retries, notify := notify }

/-- A GROUP record (R37). -/
def groupRecord (lineAddress : Byte) (pendingSet : BranchSet) : Record :=
  { Record.free with kind := some .group, state := .delivering, lineAddress := lineAddress, pendingSet := pendingSet }

/-- A DEFERRED record (R52). -/
def deferredRecord (tag trunkAddress lineAddress : Byte) (b : Branch) (retries : Nat) : Record :=
  { Record.free with
    kind := some .deferred, state := .queued, tag := some tag, trunkAddress := some trunkAddress,
    lineAddress := lineAddress, branch := some b, retriesLeft := retries }

/-- A live DEFERRED record holds the tag (R48, R49). -/
def tagHeld (s : State) (t : Byte) : Bool :=
  s.records.toList.any fun r => r.kind == some .deferred && r.state != .free && r.tag == some t

/-- The tag after a tag, 255 followed by 1 (R48). -/
def nextTag (t : Byte) : Byte := if t = 0xFF#8 then 0x01#8 else t + 1

/-- The first tag from `t` upward that no live DEFERRED record holds, searching at most `fuel` further ones (R48). -/
def freeTagFrom (s : State) (fuel : Nat) (t : Byte) : Byte :=
  match fuel with
  | 0 => t
  | n + 1 => if tagHeld s t then freeTagFrom s n (nextTag t) else t

/-- The tag that SUBMIT issues (R48). -/
def issuedTag (s : State) : Byte := freeTagFrom s 255 s.tagCounter

/-- A group frame is queued at the tail of every branch of its set (R37, R50). -/
def enqueueGroup (x : BranchSet) (i : RecordIndex) (s : State) : State :=
  mapBranches (fun b y => if inSet x b then { y with queue := y.queue ++ [i] } else y) s

end Sys2Proof.Machine
end

