-- ==== Sys2Proof/Machine/Management.lean ====
section
/-!
DEFINITION. The effects and results of the management commands: what each makes of the part once its envelope has been
checked (chapter 9, and the chapters that own the effects). The engine that calls them stands in Engine.lean.
-/

namespace Sys2Proof.Machine

/-- What executing a command comes to: its result, its result bytes, and the part after its effect (R160, R161). -/
structure Reply where
  result : ResultCode
  data : List Byte
  state : State

/-- A refusal, or an answer without result bytes (R163). -/
def refuse (r : ResultCode) (s : State) : Reply := { result := r, data := [], state := s }

/-- OK with result bytes. -/
def okay (data : List Byte) (s : State) : Reply := { result := .ok, data := data, state := s }

/-! ### Identification and parameters -/

/-- IDENTIFY (R165, section 10.8). -/
def cmdIdentify (s : State) : Reply :=
  okay [Config.familyCode, Config.partCode, Config.revision, s.strapA.setWidth 8, s.strapR.setWidth 8,
        byteOfNat Config.branchCount, byteOfNat Config.bufferCount, byteOfNat Config.recordCount,
        byteOfNat Config.entryCount, byteOfNat Config.slotCount] s

/-- The value of a parameter as GET_PARAM returns it: a held branch RATE is returned before it is applied (R166). -/
def paramValue (s : State) (q : Param) : Nat :=
  match q with
  | .mgmtAddress => s.params.mgmtAddress.toNat
  | .trunkReserve => s.params.trunkReserve
  | .holdTime => s.params.holdTime
  | .bufLowMark => s.params.bufLowMark
  | .eventEnable => s.params.eventEnable.toNat
  | .rate .trunk => s.trunk.port.rate
  | .rate (.branch b) => s.branches[b].pendingRate.getD s.branches[b].port.rate
  | .guard p => (s.port p).guard
  | .charTimeout p => (s.port p).charTimeout
  | .responseWindow b => s.branches[b].responseWindow
  | .queueLimit b => s.branches[b].queueLimit
  | .quarantine b => s.branches[b].quarantine

/-- GET_PARAM (R166, R184). -/
def cmdGetParam (index : Byte) (s : State) : Reply :=
  match paramOf index with
  | none => refuse .badArgument s
  | some q => okay (index :: wordBytes (paramValue s q)) s

/-- A RATE written for a branch port: applied at once in IDLE, OFF and FAULT, else held (R97). -/
def writeBranchRate (b : Branch) (code : Nat) (s : State) : State :=
  match s.branches[b].status with
  | .idle | .off | .fault => applyRate (.branch b) code s
  | .lead | .send | .await | .recv => modifyBranch b (fun x => { x with pendingRate := some code }) s

/-- An accepted value is stored; the trunk RATE and MGMT_ADDRESS are held as the pending setting (R114, R167). -/
def storeParam (q : Param) (v : Word) (s : State) : State :=
  let n := v.toNat
  match q with
  | .mgmtAddress => modifyTrunk (fun t => { t with pendingSetting := some (.mgmtAddress (lowByte v)) }) s
  | .trunkReserve => { s with params := { s.params with trunkReserve := n } }
  | .holdTime => { s with params := { s.params with holdTime := n } }
  | .bufLowMark => { s with params := { s.params with bufLowMark := n } }
  | .eventEnable => { s with params := { s.params with eventEnable := v.setWidth 12 } }
  | .rate .trunk => modifyTrunk (fun t => { t with pendingSetting := some (.trunkRate n) }) s
  | .rate (.branch b) => writeBranchRate b n s
  | .guard p => modifyPort p (fun x => { x with guard := n }) s
  | .charTimeout p => modifyPort p (fun x => { x with charTimeout := n }) s
  | .responseWindow b => modifyBranch b (fun x => { x with responseWindow := n }) s
  | .queueLimit b => modifyBranch b (fun x => { x with queueLimit := n }) s
  | .quarantine b => modifyBranch b (fun x => { x with quarantine := n }) s

/-- The third check of SET_PARAM: a QUEUE_LIMIT below the branch's deferred count (R51, R167). -/
def limitBelowUse (q : Param) (v : Word) (s : State) : Bool :=
  match q with
  | .queueLimit b => decide (v.toNat < deferredCount s b)
  | .mgmtAddress | .trunkReserve | .holdTime | .bufLowMark | .eventEnable | .rate _ | .guard _ | .charTimeout _
  | .responseWindow _ | .quarantine _ => false

/-- SET_PARAM (R167, R184). -/
def cmdSetParam (index : Byte) (v : Word) (s : State) : Reply :=
  match paramOf index with
  | none => refuse .badArgument s
  | some q =>
    if !paramInRange q v then refuse .badArgument s
    else if limitBelowUse q v s then refuse .limitBelowUse s
    else okay (index :: bytesOfWord v) (storeParam q v s)

/-! ### Route table -/

/-- READ_ENTRY (R40, R183). -/
def cmdReadEntry (bank index clear : Byte) (s : State) : Reply :=
  match bankOf bank, entryIndexOf index, clearOptionOf clear with
  | some k, some j, some c =>
    let e := (s.bank k)[j]
    okay ([bank, index, boolByte e.valid] ++ entryBytes e ++ wordBytes e.hits)
      (if c then modifyEntry k j (fun x => { x with hits := 0 }) s else s)
  | _, _, _ => refuse .badArgument s

/-- WRITE_ENTRY (R41, R183). -/
def cmdWriteEntry (bank index : Byte) (entry : List Byte) (s : State) : Reply :=
  match bankOf bank, entryIndexOf index with
  | some k, some j =>
    if k = s.activeBank then refuse .activeBank s
    else if entryBytesValid entry then okay [bank, index] (modifyEntry k j (fun _ => entryOfBytes entry) s)
    else refuse .badArgument s
  | _, _ => refuse .badArgument s

/-- CLEAR_ENTRY (R42). -/
def cmdClearEntry (bank index : Byte) (s : State) : Reply :=
  match bankOf bank, entryIndexOf index with
  | some k, some j =>
    if k = s.activeBank then refuse .activeBank s
    else okay [bank, index] (modifyEntry k j (fun _ => .empty) s)
  | _, _ => refuse .badArgument s

/-- COPY_BANK (R43). -/
def cmdCopyBank (s : State) : Reply :=
  let k := otherBank s.activeBank
  okay [bankCode k] (setBank k (mapTable (fun e => { e with hits := 0 }) (s.bank s.activeBank)) s)

/-- SWAP_BANKS (R44). -/
def cmdSwapBanks (s : State) : Reply :=
  let k := otherBank s.activeBank
  okay [bankCode k] { s with activeBank := k }

/-! ### Deferred exchanges -/

/-- A refusal of SUBMIT that counts REFUSED and sets its flag (R169). -/
def refuseCounted (r : ResultCode) (s : State) : Reply :=
  refuse r (raise .refused (modifyTrunkCounters (fun c => { c with refused := countUp c.refused }) s))

/-- The creation that ends an accepted SUBMIT: the request buffer is claimed and written, the record takes the lowest
FREE index under a new tag, and joins the tail of its branch's queue (R48, R52, R123). -/
def createDeferred (i : RecordIndex) (address : Byte) (data : List Byte) (e : RouteEntry) (s : State) : State :=
  let tag := issuedTag s
  let b := stationBranch e
  let s := claimBuffer (.request i) (mkFrame address data) s
  let s := modifyRecord i (fun _ => deferredRecord tag address (outgoing e address) b e.retries) s
  enqueueTail b i { s with tagCounter := nextTag tag }

/-- Steps 4 to 9 of SUBMIT, once an entry has been selected and its HITS counted (R169). -/
def submitThrough (address : Byte) (data : List Byte) (e : RouteEntry) (s : State) : Reply :=
  let b := stationBranch e
  if e.mode = .block then refuseCounted .routeBlocked s
  else if outgoing e address = voidAddress then refuse .badArgument s
  else if !inService s b then refuseCounted .branchOff s
  else if s.branches[b].queueLimit ≤ deferredCount s b then refuseCounted .queueFull s
  else if freeRecords s < 2 then refuseCounted .tableFull s
  else if !gateOpen s then refuseCounted .noBuffer s
  else
    match lowestFreeRecord s with
    | none => refuseCounted .tableFull s
    | some i => okay [issuedTag s, branchCode b] (createDeferred i address data e s)

/-- SUBMIT (R39, R169). -/
def cmdSubmit (address : Byte) (data : List Byte) (s : State) : Reply :=
  if !isStationAddress address || address == s.params.mgmtAddress then refuse .badArgument s
  else
    match lookup s address with
    | none => refuseCounted .noRoute s
    | some j => submitThrough address data (activeEntry s j) (hitEntry j s)

/-- The live DEFERRED record that a tag names: none when its CANCEL_PENDING is set (R49). -/
def recordOfTag (s : State) (tag : Byte) : Option RecordIndex :=
  lowestIndex fun i =>
    s.records[i].kind == some .deferred && s.records[i].state != .free && s.records[i].tag == some tag &&
      !s.records[i].cancelPending

/-- The DATA of a record's answer, none when ANSWER is absent (R68). -/
def answerData (s : State) (i : RecordIndex) : List Byte :=
  match heldFrame (.answer i) s with
  | some chars => frameData chars
  | none => []

/-- The piece of an answer from an offset: up to 48 bytes (R68, R138). -/
def pieceFrom (data : List Byte) (offset : Nat) : List Byte := (data.drop offset).take Config.maxPiece

/-- The bytes returned reach the end of the answer (R69). -/
def reachesEnd (data : List Byte) (offset : Nat) : Bool :=
  offset + (pieceFrom data offset).length == data.length

/-- OUTCOME as a result byte. -/
def outcomeOf (r : Record) : Byte := (r.outcome.map outcomeByte).getD 0

/-- COLLECT (R68, R69, R171). -/
def cmdCollect (tag offset : Byte) (s : State) : Reply :=
  match recordOfTag s tag with
  | none => refuse .noSuchTag s
  | some i =>
    let r := s.records[i]
    if r.state ≠ .ended then { result := .pending, data := [recordStateByte r, byteOfNat r.attempts], state := s }
    else
      let data := answerData s i
      if data.length < offset.toNat then refuse .badArgument s
      else
        let last := reachesEnd data offset.toNat
        okay ([outcomeOf r, byteOfNat r.attempts, byteOfNat data.length, boolByte last] ++
            pieceFrom data offset.toNat)
          (if last then freeRecord i s else s)

/-- COLLECT_NEXT (R70, R171). -/
def cmdCollectNext (offset : Byte) (s : State) : Reply :=
  if offset ≠ 0x00#8 then refuse .badArgument s
  else
    match s.completions with
    | [] => refuse .nothingReady s
    | i :: _ =>
      let r := s.records[i]
      let data := answerData s i
      let last := reachesEnd data 0
      okay ([r.tag.getD 0, r.trunkAddress.getD 0, outcomeOf r, byteOfNat r.attempts, byteOfNat data.length,
             boolByte last] ++ pieceFrom data 0)
        (if last then freeRecord i s else s)

/-- CANCEL (R71, R171). -/
def cmdCancel (tag : Byte) (s : State) : Reply :=
  match recordOfTag s tag with
  | none => refuse .noSuchTag s
  | some i =>
    match s.records[i].state with
    | .queued => okay [0x01#8] (freeRecord i s)
    | .onLine => okay [0x02#8] (modifyRecord i (fun r => { r with cancelPending := true }) s)
    | .ended | .free | .delivering => okay [0x03#8] (freeRecord i s)

/-- The live DEFERRED records in record index order (R172). -/
def liveDeferred (s : State) : List Record :=
  s.records.toList.filter fun r => r.kind == some .deferred && r.state != .free

/-- One item of LIST_PENDING: tag, state, branch (R172). -/
def pendingItem (r : Record) : List Byte := [r.tag.getD 0, recordStateByte r, (r.branch.map branchCode).getD 0]

/-- LIST_PENDING (R172). -/
def cmdListPending (s : State) : Reply :=
  okay (byteOfNat (liveDeferred s).length :: ((liveDeferred s).map pendingItem).flatten) s

/-! ### Poll slots -/

/-- Slot and its STATE: the results of the commands that change a slot (section 10.5). -/
def slotReply (k : SlotIndex) (s : State) : Reply :=
  okay [byteOfNat k.val, slotStateByte s.slots[k].state] s

/-- The third check of POLL_SET (R139). -/
def pollConfigValid (lineAddress : Byte) (period : Word) (template : List Byte) : Bool :=
  isStationAddress lineAddress && decide (10 ≤ period.toNat) && decide (period.toNat ≤ 60000) &&
    decide (template.length ≤ Config.maxTemplate)

/-- POLL_SET (R139). -/
def cmdPollSet (slot branch lineAddress : Byte) (period : Word) (template : List Byte) (s : State) : Reply :=
  match slotOf slot with
  | none => refuse .badArgument s
  | some k =>
    if s.slots[k].state.running then refuse .slotActive s
    else
      match branchOf branch with
      | none => refuse .badArgument s
      | some b =>
        if !pollConfigValid lineAddress period template then refuse .badArgument s
        else
          slotReply k (modifySlot k (fun x => { x with
            state := .stopped, countdown := 0
            config := some { branch := b, lineAddress := lineAddress, template := template, period := period.toNat } })
            (discardSnapshot k s))

/-- POLL_SET, unset form (R140). -/
def cmdPollSetUnset (slot : Byte) (s : State) : Reply :=
  match slotOf slot with
  | none => refuse .badArgument s
  | some k =>
    if s.slots[k].state.running then refuse .slotActive s
    else
      slotReply k (modifySlot k (fun x => { x with state := .unset, countdown := 0, config := none })
        (discardSnapshot k s))

/-- POLL_START (R141). -/
def cmdPollStart (slot : Byte) (delay : Word) (s : State) : Reply :=
  match slotOf slot with
  | none => refuse .badArgument s
  | some k =>
    match s.slots[k].state, s.slots[k].config with
    | .unset, _ => refuse .slotUnset s
    | .stopped, some c =>
      if c.period < delay.toNat then refuse .badArgument s
      else
        let t := modifySlot k (fun x => { x with state := .armed, countdown := delay.toNat }) s
        slotReply k (if delay = 0 then slotExpire k t else t)
    | .stopped, none => refuse .slotUnset s
    | .armed, _ | .due, _ | .onLine, _ | .stopping, _ => refuse .slotActive s

/-- What POLL_STOP does to a slot by its STATE; a withdrawn due poll may leave its branch with no work (R80, R142). -/
def stopSlot (k : SlotIndex) (s : State) : State :=
  match s.slots[k].state with
  | .armed | .due => endIdleStalls (modifySlot k (fun x => { x with state := .stopped, countdown := 0 }) s)
  | .onLine => modifySlot k (fun x => { x with state := .stopping }) s
  | .unset | .stopped | .stopping => s

/-- POLL_STOP (R142). -/
def cmdPollStop (slot : Byte) (s : State) : Reply :=
  match slotOf slot with
  | none => refuse .badArgument s
  | some k => if s.slots[k].state = .unset then refuse .slotUnset s else slotReply k (stopSlot k s)

/-- The slot's snapshot has an answer (R136). -/
def hasAnswer (s : State) (k : SlotIndex) : Bool := (heldFrame (.snapshot k) s).isSome

/-- POLL_READ (R143). -/
def cmdPollRead (slot : Byte) (s : State) : Reply :=
  match slotOf slot with
  | none => refuse .badArgument s
  | some k =>
    let x := s.slots[k]
    match x.config with
    | none => okay (slot :: slotStateByte x.state :: List.replicate 12 0x00#8) s
    | some c =>
      okay ([slot, slotStateByte x.state, branchCode c.branch, c.lineAddress] ++ wordBytes c.period ++
        wordBytes x.countdown ++ wordBytes x.overruns ++
        [byteOfNat x.misses, x.seq, boolByte (hasAnswer s k), byteOfNat c.template.length] ++ c.template) s

/-- READ_SNAPSHOT (R138). -/
def cmdReadSnapshot (slot offset : Byte) (s : State) : Reply :=
  match slotOf slot with
  | none => refuse .badArgument s
  | some k =>
    let x := s.slots[k]
    if x.state = .unset then refuse .slotUnset s
    else
      match heldFrame (.snapshot k) s with
      | none => { result := .nothingReady, data := [x.seq, byteOfNat x.misses], state := s }
      | some chars =>
        let data := frameData chars
        if data.length < offset.toNat then refuse .badArgument s
        else
          okay ([x.seq] ++ wordBytes (x.age.getD 0) ++ [byteOfNat x.misses, byteOfNat data.length] ++
            pieceFrom data offset.toNat) s

/-! ### Events and counters -/

/-- The free count once the response has been built: the previous last-response buffer counts as free (R128). -/
def freeCountAnswered (s : State) : Nat := freeCount (returnBuffer .lastResponse s)

/-- READ_EVENTS (R152). -/
def cmdReadEvents (s : State) : Reply :=
  okay (bytesOfWord (s.flags.setWidth 16) ++ bytesOfWord (s.params.eventEnable.setWidth 16) ++
    [byteOfNat (freeCountAnswered s), byteOfNat (freeRecords s), byteOfNat s.completions.length,
     bankCode s.activeBank]) s

/-- CLEAR_EVENTS (R153, R182). -/
def cmdClearEvents (mask : Word) (s : State) : Reply :=
  if 4096 ≤ mask.toNat then refuse .badArgument s
  else
    let flags := s.flags &&& ~~~(mask.setWidth 12)
    okay (bytesOfWord (flags.setWidth 16)) { s with flags := flags }

/-- Every counter of a port's group set to zero (R155). -/
def clearGroup (p : Port) (s : State) : State :=
  match p with
  | .trunk => modifyTrunkCounters (fun _ => .zero) (modifyPortCounters .trunk (fun _ => .zero) s)
  | .branch b => modifyBranchCounters b (fun _ => .zero) (modifyPortCounters (.branch b) (fun _ => .zero) s)

/-- Every counter of a port's group, in order (section 10.5). -/
def groupCounters (p : Port) (s : State) : List Nat :=
  match p with
  | .trunk => trunkCounterList s.trunk.port.counters s.trunk.counters
  | .branch b => branchCounterList s.branches[b].port.counters s.branches[b].counters

/-- READ_COUNTERS (R155). -/
def cmdReadCounters (port clear : Byte) (s : State) : Reply :=
  match portOf port, clearOptionOf clear with
  | some p, some c => okay (port :: counterBytes (groupCounters p s)) (if c then clearGroup p s else s)
  | _, _ => refuse .badArgument s

/-! ### Branch control and restart -/

/-- The items of BRANCH_CONTROL, as they stand once the action is complete (R91, R175). -/
def branchItems (b : Branch) (s : State) : List Byte :=
  let x := s.branches[b]
  [branchCode b, statusByte x.status, boolByte x.stalled, byteOfNat x.contentionRun, byteOfNat x.queue.length,
   byteOfNat (deferredCount s b), (x.onLine.map fun i => byteOfNat i.val).getD 0xFF#8]

/-- BRANCH_CONTROL (R91, R175): action 00h QUERY, 01h ENABLE, 02h DISABLE. -/
def cmdBranchControl (branch action : Byte) (s : State) : Reply :=
  match branchOf branch with
  | none => refuse .badArgument s
  | some b =>
    if action = 0x00#8 then okay (branchItems b s) s
    else if action = 0x01#8 then let t := enableBranch b s; okay (branchItems b t) t
    else if action = 0x02#8 then let t := disableBranch b s; okay (branchItems b t) t
    else refuse .badArgument s

/-- What RESTART makes of a branch: OFF stays OFF; every other state is aborted and enters IDLE under its pending
rate, which leaves a receiver whose rate was applied to resynchronise; work, timers, marker and counters are cleared
(R74, R98). -/
def restartBranch (x : BranchState) : BranchState :=
  let cleared := { x with
    queue := [], lastServed := .poll, stalled := false, contentionRun := 0, onLine := none, windowTimer := none
    quarantineTimer := none, counters := .zero
    port := { x.port with counters := .zero } }
  if x.status = .off then cleared
  else
    let aborted := { cleared.port with tx := .quiet, rx := .hunt }
    { cleared with
      status := .idle
      pendingRate := none
      port := match x.pendingRate with
        | none => aborted
        | some code => { aborted with rate := code, synchronised := false, charInProgress := false } }

/-- Every buffer is returned but the one that will hold the response and the previous last response, which is returned
when the response is built (R129, R178). -/
def restartBuffer (c : Buffer) : Buffer :=
  if c.holder = .trunkAssembly ∨ c.holder = .lastResponse then c else .empty

/-- The clearing of RESTART (R178): flags, parameters, route banks and slot configurations are kept (R177). -/
def restartPart (s : State) : State :=
  { s with
    branches := mapTable restartBranch s.branches
    records := Vector.replicate Config.recordCount .free
    tagCounter := 1
    completions := []
    slots := mapTable restartSlot s.slots
    buffers := mapTable restartBuffer s.buffers
    trunk := { s.trunk with
      port := { s.trunk.port with tx := .quiet, rx := .hunt, counters := .zero }
      owed := .nothing
      counters := .zero } }

/-- RESTART (R177, R178, R179). -/
def cmdRestart (s : State) : Reply := okay [] (restartPart s)

end Sys2Proof.Machine
end

