-- ==== Sys2Proof/Machine/Engine.lean ====
section
/-!
DEFINITION. The management engine: envelope checks, execution, the response, replay (sections 9.1 and 10.2), and the
status summary (R150, R182).
-/

namespace Sys2Proof.Machine

/-- Some branch is in a given state. -/
def someBranch (s : State) (x : BranchStatus) : Bool := s.branches.toList.any fun b => b.status == x

/-- A yes-or-no item at its bit of the summary byte. -/
def summaryBit (n : Nat) (yes : Bool) : Byte := if yes then 1#8 <<< n else 0

/-- The status summary, judged on the part as it stands (R150, R151, R182). -/
def statusSummary (s : State) : Byte :=
  summaryBit 0 (attention s) ||| summaryBit 1 (s.activeBank == .b) ||| summaryBit 2 (!s.completions.isEmpty) |||
    summaryBit 3 (someBranch s .fault) ||| summaryBit 4 (someBranch s .off) |||
    summaryBit 5 (decide (freeCount s < s.params.bufLowMark))

/-- The command's buffer becomes the last-response memory and the previous one is returned (R125, R161). -/
def takeResponseBuffer (s : State) : State := handOver .trunkAssembly .lastResponse (returnBuffer .lastResponse s)

/-- The DATA of a response, its summary judged on the part given (R161). -/
def responseData (code seq : Byte) (r : ResultCode) (data : List Byte) (s : State) : List Byte :=
  [code, seq, resultByte r, statusSummary s] ++ data

/-- The response is built in the command's buffer after the execution is complete; last code and last sequence are the
command's, and the owed reply becomes RESPONSE (R157, R160, R161). -/
def buildResponse (code seq : Byte) (reply : Reply) : State :=
  let s := takeResponseBuffer reply.state
  let chars := mkFrame s.params.mgmtAddress (responseData code seq reply.result reply.data s)
  oweReply .response .lastResponse
    { writeBuffer .lastResponse chars s with lastCode := some code, lastSeq := some seq }

/-- Check 2 and the arguments of a command of the set (R160, R162): any other argument length is BAD_LENGTH. -/
def runNamed (c : CommandCode) (args : List Byte) (s : State) : Reply :=
  match c with
  | .identify => match args with
    | [] => cmdIdentify s
    | _ => refuse .badLength s
  | .getParam => match args with
    | [i] => cmdGetParam i s
    | _ => refuse .badLength s
  | .setParam => match args with
    | [i, h, l] => cmdSetParam i (wordOfBytes h l) s
    | _ => refuse .badLength s
  | .readEntry => match args with
    | [k, i, c] => cmdReadEntry k i c s
    | _ => refuse .badLength s
  | .writeEntry => match args with
    | k :: i :: entry => if entry.length = 9 then cmdWriteEntry k i entry s else refuse .badLength s
    | _ => refuse .badLength s
  | .clearEntry => match args with
    | [k, i] => cmdClearEntry k i s
    | _ => refuse .badLength s
  | .copyBank => match args with
    | [] => cmdCopyBank s
    | _ => refuse .badLength s
  | .swapBanks => match args with
    | [] => cmdSwapBanks s
    | _ => refuse .badLength s
  | .submit => match args with
    | a :: data => cmdSubmit a data s
    | [] => refuse .badLength s
  | .collect => match args with
    | [t, o] => cmdCollect t o s
    | _ => refuse .badLength s
  | .collectNext => match args with
    | [o] => cmdCollectNext o s
    | _ => refuse .badLength s
  | .cancel => match args with
    | [t] => cmdCancel t s
    | _ => refuse .badLength s
  | .listPending => match args with
    | [] => cmdListPending s
    | _ => refuse .badLength s
  | .pollSet => match args with
    | [k] => cmdPollSetUnset k s
    | k :: b :: a :: h :: l :: template => cmdPollSet k b a (wordOfBytes h l) template s
    | _ => refuse .badLength s
  | .pollStart => match args with
    | [k, h, l] => cmdPollStart k (wordOfBytes h l) s
    | _ => refuse .badLength s
  | .pollStop => match args with
    | [k] => cmdPollStop k s
    | _ => refuse .badLength s
  | .pollRead => match args with
    | [k] => cmdPollRead k s
    | _ => refuse .badLength s
  | .readSnapshot => match args with
    | [k, o] => cmdReadSnapshot k o s
    | _ => refuse .badLength s
  | .readEvents => match args with
    | [] => cmdReadEvents s
    | _ => refuse .badLength s
  | .clearEvents => match args with
    | [h, l] => cmdClearEvents (wordOfBytes h l) s
    | _ => refuse .badLength s
  | .readCounters => match args with
    | [p, c] => cmdReadCounters p c s
    | _ => refuse .badLength s
  | .branchControl => match args with
    | [b, a] => cmdBranchControl b a s
    | _ => refuse .badLength s
  | .restart => match args with
    | [] => cmdRestart s
    | _ => refuse .badLength s

/-- Execution of a command that is not replayed: check 1 is the code (R160). -/
def runCommand (code : Byte) (args : List Byte) (s : State) : Reply :=
  match commandOf code with
  | none => refuse .badCommand s
  | some c => runNamed c args s

/-- The three conditions of replay (R159). -/
def isReplay (s : State) (code seq : Byte) : Bool :=
  s.lastCode == some code && s.lastSeq == some seq && seq != 0x00#8

/-- A command answered by replay: its buffer is returned, REPLAYS counted, and the stored response owed again (R159). -/
def replayLast (s : State) : State :=
  oweReply .response .lastResponse
    (modifyTrunkCounters (fun c => { c with replays := countUp c.replays }) (returnBuffer .trunkAssembly s))

/-- A management frame with COUNT 0 or 1 (R158). -/
def discardMalformed (s : State) : State :=
  modifyTrunkCounters (fun c => { c with mgmtMalformed := countUp c.mgmtMalformed }) (returnBuffer .trunkAssembly s)

/-- A good stored frame for MGMT_ADDRESS reaches the engine with its DATA (R158, R159, R160). -/
def manage (data : List Byte) (s : State) : State :=
  match data with
  | code :: seq :: args =>
    if isReplay s code seq then replayLast s else buildResponse code seq (runCommand code args s)
  | _ => discardMalformed s

end Sys2Proof.Machine
end

