-- ==== Sys2Proof/Machine/Classifier.lean ====
section
/-!
DEFINITION. The classification of good trunk frames (section 2.2), and what the completion of one comes to (R104,
R106, R118).
-/

namespace Sys2Proof.Machine

/-- A frame is discarded: its buffer is returned, UNROUTED counted and flagged (R32, R34). -/
def discardUnrouted (s : State) : State :=
  raise .unrouted
    (modifyTrunkCounters (fun c => { c with unrouted := countUp c.unrouted }) (returnBuffer .trunkAssembly s))

/-- REFUSED is counted (R33, R36, R37). -/
def countRefused (s : State) : State := modifyTrunkCounters (fun c => { c with refused := countUp c.refused }) s

/-- A group frame or all-call: refused quietly when no branch of its set is in service, refused with the flag when no
record is FREE, else a GROUP record with the frame's buffer as REQUEST (R33, R37, R38). -/
def acceptGroup (lineAddress : Byte) (x : BranchSet) (s : State) : State :=
  let pendingSet := inServiceSet s x
  if pendingSet = 0 then countRefused (returnBuffer .trunkAssembly s)
  else
    match lowestFreeRecord s with
    | none => raise .refused (countRefused (returnBuffer .trunkAssembly s))
    | some i =>
      let s := modifyRecord i (fun _ => groupRecord lineAddress pendingSet) (handOver .trunkAssembly (.request i) s)
      enqueueGroup pendingSet i s

/-- A station frame that R35 would accept is refused: counted and flagged, and with NOTIFY its buffer becomes a proxy
status frame owed to the master (R36). -/
def refuseTransparent (a reason : Byte) (notify : Bool) (s : State) : State :=
  let s := raise .refused (countRefused s)
  if notify then oweProxy .trunkAssembly a reason s else returnBuffer .trunkAssembly s

/-- A station frame that selected a PASS entry (R35, R36). -/
def acceptTransparent (a : Byte) (e : RouteEntry) (s : State) : State :=
  let b := stationBranch e
  if !inService s b then refuseTransparent a (outcomeByte .branchOff) e.notify s
  else
    match lowestFreeRecord s with
    | none => refuseTransparent a reasonBusy e.notify s
    | some i =>
      let s := modifyRecord i (fun _ => transparentRecord a (outgoing e a) b e.retries e.notify)
        (handOver .trunkAssembly (.request i) s)
      setOwed (.pendingAnswer i) (enqueueHead b i s)

/-- A station or group frame that is looked up (R34, R35, R37). -/
def classifyRouted (a : Byte) (s : State) : State :=
  match lookup s a with
  | none => discardUnrouted s
  | some j =>
    let e := activeEntry s j
    let s := hitEntry j s
    if e.mode ≠ .pass then discardUnrouted s
    else if outgoing e a = voidAddress then discardUnrouted s
    else
      match e.kind with
      | .station => acceptTransparent a e s
      | .group => acceptGroup (outgoing e a) e.branches s

/-- The classification of a good stored frame, on its ADDRESS (section 2.2). -/
def classify (address : Byte) (data : List Byte) (s : State) : State :=
  if address = s.params.mgmtAddress then manage data s
  else if address = voidAddress then discardUnrouted s
  else if address = allCall then acceptGroup allCall everyBranch s
  else classifyRouted address s

/-- A good trunk frame is reported to the trunk controller: it supersedes, and, if it was stored, is classified
(R103, R104, R106). -/
def trunkFrameGood (stored : Bool) (address : Byte) (data : List Byte) (s : State) : State :=
  if stored then classify address data (supersede s) else supersede s

end Sys2Proof.Machine
end

