-- ==== Sys2Proof/Machine/LinePort.lean ====
section
/-!
DEFINITION. The receive side of the ports, the echo check, and the reports they hand to the controllers (chapter 1). The
meanings of the line-port rows are made of these.
-/

namespace Sys2Proof.Machine

/-! ### A frame begins -/

/-- A frame begins in the assembly with one character. -/
def openFrame (p : Port) (stored : Bool) (c : Byte) (s : State) : State :=
  setRx p (.assemble { stored := stored, got := [c] }) s

/-- The trunk receive claim: any free buffer will do; refused, the frame is followed, BUF_LOST counted and BUF_EXHAUSTED
set (R14, R121). -/
def trunkClaim (c : Byte) (s : State) : State :=
  if freeCount s = 0 then
    openFrame .trunk false c
      (raise .bufExhausted (modifyTrunkCounters (fun k => { k with bufLost := countUp k.bufLost }) s))
  else openFrame .trunk true c (claimBuffer .trunkAssembly [c] s)

/-- An address character starts a frame on the trunk; inside a stored frame it truncates that one and the buffer is
kept (R8, R10, R14, R121). -/
def trunkFrameStarts (c : Byte) (s : State) : State :=
  match s.trunk.port.rx with
  | .assemble a =>
    if a.stored then openFrame .trunk true c (writeBuffer .trunkAssembly [c] (countTruncated .trunk s))
    else trunkClaim c (countTruncated .trunk s)
  | .hunt | .discard => trunkClaim c s

/-- The frame that an address character truncates on a branch is counted (R10, R13). -/
def branchTruncates (b : Branch) (s : State) : State :=
  match s.branches[b].port.rx with
  | .assemble _ => countTruncated (.branch b) s
  | .hunt | .discard => s

/-- The answer begins, or begins again, in the branch's answer buffer (R15, R86, R87). -/
def answerStarts (b : Branch) (c : Byte) (s : State) : State :=
  let s := modifyBranch b (fun x => { x with status := .recv, windowTimer := none }) s
  openFrame (.branch b) true c (writeBuffer (.branchAnswer b) [c] s)

/-- An unsolicited address character is counted and flagged (R77). -/
def unsolicited (b : Branch) (s : State) : State :=
  raise .unsolicited (modifyBranchCounters b (fun c => { c with unsolicited := countUp c.unsolicited }) s)

/-- An address character starts a frame on a branch: unsolicited in IDLE and LEAD, the answer in AWAIT, the answer anew
in RECV, only followed in FAULT (R15, R77, R86, R87). -/
def branchFrameStarts (b : Branch) (c : Byte) (s : State) : State :=
  let s := branchTruncates b s
  match s.branches[b].status with
  | .idle | .lead => unsolicited b (openFrame (.branch b) false c s)
  | .await | .recv => answerStarts b c s
  | .off | .send | .fault => openFrame (.branch b) false c s

/-- An address character is received outside SEND (R8, R10). -/
def receiveAddress (p : Port) (c : Byte) (s : State) : State :=
  match p with
  | .trunk => trunkFrameStarts c (characterEnds p s)
  | .branch b => branchFrameStarts b c (characterEnds p s)

/-! ### A frame ends -/

/-- The branch learns that its stored answer has failed (R87); a frame it only follows is nothing to it. -/
def reportFailure (p : Port) (stored : Bool) (s : State) : State :=
  match p with
  | .trunk => s
  | .branch b => if stored && s.branches[b].status == .recv then attemptEnds b .badAnswer s else s

/-- The frame open in the assembly was being stored. -/
def storing (p : Port) (s : State) : Bool :=
  match (s.port p).rx with
  | .assemble a => a.stored
  | .hunt | .discard => false

/-- An open frame is cut short on its line: truncated, and reported (R13, R87). -/
def cutShort (p : Port) (s : State) : State := reportFailure p (storing p s) (truncateOpen p s)

/-- A COUNT above 60: the frame is malformed, counted as truncated, its buffer returned, and the rest of it passed over
(R11). -/
def malformedFrame (p : Port) (stored : Bool) (s : State) : State :=
  reportFailure p stored (returnAssembly p (countTruncated p (setRx p .discard s)))

/-- FRAMES_RX_GOOD is counted (R12). -/
def countGood (p : Port) (s : State) : State :=
  modifyPortCounters p (fun c => { c with framesRxGood := countUp c.framesRxGood }) s

/-- A complete frame whose CHECK does not match (R12, R14, R87). -/
def checkError (p : Port) (stored : Bool) (s : State) : State :=
  let s := raise .lineError (modifyPortCounters p (fun c => { c with checkErrors := countUp c.checkErrors }) s)
  reportFailure p stored (returnAssembly p s)

/-- A good frame is handed to its controller (R12, R16). -/
def goodFrame (p : Port) (stored : Bool) (chars : List Byte) (s : State) : State :=
  match p with
  | .trunk => trunkFrameGood stored (frameAddress chars) (frameData chars) (countGood p s)
  | .branch b =>
    if stored && s.branches[b].status == .recv then answerGood b (frameAddress chars) (countGood p s)
    else countGood p s

/-- A frame has all its characters: the receive side returns to HUNT and the frame is judged (R8, R12). -/
def frameCompletes (p : Port) (stored : Bool) (chars : List Byte) (s : State) : State :=
  let s := setRx p .hunt s
  if checkMatches chars then goodFrame p stored chars s else checkError p stored s

/-- The holder in which a port's stored frame is kept (R14, R15). -/
def assemblyHolder : Port → Holder
  | .trunk => .trunkAssembly
  | .branch b => .branchAnswer b

/-- The characters of a stored frame are written into its buffer (R14, R15). -/
def storeChars (p : Port) (stored : Bool) (chars : List Byte) (s : State) : State :=
  if stored then writeBuffer (assemblyHolder p) chars s else s

/-- A character takes the next position of the open frame (R8, R11). -/
def takePosition (p : Port) (a : Assembly) (c : Byte) (s : State) : State :=
  let chars := a.got ++ [c]
  let s := storeChars p a.stored chars s
  if chars.length = 2 ∧ Config.maxData < c.toNat then malformedFrame p a.stored s
  else if frameComplete chars then frameCompletes p a.stored chars s
  else setRx p (.assemble { a with got := chars }) s

/-- A data character in HUNT is reported as outside a frame: only a branch in AWAIT acts on it (R8, R85). -/
def dataOutside (p : Port) (s : State) : State :=
  match p with
  | .trunk => s
  | .branch b => if s.branches[b].status = .await then raise .lineError s else s

/-- A data character is received outside SEND (R8, R11). -/
def receiveData (p : Port) (c : Byte) (s : State) : State :=
  let s := characterEnds p s
  match (s.port p).rx with
  | .hunt => dataOutside p s
  | .discard => s
  | .assemble a => takePosition p a c s

/-! ### Echo -/

/-- The controller is told of a clean completion (R20, R83, R109). -/
def sentClean (p : Port) (s : State) : State :=
  match p with
  | .trunk => trunkSent s
  | .branch b => sendCompleted b s

/-- The controller is told of contention (R19, R84, R110). -/
def sentContended (p : Port) (s : State) : State :=
  match p with
  | .trunk => trunkContended s
  | .branch b => sendContended b s

/-- A character heard in SEND is compared with the character sent in its slot: equal, the transmit position advances and
the last one completes the frame; different, the port is in contention (R19, R20). -/
def echoCharacter (p : Port) (f : TxFrame) (echoed : Nat) (c : Byte) (mark : Bool) (s : State) : State :=
  let chars := mkFrame f.address f.data
  if chars[echoed]? = some c ∧ mark = (echoed == 0) then
    if echoed + 1 = chars.length then sentClean p s
    else modifyPort p (fun q => { q with tx := .send f (echoed + 1), lineRest := 0, charInProgress := false }) s
  else sentContended p s

/-- A character is heard: echo in SEND, else received by a synchronised receiver (R3, R18, R19). -/
def hearCharacter (p : Port) (c : Byte) (mark : Bool) (s : State) : State :=
  if hears s p then
    match (s.port p).tx with
    | .send f k => echoCharacter p f k c mark s
    | .quiet | .lead _ =>
      if receives s p then (if mark then receiveAddress p c s else receiveData p c s) else s
  else s

/-! ### Errors, rest and turnaround -/

/-- A character ends with its stop bit at space: contention in SEND, else LINE_ERROR, the character discarded and an
open frame truncated (R3, R13, R19). -/
def hearFramingError (p : Port) (s : State) : State :=
  if hears s p then
    if (s.port p).tx.sending then sentContended p s
    else if receives s p then cutShort p (raise .lineError (characterEnds p s))
    else s
  else s

/-- A break is reported once: LINE_ERROR is set; the framing error of its first character, if it has not been taken, is
contention in SEND and truncates an open frame (R4). -/
def hearBreak (p : Port) (s : State) : State :=
  if hears s p && !(s.port p).inBreak then
    let s := if (s.port p).tx.sending then sentContended p s else s
    let s := modifyPort p (fun q => { q with inBreak := true, lineRest := 0, charInProgress := false }) s
    cutShort p (raise .lineError s)
  else s

/-- The line returns to mark after a break: the receiver must resynchronise (R3, R4, R5). -/
def hearBreakEnd (p : Port) (s : State) : State :=
  if hears s p && (s.port p).inBreak then
    modifyPort p (fun q => { q with inBreak := false, synchronised := false, lineRest := 0 }) s
  else s

/-- A start bit is taken: the character timeout stops, and line rest time is held at zero while the character is
received, whether another party or the port itself sends it (R3, R5, R9, R19); a false start is dropped without effect
(R3). -/
def hearStartBit (p : Port) (confirmed : Bool) (s : State) : State :=
  if receives s p && confirmed then
    modifyPort p (fun q => { q with charInProgress := true, lineRest := 0 }) s
  else s

/-- The line has been at mark for one whole ct (R3). -/
def synchronise (p : Port) (s : State) : State :=
  if hears s p && !(s.port p).inBreak && !(s.port p).synchronised then
    modifyPort p (fun q => { q with
      synchronised := true, lineRest := max q.lineRest (characterClocks q.rate) }) s
  else s

/-- Line rest time exceeds CHAR_TIMEOUT inside an open frame or in DISCARD (R9, R11). -/
def timeoutCharacter (p : Port) (s : State) : State :=
  if hears s p && !(s.port p).charInProgress && (s.port p).rx != .hunt then
    cutShort p (modifyPort p (fun q => { q with
      lineRest := max q.lineRest (q.gapTimeout * characterClocks q.rate + 1) }) s)
  else s

/-- The branch state follows its port into SEND (R82). -/
def followSend (p : Port) (s : State) : State :=
  match p with
  | .trunk => s
  | .branch b => setStatus b .send s

/-- The guard is met in LEAD: the receiver is synchronised, no character is in progress and the line is not in a break
(R17). An open frame is truncated, DE is enabled and the port drives its first start bit at once (R18, R82, R108), which
holds line rest time at zero (R5). The count of the guard in force (`guardInUse`) is what the row reports as met, judged
outside the model (log entries 4 and 6). -/
def meetGuard (p : Port) (s : State) : State :=
  match (s.port p).tx with
  | .lead f =>
    if receives s p && !(s.port p).charInProgress then
      followSend p (modifyPort p (fun q => { q with tx := .send f 0, lineRest := 0 }) (truncateOpen p s))
    else s
  | .quiet | .send _ _ => s

/-! ### Whole frames -/

/-- What stands in the assembly is the beginning of this frame. -/
def opensWith (p : Port) (chars : List Byte) (s : State) : Bool :=
  match (s.port p).rx with
  | .assemble a => a.got.isPrefixOf chars && decide (a.got.length < chars.length)
  | .hunt | .discard => false

/-- A whole good frame is heard on the trunk, from its first character or from where the open frame stands, to its
completion and all that R118 takes together with it. Nothing of the kind comes about while the part is in reset, the
receiver is not synchronised, or the port is in SEND. -/
def hearTrunkFrame (address : Byte) (data : List Byte) (s : State) : State :=
  if receives s .trunk && !s.trunk.port.tx.sending then
    let chars := mkFrame address data
    let s := if opensWith .trunk chars s then s else receiveAddress .trunk address s
    let stored := storing .trunk s
    let s := storeChars .trunk stored chars (characterEnds .trunk s)
    goodFrame .trunk stored chars (setRx .trunk .hunt s)
  else s

/-- The stored answer frame of a branch in RECV ends as reported (R87), where what has come of it agrees with the
report. -/
def endAnswer (b : Branch) (report : AnswerReport) (s : State) : State :=
  if receives s (.branch b) && s.branches[b].status == .recv then
    match s.branches[b].port.rx with
    | .hunt | .discard => s
    | .assemble a =>
      match report with
      | .complete data check =>
        let chars := frameBody (frameAddress a.got) data ++ bytesOfWord check
        if opensWith (.branch b) chars s then
          frameCompletes (.branch b) a.stored chars
            (storeChars (.branch b) a.stored chars (characterEnds (.branch b) s))
        else s
      | .truncated => cutShort (.branch b) (modifyPort (.branch b) (fun q => { q with charInProgress := false }) s)
      | .malformed count =>
        if a.got.length = 1 then takePosition (.branch b) a count (characterEnds (.branch b) s) else s
  else s

end Sys2Proof.Machine
end

