-- ==== Sys2Proof/Machine/Timebase.lean ====
section
/-!
DEFINITION. The 1 ms timebase (section 5.2 of the scope file) and what the part does when no command waits: the
arbitrations that are due, then one millisecond (DESIGN CHOICE, log entry 5).
-/

namespace Sys2Proof.Machine

/-- A running timer counts one millisecond. -/
def Timer.advance (t : Timer) : Timer := { t with count := t.count + 1 }

/-- A timer has reached the value at which it expires. -/
def timerDone : Option Timer → Bool
  | none => false
  | some t => decide (t.limit ≤ t.count)

/-- One millisecond of a branch's response window and quarantine timers (R83, R94). -/
def branchMillisecond (x : BranchState) : BranchState :=
  { x with windowTimer := x.windowTimer.map Timer.advance, quarantineTimer := x.quarantineTimer.map Timer.advance }

/-- One millisecond of a record's HOLD timer (R66). -/
def recordMillisecond (r : Record) : Record := { r with hold := r.hold.map Timer.advance }

/-- One millisecond of a slot: a running slot's countdown falls (R132), and AGE rises to 65535 (R137). -/
def slotMillisecond (x : Slot) : Slot :=
  { x with
    countdown := if x.state.running then x.countdown - 1 else x.countdown
    age := x.age.map countUp }

/-- Every count of milliseconds advances by one. -/
def countMillisecond (s : State) : State :=
  { s with
    branches := mapTable branchMillisecond s.branches
    records := mapTable recordMillisecond s.records
    slots := mapTable slotMillisecond s.slots }

/-- A branch's timers that are done expire (R86, R95). -/
def branchExpiries (s : State) (b : Branch) : State :=
  let s := if timerDone s.branches[b].windowTimer then windowExpire b s else s
  if timerDone s.branches[b].quarantineTimer then quarantineExpire b s else s

/-- A record's HOLD timer that is done expires (R67). -/
def recordExpiry (s : State) (i : RecordIndex) : State := if timerDone s.records[i].hold then holdExpire i s else s

/-- A running slot whose countdown has reached 0 expires (R132). -/
def slotExpiry (s : State) (k : SlotIndex) : State :=
  if s.slots[k].state.running && s.slots[k].countdown == 0 then slotExpire k s else s

/-- One millisecond of the timebase: the counts advance, and what is done expires, branches first, then records, then
slots, each in number order (log entry 5). -/
def millisecond (s : State) : State :=
  let s := (List.finRange Config.branchCount).foldl branchExpiries (countMillisecond s)
  let s := (List.finRange Config.recordCount).foldl recordExpiry s
  (List.finRange Config.slotCount).foldl slotExpiry s

/-- The arbitrations of the four branches, in number order (R78; R127 names no winner among them). -/
def arbitrateAll (s : State) : State := (List.finRange Config.branchCount).foldl (fun s b => arbitrate b s) s

/-- What step does when no command waits. Held in reset, nothing happens (R185). -/
def idleStep (s : State) : State := if s.inReset then s else millisecond (arbitrateAll s)

end Sys2Proof.Machine
end

