-- ==== Sys2Proof/Machine/LineRows.lean ====
section
/-!
DEFINITION. The meanings of the line-port rows and of TRUNK_GOOD_FRAME.
-/

namespace Sys2Proof.Machine

/-- RECEIVER_SYNCHRONISED (R3). -/
def execReceiverSynchronised (p : Port) (s : State) : Host.Outcome State Fault Refusal := .next (synchronise p s)

/-- ADDRESS_CHARACTER (R8, R10; in SEND an echo, R19). -/
def execAddressCharacter (p : Port) (c : Byte) (s : State) : Host.Outcome State Fault Refusal :=
  .next (hearCharacter p c true s)

/-- DATA_CHARACTER (R8, R11, R12; in SEND an echo, R19). -/
def execDataCharacter (p : Port) (c : Byte) (s : State) : Host.Outcome State Fault Refusal :=
  .next (hearCharacter p c false s)

/-- FRAMING_ERROR (R3; in SEND contention, R19). -/
def execFramingError (p : Port) (s : State) : Host.Outcome State Fault Refusal := .next (hearFramingError p s)

/-- BREAK (R4). -/
def execLineBreak (p : Port) (s : State) : Host.Outcome State Fault Refusal := .next (hearBreak p s)

/-- CHARACTER_TIMEOUT (R9, R11). -/
def execCharacterTimeout (p : Port) (s : State) : Host.Outcome State Fault Refusal := .next (timeoutCharacter p s)

/-- GUARD_MET (R17, R18, R82, R108). -/
def execGuardMet (p : Port) (s : State) : Host.Outcome State Fault Refusal := .next (meetGuard p s)

/-- START_BIT (R3, R5, R9). -/
def execStartBit (p : Port) (confirmed : Bool) (s : State) : Host.Outcome State Fault Refusal :=
  .next (hearStartBit p confirmed s)

/-- BREAK_END (R4). -/
def execBreakEnd (p : Port) (s : State) : Host.Outcome State Fault Refusal := .next (hearBreakEnd p s)

/-- A frame on the trunk whose DATA a frame can carry. -/
def trunkFrame (address : Byte) (data : List Byte) (s : State) : Host.Outcome State Fault Refusal :=
  if data.length ≤ Config.maxData then .next (hearTrunkFrame address data s) else .refused .notAFrame

/-- TRUNK_GOOD_FRAME (R104 and section 2.2). -/
def execTrunkGoodFrame (address : Byte) (data : List Byte) (s : State) : Host.Outcome State Fault Refusal :=
  trunkFrame address data s

end Sys2Proof.Machine
end

