-- ==== Sys2Proof/Machine/BranchRows.lean ====
section
/-!
DEFINITION. The meanings of the branch, table, scheduler and trunk transmit rows. An event that the state does not admit
does not happen (R180; log entry 1).
-/

namespace Sys2Proof.Machine

/-- What happens only while the part is not held in reset (R185). -/
def outsideReset (f : State → State) (s : State) : Host.Outcome State Fault Refusal :=
  .next (if s.inReset then s else f s)

/-- ARBITRATION (R78, R79, R80, R81). -/
def execArbitration (b : Branch) (s : State) : Host.Outcome State Fault Refusal := outsideReset (arbitrate b) s

/-- BRANCH_SEND_COMPLETE: the rest of the frame's echo compares equal (R20, R83). -/
def execBranchSendComplete (b : Branch) (s : State) : Host.Outcome State Fault Refusal :=
  outsideReset (fun s => if s.branches[b].port.tx.sending then sendCompleted b s else s) s

/-- BRANCH_CONTENTION (R19, R84). -/
def execBranchContention (b : Branch) (s : State) : Host.Outcome State Fault Refusal :=
  outsideReset (fun s => if s.branches[b].port.tx.sending then sendContended b s else s) s

/-- RESPONSE_WINDOW_EXPIRY (R86). -/
def execResponseWindowExpiry (b : Branch) (s : State) : Host.Outcome State Fault Refusal :=
  outsideReset (windowExpire b) s

/-- ANSWER_END (R87). -/
def execAnswerEnd (b : Branch) (report : AnswerReport) (s : State) : Host.Outcome State Fault Refusal :=
  if report.wellFormed then .next (endAnswer b report s) else .refused .notAFrame

/-- QUARANTINE_EXPIRY (R95). -/
def execQuarantineExpiry (b : Branch) (s : State) : Host.Outcome State Fault Refusal :=
  outsideReset (quarantineExpire b) s

/-- HOLD_EXPIRY (R67). -/
def execHoldExpiry (r : RecordIndex) (s : State) : Host.Outcome State Fault Refusal := outsideReset (holdExpire r) s

/-- SLOT_EXPIRY (R132, R133; behind a RESTART R180). -/
def execSlotExpiry (k : SlotIndex) (s : State) : Host.Outcome State Fault Refusal :=
  outsideReset (slotExpiryTaken k) s

/-- TRUNK_REPLY_SENT: the rest of the reply's echo compares equal (R20, R109). -/
def execTrunkReplySent (s : State) : Host.Outcome State Fault Refusal :=
  outsideReset (fun s => if s.trunk.port.tx.sending then trunkSent s else s) s

/-- TRUNK_CONTENTION (R19, R110). -/
def execTrunkContention (s : State) : Host.Outcome State Fault Refusal :=
  outsideReset (fun s => if s.trunk.port.tx.sending then trunkContended s else s) s

end Sys2Proof.Machine
end

