-- ==== Sys2Proof/Machine/CommandRows.lean ====
section
/-!
DEFINITION. The meanings of the management command rows: each is the good trunk frame that carries the command, with its
code, sequence number and arguments by the layouts of section 10.5, addressed to the MGMT_ADDRESS in force when it is
classified (R31, R160; log entries 2 and 3).
-/

namespace Sys2Proof.Machine

/-- A command frame for this part: code, sequence number and argument bytes (section 10.2). -/
def commandFrame (code : CommandCode) (seq : Byte) (args : List Byte) (s : State) : Host.Outcome State Fault Refusal :=
  trunkFrame (settledAddress s) (commandByte code :: seq :: args) s

/-- IDENTIFY (R165). -/
def execIdentify (seq : Byte) (s : State) : Host.Outcome State Fault Refusal := commandFrame .identify seq [] s

/-- GET_PARAM (R166). -/
def execGetParam (seq index : Byte) (s : State) : Host.Outcome State Fault Refusal :=
  commandFrame .getParam seq [index] s

/-- SET_PARAM (R167). -/
def execSetParam (seq index : Byte) (value : Word) (s : State) : Host.Outcome State Fault Refusal :=
  commandFrame .setParam seq (index :: bytesOfWord value) s

/-- READ_ENTRY (R40). -/
def execReadEntry (seq bank index clear : Byte) (s : State) : Host.Outcome State Fault Refusal :=
  commandFrame .readEntry seq [bank, index, clear] s

/-- WRITE_ENTRY (R41). -/
def execWriteEntry (seq bank index : Byte) (entry : Vector Byte 9) (s : State) : Host.Outcome State Fault Refusal :=
  commandFrame .writeEntry seq (bank :: index :: entry.toList) s

/-- CLEAR_ENTRY (R42). -/
def execClearEntry (seq bank index : Byte) (s : State) : Host.Outcome State Fault Refusal :=
  commandFrame .clearEntry seq [bank, index] s

/-- COPY_BANK (R43). -/
def execCopyBank (seq : Byte) (s : State) : Host.Outcome State Fault Refusal := commandFrame .copyBank seq [] s

/-- SWAP_BANKS (R44). -/
def execSwapBanks (seq : Byte) (s : State) : Host.Outcome State Fault Refusal := commandFrame .swapBanks seq [] s

/-- SUBMIT (R39, R169). -/
def execSubmit (seq address : Byte) (data : List Byte) (s : State) : Host.Outcome State Fault Refusal :=
  commandFrame .submit seq (address :: data) s

/-- COLLECT (R68, R69). -/
def execCollect (seq tag offset : Byte) (s : State) : Host.Outcome State Fault Refusal :=
  commandFrame .collect seq [tag, offset] s

/-- COLLECT_NEXT (R70). -/
def execCollectNext (seq offset : Byte) (s : State) : Host.Outcome State Fault Refusal :=
  commandFrame .collectNext seq [offset] s

/-- CANCEL (R71). -/
def execCancel (seq tag : Byte) (s : State) : Host.Outcome State Fault Refusal := commandFrame .cancel seq [tag] s

/-- LIST_PENDING (R172). -/
def execListPending (seq : Byte) (s : State) : Host.Outcome State Fault Refusal := commandFrame .listPending seq [] s

/-- POLL_SET (R139). -/
def execPollSet (seq slot branch lineAddress : Byte) (period : Word) (template : List Byte) (s : State) :
    Host.Outcome State Fault Refusal :=
  commandFrame .pollSet seq ([slot, branch, lineAddress] ++ bytesOfWord period ++ template) s

/-- POLL_SET, unset form (R140). -/
def execPollSetUnset (seq slot : Byte) (s : State) : Host.Outcome State Fault Refusal :=
  commandFrame .pollSet seq [slot] s

/-- POLL_START (R141). -/
def execPollStart (seq slot : Byte) (delay : Word) (s : State) : Host.Outcome State Fault Refusal :=
  commandFrame .pollStart seq (slot :: bytesOfWord delay) s

/-- POLL_STOP (R142). -/
def execPollStop (seq slot : Byte) (s : State) : Host.Outcome State Fault Refusal :=
  commandFrame .pollStop seq [slot] s

/-- POLL_READ (R143). -/
def execPollRead (seq slot : Byte) (s : State) : Host.Outcome State Fault Refusal :=
  commandFrame .pollRead seq [slot] s

/-- READ_SNAPSHOT (R138). -/
def execReadSnapshot (seq slot offset : Byte) (s : State) : Host.Outcome State Fault Refusal :=
  commandFrame .readSnapshot seq [slot, offset] s

/-- READ_EVENTS (R152). -/
def execReadEvents (seq : Byte) (s : State) : Host.Outcome State Fault Refusal := commandFrame .readEvents seq [] s

/-- CLEAR_EVENTS (R153). -/
def execClearEvents (seq : Byte) (mask : Word) (s : State) : Host.Outcome State Fault Refusal :=
  commandFrame .clearEvents seq (bytesOfWord mask) s

/-- READ_COUNTERS (R155). -/
def execReadCounters (seq port clear : Byte) (s : State) : Host.Outcome State Fault Refusal :=
  commandFrame .readCounters seq [port, clear] s

/-- BRANCH_CONTROL QUERY (R91, R175). -/
def execBranchControlQuery (seq branch : Byte) (s : State) : Host.Outcome State Fault Refusal :=
  commandFrame .branchControl seq [branch, 0x00#8] s

/-- BRANCH_CONTROL DISABLE (R92, R95, R175). -/
def execBranchControlDisable (seq branch : Byte) (s : State) : Host.Outcome State Fault Refusal :=
  commandFrame .branchControl seq [branch, 0x02#8] s

/-- BRANCH_CONTROL ENABLE (R93, R95, R175). -/
def execBranchControlEnable (seq branch : Byte) (s : State) : Host.Outcome State Fault Refusal :=
  commandFrame .branchControl seq [branch, 0x01#8] s

/-- RESTART (R177, R178, R179). -/
def execRestart (seq : Byte) (s : State) : Host.Outcome State Fault Refusal := commandFrame .restart seq [] s

end Sys2Proof.Machine
end

