-- ==== Sys2Proof/Machine/ResetRows.lean ====
section
/-!
DEFINITION. The meanings of RESET_ASSERTED and RESET_RELEASE (R185).
-/

namespace Sys2Proof.Machine

/-- RESET_ASSERTED: every transmission ends at once, DE low, TXD at mark, ALERT_N released; nothing held before is kept
but the latched straps, which stand until the release (R165, R185). -/
def execResetAsserted (s : State) : Host.Outcome State Fault Refusal :=
  .next { State.atReset s.strapA s.strapR with inReset := true, pending := s.pending }

/-- RESET_RELEASE: the straps are latched and every block takes its reset values (R164, R185). -/
def execResetRelease (strapA : BitVec 3) (strapR : BitVec 2) (s : State) : Host.Outcome State Fault Refusal :=
  .next { State.atReset strapA strapR with pending := s.pending }

end Sys2Proof.Machine
end

