-- ==== Sys2Proof/Machine/Dispatch.lean ====
section
/-!
DEFINITION. The dispatch of every command to its meaning: one arm for each row of spec/opcode_table.json.
-/

namespace Sys2Proof.Machine

def exec (i : Instr) (s : State) : Host.Outcome State Fault Refusal :=
  match i with
  | .resetAsserted => Sys2Proof.Machine.execResetAsserted s
  | .resetRelease strapA strapR => Sys2Proof.Machine.execResetRelease strapA strapR s
  | .receiverSynchronised p => Sys2Proof.Machine.execReceiverSynchronised p s
  | .addressCharacter p c => Sys2Proof.Machine.execAddressCharacter p c s
  | .dataCharacter p c => Sys2Proof.Machine.execDataCharacter p c s
  | .framingError p => Sys2Proof.Machine.execFramingError p s
  | .lineBreak p => Sys2Proof.Machine.execLineBreak p s
  | .characterTimeout p => Sys2Proof.Machine.execCharacterTimeout p s
  | .guardMet p => Sys2Proof.Machine.execGuardMet p s
  | .trunkGoodFrame address data => Sys2Proof.Machine.execTrunkGoodFrame address data s
  | .identify seq => Sys2Proof.Machine.execIdentify seq s
  | .getParam seq index => Sys2Proof.Machine.execGetParam seq index s
  | .setParam seq index value => Sys2Proof.Machine.execSetParam seq index value s
  | .readEntry seq bank index clear => Sys2Proof.Machine.execReadEntry seq bank index clear s
  | .writeEntry seq bank index entry => Sys2Proof.Machine.execWriteEntry seq bank index entry s
  | .clearEntry seq bank index => Sys2Proof.Machine.execClearEntry seq bank index s
  | .copyBank seq => Sys2Proof.Machine.execCopyBank seq s
  | .swapBanks seq => Sys2Proof.Machine.execSwapBanks seq s
  | .submit seq address data => Sys2Proof.Machine.execSubmit seq address data s
  | .collect seq tag offset => Sys2Proof.Machine.execCollect seq tag offset s
  | .collectNext seq offset => Sys2Proof.Machine.execCollectNext seq offset s
  | .cancel seq tag => Sys2Proof.Machine.execCancel seq tag s
  | .listPending seq => Sys2Proof.Machine.execListPending seq s
  | .pollSet seq slot branch lineAddress period template => Sys2Proof.Machine.execPollSet seq slot branch lineAddress period template s
  | .pollSetUnset seq slot => Sys2Proof.Machine.execPollSetUnset seq slot s
  | .pollStart seq slot delay => Sys2Proof.Machine.execPollStart seq slot delay s
  | .pollStop seq slot => Sys2Proof.Machine.execPollStop seq slot s
  | .pollRead seq slot => Sys2Proof.Machine.execPollRead seq slot s
  | .readSnapshot seq slot offset => Sys2Proof.Machine.execReadSnapshot seq slot offset s
  | .readEvents seq => Sys2Proof.Machine.execReadEvents seq s
  | .clearEvents seq mask => Sys2Proof.Machine.execClearEvents seq mask s
  | .readCounters seq port clear => Sys2Proof.Machine.execReadCounters seq port clear s
  | .branchControlQuery seq branch => Sys2Proof.Machine.execBranchControlQuery seq branch s
  | .branchControlDisable seq branch => Sys2Proof.Machine.execBranchControlDisable seq branch s
  | .branchControlEnable seq branch => Sys2Proof.Machine.execBranchControlEnable seq branch s
  | .restart seq => Sys2Proof.Machine.execRestart seq s
  | .arbitration b => Sys2Proof.Machine.execArbitration b s
  | .branchSendComplete b => Sys2Proof.Machine.execBranchSendComplete b s
  | .branchContention b => Sys2Proof.Machine.execBranchContention b s
  | .responseWindowExpiry b => Sys2Proof.Machine.execResponseWindowExpiry b s
  | .answerEnd b report => Sys2Proof.Machine.execAnswerEnd b report s
  | .quarantineExpiry b => Sys2Proof.Machine.execQuarantineExpiry b s
  | .holdExpiry r => Sys2Proof.Machine.execHoldExpiry r s
  | .slotExpiry k => Sys2Proof.Machine.execSlotExpiry k s
  | .trunkReplySent => Sys2Proof.Machine.execTrunkReplySent s
  | .trunkContention => Sys2Proof.Machine.execTrunkContention s
  | .startBit p confirmed => Sys2Proof.Machine.execStartBit p confirmed s
  | .breakEnd p => Sys2Proof.Machine.execBreakEnd p s

end Sys2Proof.Machine
end

