-- ==== Sys2Proof/Safety.lean ====
section
/-!
DEFINITION. The terms in which statements about the part are made: the pieces of the state a command may leave alone,
when a command frame is taken and what it means to be answered, and the invariants that every step keeps.
-/

namespace Sys2Proof.Machine

/-! ### What a command leaves alone -/

/-- The pieces of the state of which a frame can speak. -/
inductive Part where
  | pins
  | params
  | trunk
  | branch (b : Branch)
  | bankA
  | bankB
  | activeBank
  | records
  | tagCounter
  | completions
  | slots
  | buffers
  | flags
  | lastCommand
  deriving DecidableEq, Repr

/-- Every piece of the state but the queue of waiting commands. -/
def allParts : List Part :=
  [.pins, .params, .trunk, .branch 0, .branch 1, .branch 2, .branch 3, .bankA, .bankB, .activeBank, .records,
   .tagCounter, .completions, .slots, .buffers, .flags, .lastCommand]

/-- A piece of the state stands in `t` as in `s`. -/
def samePart (s t : State) : Part → Prop
  | .pins => t.inReset = s.inReset ∧ t.strapA = s.strapA ∧ t.strapR = s.strapR
  | .params => t.params = s.params
  | .trunk => t.trunk = s.trunk
  | .branch b => t.branches[b] = s.branches[b]
  | .bankA => t.bankA = s.bankA
  | .bankB => t.bankB = s.bankB
  | .activeBank => t.activeBank = s.activeBank
  | .records => t.records = s.records
  | .tagCounter => t.tagCounter = s.tagCounter
  | .completions => t.completions = s.completions
  | .slots => t.slots = s.slots
  | .buffers => t.buffers = s.buffers
  | .flags => t.flags = s.flags
  | .lastCommand => t.lastCode = s.lastCode ∧ t.lastSeq = s.lastSeq

/-- The queue of commands and every piece of the state but the named ones stand in `t` as in `s`. -/
def SameBut (except : List Part) (s t : State) : Prop :=
  t.pending = s.pending ∧ ∀ p ∈ allParts, p ∉ except → samePart s t p

/-- The four branches as pieces of the state. -/
def branchParts : List Part := [.branch 0, .branch 1, .branch 2, .branch 3]

/-- The port of a controller as a piece of the state. -/
def portPart : Port → Part
  | .trunk => .trunk
  | .branch b => .branch b

/-- What a row of one branch may change of another: the places of its queue and STALLED, and nothing else. -/
def otherBranchKept (x y : BranchState) : Prop := { y with queue := x.queue, stalled := x.stalled } = x

/-! ### A frame and a command on the trunk -/

/-- The part as the supersede of a whole trunk frame leaves it: the frame is complete, so none is open (R104). -/
def superseded (s : State) : State := supersede (setRx .trunk .hunt s)

/-- A whole frame that begins on the trunk is heard and stored: the receiver takes start bits, the port is not in SEND,
and a buffer is free, or the open frame is a stored one whose buffer is kept (R10, R14, R18). -/
def trunkReady (s : State) : Bool :=
  receives s .trunk && !s.trunk.port.tx.sending &&
    match s.trunk.port.rx with
    | .hunt | .discard => decide (0 < freeCount s)
    | .assemble a => a.stored && (heldFrame .trunkAssembly s).isSome

/-- A command frame is stored and is not answered by replay, as its supersede leaves the last-response memory (R114,
R159). -/
def commandReady (code seq : Byte) (s : State) : Bool := trunkReady s && !isReplay (superseded s) code seq

/-- The flags that the reception of a frame may set: BUF_LOW by its claim (R124), LINE_ERROR by a frame it cuts short
(R13). -/
def receiptFlags : BitVec 12 := flagMask .bufLow ||| flagMask .lineError

/-- The holders of exchanges and snapshots. -/
def exchangeHolders : List Holder :=
  (List.finRange Config.branchCount).map Holder.branchAnswer ++
    (List.finRange Config.recordCount).map Holder.request ++
    (List.finRange Config.recordCount).map Holder.answer ++ (List.finRange Config.slotCount).map Holder.snapshot

/-- The frames that the exchanges and snapshots hold stand in `t` as in `s`. -/
def exchangeFramesKept (s t : State) : Prop := ∀ h ∈ exchangeHolders, heldFrame h t = heldFrame h s

/-- What a command leaves of the part besides its answer: everything but the pieces its own effect names stands as the
supersede of its frame left it (R104), reception sets at most its own flags, and nothing waits to be settled. -/
def CommandKept (except : List Part) (s t : State) : Prop :=
  SameBut (except ++ [.trunk, .buffers, .flags, .params, .lastCommand]) (superseded s) t ∧
    (.params ∉ except → t.params = { s.params with mgmtAddress := settledAddress s }) ∧
    (.flags ∉ except → t.flags ||| receiptFlags = s.flags ||| receiptFlags) ∧
    (.buffers ∉ except → exchangeFramesKept (superseded s) t) ∧
    (.trunk ∉ except → t.trunk.counters = (superseded s).trunk.counters ∧ t.trunk.pendingSetting = none ∧
      t.trunk.port.rate = (superseded s).trunk.port.rate ∧ t.trunk.port.guard = s.trunk.port.guard ∧
      t.trunk.port.charTimeout = s.trunk.port.charTimeout)

/-- A route bank as a piece of the state. -/
def bankPart : Bank → Part
  | .a => .bankA
  | .b => .bankB

/-- A command has been executed and answered (R160, R161): its response, built under the address in force with its
result, the summary of the part as it then stands and its result bytes, is the last-response memory; the last code and
sequence are its own; the owed reply is RESPONSE and its frame is given to the trunk port (R102, R107). -/
def Answered (s : State) (code seq : Byte) (r : ResultCode) (results : List Byte) (t : State) : Prop :=
  let data := [code, seq, resultByte r, statusSummary t] ++ results
  heldFrame .lastResponse t = some (mkFrame (settledAddress s) data) ∧
    t.trunk.owed = .response ∧
    t.trunk.port.tx = .lead { address := settledAddress s, data := data } ∧
    t.lastCode = some code ∧ t.lastSeq = some seq

/-- A command refused, or answered without an effect: nothing but the answer (R160, R163). -/
def AnsweredOnly (s : State) (code seq : Byte) (r : ResultCode) (results : List Byte) (t : State) : Prop :=
  Answered s code seq r results t ∧ CommandKept [] s t

/-- A SUBMIT refused with REFUSED counted and flagged (R169): no record, no tag. -/
def SubmitRefused (s : State) (seq : Byte) (r : ResultCode) (t : State) : Prop :=
  Answered s (commandByte .submit) seq r [] t ∧ CommandKept [bankPart s.activeBank, .trunk, .flags] s t ∧
    t.trunk.counters.refused = countUp s.trunk.counters.refused ∧ flagSet .refused t = true

/-- A lookup that selected nothing, or the entry `j`, has left the bank with that entry's HITS incremented and every
other entry as it was (R29). -/
def hitCounted (s : State) (selected : Option (Fin Config.entryCount)) (t : State) : Prop :=
  ∀ j : Fin Config.entryCount, (t.bank s.activeBank)[j] =
    if selected = some j then { (s.bank s.activeBank)[j] with hits := countUp (s.bank s.activeBank)[j].hits }
    else (s.bank s.activeBank)[j]

/-- The argument lengths a command accepts (R162). -/
def allowedLength (c : CommandCode) (n : Nat) : Bool :=
  match c with
  | .identify | .copyBank | .swapBanks | .listPending | .readEvents | .restart => n == 0
  | .getParam | .collectNext | .cancel | .pollStop | .pollRead => n == 1
  | .clearEntry | .collect | .readSnapshot | .clearEvents | .readCounters | .branchControl => n == 2
  | .setParam | .readEntry | .pollStart => n == 3
  | .writeEntry => n == 11
  | .submit => decide (1 ≤ n)
  | .pollSet => n == 1 || decide (5 ≤ n)

/-- The row that reports the clean end of a port's transmission. -/
def sentRow : Port → Instr
  | .trunk => .trunkReplySent
  | .branch b => .branchSendComplete b

/-- The row that reports contention of a port's transmission. -/
def lostRow : Port → Instr
  | .trunk => .trunkContention
  | .branch b => .branchContention b

/-- The characters of a frame as rows: the first an address character, the others data characters (R1). -/
def frameRows (p : Port) : List Byte → List Instr
  | [] => []
  | c :: rest => .addressCharacter p c :: rest.map (.dataCharacter p)

/-- Commands run one after another, up to the first that stops. -/
def runRows : List Instr → State → Host.Outcome State Fault Refusal
  | [], s => .next s
  | c :: rest, s =>
    match exec c s with
    | .next t => runRows rest t
    | .fault r => .fault r
    | .refused r => .refused r

/-- The last-response memory and what it answers stand in `t` as in `s` (R157). -/
def memoryKept (s t : State) : Prop :=
  t.lastCode = s.lastCode ∧ t.lastSeq = s.lastSeq ∧ heldFrame .lastResponse t = heldFrame .lastResponse s

/-- The counters of a port after an open frame has been cut short, and as they were when none was open (R13). -/
def truncatedOnce (q : PortState) : PortCounters :=
  match q.rx with
  | .assemble _ => { q.counters with truncated := countUp q.counters.truncated }
  | .hunt | .discard => q.counters

/-- The trunk port once a whole frame has been received and has superseded (R5, R8, R12, R13): a frame that it cut short
is counted, and so is this one. -/
def receivedPort (chars : List Byte) (s : State) : PortState :=
  let counted := if opensWith .trunk chars s then s.trunk.port.counters else truncatedOnce s.trunk.port
  { (superseded s).trunk.port with
    lineRest := 0, charInProgress := false, gapTimeout := s.trunk.port.charTimeout
    counters := { counted with framesRxGood := countUp counted.framesRxGood } }

/-- The number of buffers of a holder. -/
def heldCount (h : Holder) (s : State) : Nat := s.buffers.toList.countP fun c => c.holder == h

/-- A whole stored frame has been dropped with the counters and flags of its case, and nothing is owed (R32, R33, R34,
R36, R37): its buffer is free again and every other stands as the supersede left it, and so do the trunk and the
last-response memory, but for the reception. -/
def FrameDropped (chars : List Byte) (counters : TrunkCounters) (flags : BitVec 12) (s t : State) : Prop :=
  t.trunk = { (superseded s).trunk with port := receivedPort chars s, counters := counters } ∧
    t.trunk.owed = .nothing ∧ heldFrame .owedReply t = heldFrame .owedReply (superseded s) ∧
    memoryKept (superseded s) t ∧ t.flags ||| receiptFlags = s.flags ||| receiptFlags ||| flags ∧
    freeCount t = freeCount (superseded s) + heldCount .trunkAssembly (superseded s) ∧
    ∀ i : Fin Config.bufferCount,
      if (superseded s).buffers[i].holder = .free ∨ (superseded s).buffers[i].holder = .trunkAssembly then
        t.buffers[i].holder = .free
      else t.buffers[i] = (superseded s).buffers[i]

/-- What the end of the owed reply leaves (R109, R110, R114): its buffer free, the owed reply none, and a pending setting
applied and absent. -/
def ReplyFinished (s t : State) : Prop :=
  t.trunk.owed = .nothing ∧ t.trunk.port.tx = .quiet ∧ t.trunk.port.rx = .hunt ∧ t.trunk.port.lineRest = 0 ∧
    t.trunk.pendingSetting = none ∧ t.trunk.counters = s.trunk.counters ∧ heldFrame .owedReply t = none ∧
    exchangeFramesKept s t ∧ t.params = { s.params with mgmtAddress := settledAddress s } ∧
    match s.trunk.pendingSetting with
    | none =>
      t.trunk.port.rate = s.trunk.port.rate ∧ t.trunk.port.synchronised = s.trunk.port.synchronised ∧ memoryKept s t
    | some (.trunkRate code) => t.trunk.port.rate = code ∧ t.trunk.port.synchronised = false ∧ memoryKept s t
    | some (.mgmtAddress _) =>
      t.trunk.port.rate = s.trunk.port.rate ∧ t.lastCode = none ∧ t.lastSeq = none ∧
        heldFrame .lastResponse t = none

/-- The transparent candidate of a branch can be granted (R80). -/
def transparentReady (b : Branch) (s : State) : Bool := (transparentCandidate b s).isSome && gateOpen s

/-- The queue-class candidate of a branch can be granted: a GROUP record always, a DEFERRED one under the gate (R80). -/
def queueReady (b : Branch) (s : State) : Bool :=
  match queueCandidate b s with
  | none => false
  | some i => s.records[i].kind == some .group || gateOpen s

/-- The poll-class candidate of a branch can be granted (R80). -/
def pollReady (b : Branch) (s : State) : Bool :=
  (lowestDueSlot s b).isSome && gateOpen s && decide (2 ≤ freeRecords s)

/-- A branch after a grant of the record `i` with the frame `f` (R81): the record leaves the queue, the branch is in LEAD
for it with the GUARD in force, and it is not stalled. -/
def grantedBranch (x : BranchState) (i : RecordIndex) (f : TxFrame) (m : Served) : BranchState :=
  { x with
    status := .lead, onLine := some i, stalled := false, lastServed := m
    queue := x.queue.filter fun j => j != i
    port := { x.port with tx := .lead f, guardInUse := x.port.guard } }

/-- A branch's answer buffer has been claimed (R120, R122): the lowest-numbered free buffer, and no other changes. -/
def answerBufferClaimed (b : Branch) (s t : State) : Prop :=
  ∃ i : Fin Config.bufferCount, s.buffers[i].holder = .free ∧ (∀ j < i, s.buffers[j].holder ≠ .free) ∧
    t.buffers[i] = { holder := .branchAnswer b, chars := [] } ∧ ∀ j ≠ i, t.buffers[j] = s.buffers[j]

/-- Some buffer of a holder holds exactly this frame. -/
def holdsFrame (h : Holder) (chars : List Byte) (s : State) : Prop :=
  ∃ n : Fin Config.bufferCount, s.buffers[n] = { holder := h, chars := chars }

/-- What the pool's claims leave of the flags: BUF_LOW is set when the free count left is below BUF_LOW_MARK (R124). -/
def claimedFlags (s : State) : BitVec 12 :=
  if freeCount s ≤ s.params.bufLowMark then s.flags ||| flagMask .bufLow else s.flags

/-- The frame a record sends: its COUNT and DATA as its REQUEST holds them under its LINE_ADDRESS (R81). -/
def recordFrame (i : RecordIndex) (s : State) : TxFrame :=
  { address := s.records[i].lineAddress, data := frameData ((heldFrame (.request i) s).getD []) }

/-- A port under a rate that was held for it: the rate applies and the receiver must resynchronise; with none held it
stays (R22, R89). -/
def underRate (rate : Option Nat) (q : PortState) : PortState :=
  match rate with
  | none => q
  | some code => { q with rate := code, synchronised := false, charInProgress := false }

/-- A slot after a poll that brought no answer: a miss, and the slot leaves its poll state (R135, R137). -/
def missedSlot (x : Slot) : Slot :=
  match x.state with
  | .onLine => { x with state := .armed, misses := missUp x.misses }
  | .stopping => { x with state := .stopped, countdown := 0, misses := missUp x.misses }
  | .unset | .stopped | .armed | .due => { x with misses := missUp x.misses }

/-- What the trunk is told of a TRANSPARENT record `r` that ends without an answer (R58, R59): nothing when it is
ABANDONED; a proxy status frame owed with NOTIFY; else the owed reply is none. -/
def trunkToldOfFailure (r : Record) (o : ExchangeOutcome) (s t : State) : Prop :=
  if r.abandoned then t.trunk = s.trunk
  else if r.notify then
    t.trunk.owed = .proxy ∧ t.trunk.port.tx =
      .lead { address := s.params.mgmtAddress, data := [0x7F#8, r.trunkAddress.getD 0, outcomeByte o] }
  else t.trunk = { s.trunk with owed := .nothing }

/-- An attempt of the record `i`, which stands as `r` with the attempt counted, has failed with result `o` on a branch
that goes on in IDLE (R54, R55, R56, R58, R59, R60, R61, R72): retried at the head of the queue, or settled by its
kind. ANSWER_FAIL is set by an outcome fixed as NO_ANSWER or BAD_ANSWER, not by a retry. -/
def AttemptFailed (b : Branch) (i : RecordIndex) (r : Record) (o : ExchangeOutcome) (s t : State) : Prop :=
  t.branches[b].status = .idle ∧ t.branches[b].onLine = none ∧ heldFrame (.branchAnswer b) t = none ∧
    (∀ k ≠ i, t.records[k] = s.records[k]) ∧ (∀ d ≠ b, otherBranchKept s.branches[d] t.branches[d]) ∧
    SameBut ([.trunk, .records, .completions, .slots, .buffers, .flags] ++ branchParts) s t ∧
    if r.retriesLeft ≠ 0 ∧ r.abandoned = false ∧ r.cancelPending = false then
      t.records[i] = { r with state := .queued, retriesLeft := r.retriesLeft - 1 } ∧
        t.branches[b].queue = i :: s.branches[b].queue ∧ (∀ d ≠ b, t.branches[d] = s.branches[d]) ∧
        flagSet .answerFail t = flagSet .answerFail s ∧ SameBut (branchParts ++ [.records, .buffers, .flags]) s t
    else
      flagSet .answerFail t = (flagSet .answerFail s || o == .noAnswer || o == .badAnswer) ∧
      match r.kind with
      | some .transparent =>
        t.records[i] = Record.free ∧ heldFrame (.request i) t = none ∧
          ((heldFrame (.request i) s).isSome = true → trunkToldOfFailure r o s t)
      | some .deferred =>
        heldFrame (.request i) t = none ∧
        if r.cancelPending then t.records[i] = Record.free
        else
          t.records[i] = { r with
            state := .ended, outcome := some o, hold := some { count := 0, limit := s.params.holdTime * 100 } } ∧
            t.completions = s.completions ++ [i] ∧ flagSet .completion t = true ∧ t.trunk = s.trunk
      | some .cyclic => t.records[i] = Record.free ∧ t.trunk = s.trunk ∧
          ∀ k, r.slot = some k → t.slots[k] = missedSlot s.slots[k] ∧ ∀ j ≠ k, t.slots[j] = s.slots[j]
      | some .group | none => True

/-- A record whose exchange on the branch `b` ends without an answer and without a retry, under the HOLD_TIME in force
(R58, R59, R60, R61, R62, R72). -/
def settledRecord (b : Branch) (o : ExchangeOutcome) (holdTime : Nat) (r : Record) : Record :=
  match r.kind with
  | some .transparent | some .cyclic => .free
  | some .deferred =>
    if r.cancelPending then .free
    else { r with state := .ended, outcome := some o, hold := some { count := 0, limit := holdTime * 100 } }
  | some .group =>
    let p := setWithout r.pendingSet b
    let g := setWithout r.sendingSet b
    if p = 0 ∧ g = 0 then .free else { r with pendingSet := p, sendingSet := g }
  | none => r

/-- The record joins the completion list when it is settled (R60). -/
def joinsCompletions (r : Record) : Bool := r.kind == some .deferred && !r.cancelPending

/-- The record is the TRANSPARENT one for which the trunk waits (R64). -/
def awaitedByTrunk (r : Record) : Bool := r.kind == some .transparent && !r.abandoned

/-- The work of a branch: its on-line record and its queue from head to tail (R63). -/
def workOf (s : State) (b : Branch) : List RecordIndex := s.branches[b].onLine.toList ++ s.branches[b].queue

/-- A slot whose branch has left service: the poll on line has ended with a miss (R61), and a DUE one is ARMED with a
miss (R144). -/
def slotOutOfService (s : State) (b : Branch) (k : SlotIndex) : Slot :=
  if slotDueOn s b k then { s.slots[k] with state := .armed, misses := missUp s.slots[k].misses }
  else if s.branches[b].onLine.any fun i => s.records[i].kind == some .cyclic && s.records[i].slot == some k then
    missedSlot s.slots[k]
  else s.slots[k]

/-- The branch `b` has left service (R63, R144): each record of its work, standing as `last` says, is settled by its kind
with its outcome; those that end join the completion list, on-line record first and then in queue order; their REQUEST
buffers are free but that of a group still to be delivered elsewhere; the polls end with a miss. -/
def WorkSettled (b : Branch) (last : RecordIndex → Record) (o : RecordIndex → ExchangeOutcome) (s t : State) : Prop :=
  let work := workOf s b
  (∀ i, t.records[i] = if i ∈ work then settledRecord b (o i) s.params.holdTime (last i) else s.records[i]) ∧
    t.completions = s.completions ++ work.filter (fun i => joinsCompletions (last i)) ∧
    flagSet .completion t = (flagSet .completion s || work.any fun i => joinsCompletions (last i)) ∧
    (∀ i ∈ work, s.records[i].kind ≠ some .group ∨ t.records[i] = .free → heldFrame (.request i) t = none) ∧
    ∀ k, t.slots[k] = slotOutOfService s b k

/-- The states of a branch in which work is on line: LEAD, SEND, AWAIT, RECV (R76). -/
def BranchStatus.onLine : BranchStatus → Bool
  | .lead | .send | .await | .recv => true
  | .off | .idle | .fault => false

/-- A branch under an accepted parameter of its own (R22, R97): a RATE is applied at once in IDLE, OFF and FAULT, which
truncates an open frame and leaves the receiver to resynchronise, and is held in the other states; every other parameter
is stored. -/
def branchUnder (q : Param) (n : Nat) (b : Branch) (x : BranchState) : BranchState :=
  if q = .rate (.branch b) then
    if x.status.onLine then { x with pendingRate := some n }
    else { x with port := { x.port with
      rate := n, synchronised := false, charInProgress := false, rx := .hunt, counters := truncatedOnce x.port } }
  else if q = .guard (.branch b) then { x with port := { x.port with guard := n } }
  else if q = .charTimeout (.branch b) then { x with port := { x.port with charTimeout := n } }
  else if q = .responseWindow b then { x with responseWindow := n }
  else if q = .queueLimit b then { x with queueLimit := n }
  else if q = .quarantine b then { x with quarantine := n }
  else x

/-- An open frame of the port has its address character (R8, R10). -/
def assemblyBegun (q : PortState) : Bool :=
  match q.rx with
  | .assemble a => !a.got.isEmpty
  | .hunt | .discard => true

/-- A branch in RECV is storing an answer for the station record `i`, from its address character on (R15, R86). -/
def answerOpen (b : Branch) (i : RecordIndex) (s : State) : Bool :=
  receives s (.branch b) && s.branches[b].status == .recv && s.branches[b].onLine == some i && storing (.branch b) s &&
    assemblyBegun s.branches[b].port && isStationKind s.records[i]

/-- What has come of that answer is the beginning of these characters. -/
def answerComing (b : Branch) (i : RecordIndex) (chars : List Byte) (s : State) : Bool :=
  answerOpen b i s && opensWith (.branch b) chars s

/-- The counters of a branch after an answer: LATE_ANSWERS for a record ABANDONED or with CANCEL_PENDING, else ANSWERS
(R88). -/
def answerCounters (r : Record) (c : BranchCounters) : BranchCounters :=
  if r.abandoned || r.cancelPending then { c with lateAnswers := countUp c.lateAnswers }
  else { c with answers := countUp c.answers }

/-- A branch, if it is a branch's port, is storing its answer: the end of that frame ends the attempt (R87). -/
def storesAnswer (p : Port) (s : State) : Bool :=
  match p with
  | .trunk => false
  | .branch b => storing (.branch b) s && s.branches[b].status == .recv

/-- The flags after an open frame has been cut short (R13). -/
def truncatedFlags (q : PortState) (flags : BitVec 12) : BitVec 12 :=
  match q.rx with
  | .assemble _ => flags ||| flagMask .lineError
  | .hunt | .discard => flags

/-- What stands of the pool when the trunk's open frame has been cut short: its buffer is free again (R14). -/
def truncatedFrames (p : Port) (s t : State) : Prop :=
  match p, (s.port p).rx with
  | .trunk, .assemble _ =>
    ∀ i : Fin Config.bufferCount,
      t.buffers[i] = if s.buffers[i].holder = .trunkAssembly then Buffer.empty else s.buffers[i]
  | _, _ => t.buffers = s.buffers

/-! ### Invariants -/

/-- A branch in OFF keeps nothing of its line (R21). -/
def portSilent (q : PortState) : Bool :=
  q.tx == .quiet && q.rx == .hunt && !q.synchronised && !q.inBreak && !q.charInProgress && q.lineRest == 0

/-- A branch agrees with itself: its port is in LEAD and SEND exactly while it is (R76); it has an on-line assignment
exactly while work is on line (R76); its timers run in their states only (R83, R94); a rate is pending only while work
is on line (R97, R188); its contention count is at most 3, and below 3 in service (R84, R94); in OFF its port is silent
(R21). -/
def branchAgrees (x : BranchState) : Bool :=
  (x.port.tx.leading == (x.status == .lead)) && (x.port.tx.sending == (x.status == .send)) &&
    (x.onLine.isSome == x.status.onLine) && (x.windowTimer.isNone || x.status == .await) &&
    (x.quarantineTimer.isNone || x.status == .fault) && (x.pendingRate.isNone || x.status.onLine) &&
    decide (x.contentionRun ≤ Config.faultRun) &&
    (x.status == .off || x.status == .fault || decide (x.contentionRun < Config.faultRun)) &&
    (x.status != .off || portSilent x.port)

/-- Every branch agrees with itself. -/
def BranchesAgree (s : State) : Prop := ∀ b : Branch, branchAgrees s.branches[b] = true

/-- Every open frame has its address character (R8, R10). -/
def AssembliesBegun (s : State) : Prop := ∀ p : Port, assemblyBegun (s.port p) = true

/-- The line parameters of a port are in range (section 1.7). -/
def portInRange (q : PortState) : Bool :=
  decide (q.rate ≤ 6) && decide (q.guard ≤ 15) && decide (1 ≤ q.charTimeout) && decide (q.charTimeout ≤ 7)

/-- The parameters of a branch are in range (sections 1.7 and 4.6, R51). -/
def branchInRange (x : BranchState) : Bool :=
  portInRange x.port && decide (1 ≤ x.responseWindow) && decide (x.responseWindow ≤ 1000) &&
    decide (1 ≤ x.queueLimit) && decide (x.queueLimit ≤ 8) && decide (x.quarantine ≤ 255) &&
    decide (x.pendingRate.getD 0 ≤ 6)

/-- A pending setting is a RATE code or a station address (R100). -/
def settingInRange : Option PendingSetting → Bool
  | none => true
  | some (.trunkRate code) => decide (code ≤ 6)
  | some (.mgmtAddress a) => isStationAddress a

/-- Every parameter of the part is in its range (section 9.3). -/
def ParamsInRange (s : State) : Prop :=
  isStationAddress s.params.mgmtAddress = true ∧ 1 ≤ s.params.trunkReserve ∧ s.params.trunkReserve ≤ 8 ∧
    1 ≤ s.params.holdTime ∧ s.params.holdTime ≤ 255 ∧ s.params.bufLowMark ≤ 47 ∧ portInRange s.trunk.port = true ∧
    settingInRange s.trunk.pendingSetting = true ∧ ∀ b : Branch, branchInRange s.branches[b] = true

/-- Every counter of a list is one of 16 bits. -/
def allCounted (l : List Nat) : Bool := l.all fun n => decide (n ≤ Config.counterMax)

/-- Every counter of the bank, every HITS, every OVERRUNS and every MISSES is within its width (section 5.3 of the scope
file, R29, R137, R154). -/
def CountersBounded (s : State) : Prop :=
  (∀ p ∈ [Port.trunk, .branch 0, .branch 1, .branch 2, .branch 3], allCounted (groupCounters p s) = true) ∧
    (∀ j : Fin Config.entryCount, s.bankA[j].hits ≤ Config.counterMax ∧ s.bankB[j].hits ≤ Config.counterMax) ∧
    ∀ k : SlotIndex, s.slots[k].overruns ≤ Config.counterMax ∧ s.slots[k].misses ≤ Config.missesMax ∧
      s.slots[k].age.getD 0 ≤ Config.counterMax

/-- The pool is in its one form: a free buffer holds no characters (R118, log entry 13). -/
abbrev PoolClean (s : State) : Prop :=
  ∀ i : Fin Config.bufferCount, s.buffers[i].holder = .free → s.buffers[i].chars = []

/-- The fields of an entry are within their bounds and its combinations are those that WRITE_ENTRY accepts; an invalid
entry is empty (R25, R41). -/
def entryLawful (e : RouteEntry) : Bool :=
  if e.valid then
    (match e.kind with
     | .station => (e.branches == 1 || e.branches == 2 || e.branches == 4 || e.branches == 8) &&
        decide (e.retries ≤ 3) && (!e.notify || e.mode == .pass)
     | .group => e.branches != 0 && e.mode != .deferOnly && e.retries == 0 && !e.notify)
  else e == .empty

/-- Every entry of both banks is lawful (R25). -/
def BanksLawful (s : State) : Prop :=
  ∀ j : Fin Config.entryCount, entryLawful s.bankA[j] = true ∧ entryLawful s.bankB[j] = true

/-- The values a part can hold: parameters in range, counters within their widths, a tag counter of 1 to 255 (R48), the
pool in its one form, and the entries of both banks lawful. -/
def ValuesInRange (s : State) : Prop :=
  ParamsInRange s ∧ CountersBounded s ∧ s.tagCounter ≠ 0x00#8 ∧ PoolClean s ∧ BanksLawful s

/-- The owed reply agrees with the part: a buffer is held for it only as ANSWER or PROXY (R102); the port has a frame to
send only for a reply that is sent (R102); a live TRANSPARENT record that is not ABANDONED is the one it waits for
(R101, R111); and a FREE record has no other field (R45). -/
def OwedAgrees (s : State) : Prop :=
  ((heldFrame .owedReply s).isSome = true → s.trunk.owed = .answer ∨ s.trunk.owed = .proxy) ∧
    (s.trunk.port.tx ≠ .quiet → s.trunk.owed = .answer ∨ s.trunk.owed = .proxy ∨ s.trunk.owed = .response) ∧
    ∀ i : RecordIndex,
      (s.records[i].kind = some .transparent → s.records[i].state ≠ .free → s.records[i].abandoned = false →
        s.trunk.owed = .pendingAnswer i) ∧
      (s.records[i].state = .free → s.records[i] = Record.free)

/-- The fields of a record agree with its KIND and STATE (R45, R46, R49, R60, R61, R64, R66). -/
def recordAgrees (r : Record) : Bool :=
  let ended := r.state == .ended
  match r.kind with
  | none => r == .free
  | some .transparent =>
    (r.state == .queued || r.state == .onLine) && r.branch.isSome && (!r.abandoned || r.state == .onLine) &&
      !r.cancelPending && r.outcome.isNone && r.hold.isNone
  | some .deferred =>
    (r.state == .queued || r.state == .onLine || ended) && r.branch.isSome && r.tag.isSome && !r.abandoned &&
      (!r.cancelPending || r.state == .onLine) && (r.outcome.isSome == ended) && (r.hold.isSome == ended)
  | some .cyclic =>
    r.state == .onLine && r.branch.isSome && r.slot.isSome && r.retriesLeft == 0 && !r.abandoned && !r.cancelPending &&
      r.outcome.isNone && r.hold.isNone
  | some .group =>
    r.state == .delivering && r.pendingSet ||| r.sendingSet != 0 && r.pendingSet &&& r.sendingSet == 0 &&
      r.outcome.isNone && r.hold.isNone

/-- The record waits for the line of a branch (R50). -/
def waitsOn (b : Branch) (r : Record) : Bool :=
  (r.state == .queued && r.branch == some b) || (r.state == .delivering && inSet r.pendingSet b)

/-- The record has the line of a branch (R46, R62). -/
def servedOn (b : Branch) (r : Record) : Bool :=
  (r.state == .onLine && r.branch == some b) || (r.state == .delivering && inSet r.sendingSet b)

/-- The queues and assignments of the branches agree with the records (R50, R62, R63, R76): a queue holds each record that
waits on its branch once and no other, none of a branch out of service; the assignment is the record served, and only a
station record has its branch in AWAIT or RECV. -/
def QueuesAgree (s : State) : Prop :=
  ∀ b : Branch, s.branches[b].queue.Nodup ∧ (inService s b = false → s.branches[b].queue = []) ∧
    ∀ i : RecordIndex, (i ∈ s.branches[b].queue ↔ waitsOn b s.records[i] = true) ∧
      (s.branches[b].onLine = some i ↔ servedOn b s.records[i] = true) ∧
      (s.branches[b].onLine = some i → s.branches[b].status = .await ∨ s.branches[b].status = .recv →
        isStationKind s.records[i] = true)

/-- The completion list holds each ENDED record once and no other (R65). -/
def CompletionsAgree (s : State) : Prop :=
  s.completions.Nodup ∧ ∀ i : RecordIndex, i ∈ s.completions ↔ s.records[i].state = .ended

/-- A slot has a configuration unless UNSET (R130), and is ON_LINE or STOPPING exactly while a CYCLIC record, one only and
on the slot's branch, is its poll (R53, R131, R135). -/
def SlotsAgree (s : State) : Prop :=
  (∀ k : SlotIndex, (s.slots[k].config.isNone ↔ s.slots[k].state = .unset) ∧
    ((∃ i : RecordIndex, s.records[i].slot = some k) ↔ s.slots[k].state = .onLine ∨ s.slots[k].state = .stopping)) ∧
    ∀ (i j : RecordIndex) (k : SlotIndex), s.records[i].slot = some k →
      s.records[i].kind = some .cyclic ∧ s.records[i].branch = s.slots[k].config.map (fun c => c.branch) ∧
        (s.records[j].slot = some k → i = j)

/-- A block holds a buffer, by its own state (R118): the assembly while it stores, a branch while a station record is on
its line, a record its REQUEST until it ends and its ANSWER once it is answered, a slot its snapshot, the owed reply an
answer or a proxy frame, the last-response memory a response. -/
def holdsBuffer (s : State) : Holder → Bool
  | .free => false
  | .trunkAssembly => storing .trunk s
  | .branchAnswer b => s.branches[b].onLine.any fun i => isStationKind s.records[i]
  | .request i =>
    s.records[i].kind != some .cyclic &&
      (s.records[i].state == .queued || s.records[i].state == .onLine || s.records[i].state == .delivering)
  | .answer i => s.records[i].outcome == some .answered
  | .snapshot k => s.slots[k].age.isSome
  | .owedReply => s.trunk.owed == .answer || s.trunk.owed == .proxy
  | .lastResponse => s.lastCode.isSome

/-- Each block holds exactly the buffers that it should: one or none (R118). In SEND the trunk has no frame open (R18). -/
def BuffersAgree (s : State) : Prop :=
  (∀ h : Holder, h ≠ .free → heldCount h s = if holdsBuffer s h then 1 else 0) ∧
    (s.trunk.port.tx.sending = true → s.trunk.port.rx = .hunt)

/-- The records agree with themselves, and with them the queues, the completion list, the slots and the pool (R45, R50,
R65, R118). -/
def TableAgrees (s : State) : Prop :=
  (∀ i : RecordIndex, recordAgrees s.records[i] = true) ∧ QueuesAgree s ∧ CompletionsAgree s ∧ SlotsAgree s ∧
    BuffersAgree s

/-- The lines are released, as in a part held in reset: nothing is driven, TXD is at mark and nothing is heard (R185,
R186). -/
def LinesReleased (s : State) : Prop :=
  (∀ p : Port, s.driverEnabled p = false ∧ (∀ bit, s.txd p bit = true) ∧ hears s p = false) ∧ s.alertAsserted = false

end Sys2Proof.Machine
end

