-- ==== Sys2Proof/Certificates/Slice0/Obligations.lean ====
section
/-!
DEFINITION. The statements about the part, one definition each. OBLIGATIONS.json lists them with the rules and sections
they come from.
-/

open Sys2Proof Sys2Proof.Machine

/-- A step runs the command at the front of the queue (the model interface: a block takes the command at the front of
its queue). -/
def Obligations.StepRunsTheFrontCommand : Prop :=
  ∀ (c : Instr) (rest : List Instr) (s : State), s.pending = c :: rest → step s = exec c { s with pending := rest }

/-- A well-formed command runs in every state and only a term that spells no frame is refused (section 1.3, section
9.1; the model's choice in log entry 18). -/
def Obligations.OnlyIllFormedTermsAreRefused : Prop :=
  ∀ (c : Instr) (s : State),
    (c.wellFormed = true → ∃ t, exec c s = .next t) ∧ (c.wellFormed = false → exec c s = .refused .notAFrame)

/-- RESET_ASSERTED releases every line, RESET_RELEASE latches the straps and gives every block its reset values
(section 10.9, section 10.7, section 1.7, section 3.10, section 4.1, section 6.7, section 7.1; the model's choice in
log entry 11). -/
def Obligations.ResetRowsResetEveryBlock : Prop :=
  (∀ s : State, ∃ t, exec .resetAsserted s = .next t ∧ t.inReset = true ∧ LinesReleased t ∧ t.strapA = s.strapA ∧
    t.strapR = s.strapR ∧ t.pending = s.pending ∧
    t = { State.atReset s.strapA s.strapR with inReset := true, pending := s.pending }) ∧
  ∀ (strapA : BitVec 3) (strapR : BitVec 2) (s : State), ∃ t, exec (.resetRelease strapA strapR) s = .next t ∧
    t.inReset = false ∧ t.strapA = strapA ∧ t.strapR = strapR ∧ t.pending = s.pending ∧
    t.params = { mgmtAddress := 0xE0#8 + strapA.setWidth 8, trunkReserve := 2, holdTime := 50, bufLowMark := 8,
                 eventEnable := 0 } ∧
    t.trunk.port.rate = (match strapR with | 0#2 => 0 | 1#2 => 1 | 2#2 => 3 | 3#2 => 4) ∧
    t.trunk.port.guard = 2 ∧ t.trunk.port.charTimeout = 2 ∧ t.trunk.port.synchronised = false ∧
    t.trunk.port.lineRest = 0 ∧ t.trunk.port.rx = .hunt ∧ t.trunk.port.tx = .quiet ∧ t.trunk.owed = .nothing ∧
    t.trunk.pendingSetting = none ∧ (∀ n ∈ groupCounters .trunk t, n = 0) ∧
    (∀ b : Branch, t.branches[b].status = .idle ∧ t.branches[b].queue = [] ∧ t.branches[b].lastServed = .poll ∧
      t.branches[b].stalled = false ∧ t.branches[b].contentionRun = 0 ∧ t.branches[b].onLine = none ∧
      t.branches[b].windowTimer = none ∧ t.branches[b].quarantineTimer = none ∧ t.branches[b].pendingRate = none ∧
      t.branches[b].responseWindow = 100 ∧ t.branches[b].queueLimit = 4 ∧ t.branches[b].quarantine = 0 ∧
      t.branches[b].port.rate = 1 ∧ t.branches[b].port.guard = 2 ∧ t.branches[b].port.charTimeout = 2 ∧
      t.branches[b].port.synchronised = false ∧ t.branches[b].port.lineRest = 0 ∧ t.branches[b].port.rx = .hunt ∧
      t.branches[b].port.tx = .quiet ∧ ∀ n ∈ groupCounters (.branch b) t, n = 0) ∧
    (∀ j : Fin Config.entryCount, t.bankA[j] = .empty ∧ t.bankB[j] = .empty) ∧ t.activeBank = .a ∧
    (∀ i : RecordIndex, t.records[i] = .free) ∧ t.tagCounter = 1 ∧ t.completions = [] ∧
    (∀ k : SlotIndex, t.slots[k] = .unset) ∧ freeCount t = 48 ∧ t.flags = 0 ∧ t.lastCode = none ∧ t.lastSeq = none

/-- While reset is held, no row but the two reset rows has an effect (section 10.9; the model's choice in log entry
11). -/
def Obligations.NothingHappensInReset : Prop :=
  ∀ (c : Instr) (s : State), s.inReset = true → c.wellFormed = true → c ≠ .resetAsserted →
    (∀ strapA strapR, c ≠ .resetRelease strapA strapR) → exec c s = .next s

/-- RECEIVER_SYNCHRONISED, START_BIT and BREAK_END change their own port alone (section 1.1, section 1.2; the model's
choice in log entries 6, 8). -/
def Obligations.ReceiverRowsActOnTheirPort : Prop :=
  ∀ (p : Port) (s : State),
    (hears s p = true → (s.port p).inBreak = false → (s.port p).synchronised = false →
      exec (.receiverSynchronised p) s = .next (modifyPort p (fun q =>
        { q with synchronised := true, lineRest := max q.lineRest (11 * bitClocks q.rate) }) s)) ∧
    (receives s p = true →
      exec (.startBit p true) s = .next (modifyPort p (fun q => { q with charInProgress := true, lineRest := 0 }) s)) ∧
    exec (.startBit p false) s = .next s ∧
    (hears s p = true → (s.port p).inBreak = true →
      exec (.breakEnd p) s = .next (modifyPort p (fun q =>
        { q with inBreak := false, synchronised := false, lineRest := 0 }) s))

/-- An address character on the trunk truncates an open frame and claims a buffer, or is followed when none is free
(section 6.3, section 1.5, section 1.4). -/
def Obligations.TrunkAddressCharacterClaims : Prop :=
  ∀ (c : Byte) (s : State), receives s .trunk = true → s.trunk.port.tx.sending = false →
    (s.trunk.port.rx = .hunt ∨ s.trunk.port.rx = .discard →
    (0 < freeCount s → ∃ t, exec (.addressCharacter .trunk c) s = .next t ∧
      t.trunk = { s.trunk with port := { s.trunk.port with
        rx := .assemble { stored := true, got := [c] }, lineRest := 0, charInProgress := false
        gapTimeout := s.trunk.port.charTimeout } } ∧
      (∃ i : Fin Config.bufferCount, s.buffers[i].holder = .free ∧ (∀ j < i, s.buffers[j].holder ≠ .free) ∧
        t.buffers[i] = { holder := .trunkAssembly, chars := [c] } ∧ ∀ j ≠ i, t.buffers[j] = s.buffers[j]) ∧
      t.flags = claimedFlags s ∧ SameBut [.trunk, .buffers, .flags] s t) ∧
    (freeCount s = 0 → ∃ t, exec (.addressCharacter .trunk c) s = .next t ∧
      t.trunk = { s.trunk with
        counters := { s.trunk.counters with bufLost := countUp s.trunk.counters.bufLost }
        port := { s.trunk.port with
          rx := .assemble { stored := false, got := [c] }, lineRest := 0, charInProgress := false
          gapTimeout := s.trunk.port.charTimeout } } ∧
      t.flags = s.flags ||| flagMask .bufExhausted ∧ SameBut [.trunk, .flags] s t)) ∧
    ∀ a : Assembly, s.trunk.port.rx = .assemble a →
    (a.stored = true → ∃ t, exec (.addressCharacter .trunk c) s = .next t ∧
      t.trunk = { s.trunk with port := { s.trunk.port with
        rx := .assemble { stored := true, got := [c] }, lineRest := 0, charInProgress := false
        gapTimeout := s.trunk.port.charTimeout, counters := truncatedOnce s.trunk.port } } ∧
      (∀ i : Fin Config.bufferCount, t.buffers[i] =
        if s.buffers[i].holder = .trunkAssembly then { holder := .trunkAssembly, chars := [c] } else s.buffers[i]) ∧
      t.flags = s.flags ||| flagMask .lineError ∧ SameBut [.trunk, .buffers, .flags] s t) ∧
    (a.stored = false → 0 < freeCount s → ∃ t, exec (.addressCharacter .trunk c) s = .next t ∧
      t.trunk = { s.trunk with port := { s.trunk.port with
        rx := .assemble { stored := true, got := [c] }, lineRest := 0, charInProgress := false
        gapTimeout := s.trunk.port.charTimeout, counters := truncatedOnce s.trunk.port } } ∧
      (∃ i : Fin Config.bufferCount, s.buffers[i].holder = .free ∧ (∀ j < i, s.buffers[j].holder ≠ .free) ∧
        t.buffers[i] = { holder := .trunkAssembly, chars := [c] } ∧ ∀ j ≠ i, t.buffers[j] = s.buffers[j]) ∧
      t.flags = claimedFlags s ||| flagMask .lineError ∧ SameBut [.trunk, .buffers, .flags] s t) ∧
    (a.stored = false → freeCount s = 0 → ∃ t, exec (.addressCharacter .trunk c) s = .next t ∧
      t.trunk = { s.trunk with
        counters := { s.trunk.counters with bufLost := countUp s.trunk.counters.bufLost }
        port := { s.trunk.port with
          rx := .assemble { stored := false, got := [c] }, lineRest := 0, charInProgress := false
          gapTimeout := s.trunk.port.charTimeout, counters := truncatedOnce s.trunk.port } } ∧
      t.flags = s.flags ||| flagMask .lineError ||| flagMask .bufExhausted ∧ SameBut [.trunk, .flags] s t)

/-- An address character on a branch in IDLE or LEAD is unsolicited; in FAULT it is only followed (section 4.1,
section 1.5). -/
def Obligations.UnsolicitedAddressCharacter : Prop :=
  ∀ (b : Branch) (c : Byte) (s : State), receives s (.branch b) = true → s.branches[b].port.tx.sending = false →
    let x := s.branches[b]
    let q : PortState := { x.port with
      rx := .assemble { stored := false, got := [c] }, lineRest := 0, charInProgress := false
      gapTimeout := x.port.charTimeout, counters := truncatedOnce x.port }
    (x.status = .idle ∨ x.status = .lead → ∃ t, exec (.addressCharacter (.branch b) c) s = .next t ∧
      t.branches[b] = { x with
        port := q, counters := { x.counters with unsolicited := countUp x.counters.unsolicited } } ∧
      t.flags = truncatedFlags x.port s.flags ||| flagMask .unsolicited ∧ SameBut [.branch b, .flags] s t) ∧
    (x.status = .fault → ∃ t, exec (.addressCharacter (.branch b) c) s = .next t ∧
      t.branches[b] = { x with port := q } ∧ t.flags = truncatedFlags x.port s.flags ∧
      SameBut [.branch b, .flags] s t)

/-- The first address character in AWAIT begins the answer, and one in RECV begins it again (section 4.3, section
1.5). -/
def Obligations.AnswerBeginsOnABranch : Prop :=
  ∀ (b : Branch) (c : Byte) (s : State), receives s (.branch b) = true → s.branches[b].port.tx.sending = false →
    s.branches[b].status = .await ∨ s.branches[b].status = .recv →
    let x := s.branches[b]
    ∃ t, exec (.addressCharacter (.branch b) c) s = .next t ∧
      t.branches[b] = { x with
        status := .recv, windowTimer := none
        port := { x.port with
          rx := .assemble { stored := true, got := [c] }, lineRest := 0, charInProgress := false
          gapTimeout := x.port.charTimeout, counters := truncatedOnce x.port } } ∧
      (∀ i : Fin Config.bufferCount, t.buffers[i] =
        if s.buffers[i].holder = .branchAnswer b then { holder := .branchAnswer b, chars := [c] }
        else s.buffers[i]) ∧
      t.flags = truncatedFlags x.port s.flags ∧ SameBut [.branch b, .buffers, .flags] s t

/-- A data character takes the next position, is ignored in DISCARD, or is outside a frame in HUNT (section 1.4,
section 1.2, section 4.3). -/
def Obligations.DataCharacterReceived : Prop :=
  ∀ (p : Port) (c : Byte) (s : State), receives s p = true → (s.port p).tx.sending = false →
    let rested := modifyPort p (fun q =>
      { q with lineRest := 0, charInProgress := false, gapTimeout := q.charTimeout }) s
    (∀ a : Assembly, (s.port p).rx = .assemble a → (a.got.length = 1 → c.toNat ≤ 60) →
      ¬ (2 ≤ (a.got ++ [c]).length ∧ (a.got ++ [c]).length = 4 + frameCount (a.got ++ [c])) →
      exec (.dataCharacter p c) s = .next (modifyPort p (fun q =>
        { q with rx := .assemble { stored := a.stored, got := a.got ++ [c] } })
        (if a.stored then writeBuffer (assemblyHolder p) (a.got ++ [c]) rested else rested))) ∧
    ((s.port p).rx = .discard → exec (.dataCharacter p c) s = .next rested) ∧
    ((s.port p).rx = .hunt → exec (.dataCharacter p c) s = .next
      (match p with
        | .trunk => rested
        | .branch b => if s.branches[b].status = .await then raise .lineError rested else rested))

/-- A COUNT above 60 makes the frame malformed: counted as truncated, its buffer returned, DISCARD (section 1.4,
section 1.5). -/
def Obligations.MalformedCountDiscardsTheFrame : Prop :=
  ∀ (p : Port) (a : Assembly) (c : Byte) (s : State), receives s p = true → (s.port p).tx.sending = false →
    (s.port p).rx = .assemble a → p = .trunk ∨ a.stored = false → a.got.length = 1 → 60 < c.toNat →
    ∃ t, exec (.dataCharacter p c) s = .next t ∧
      t.port p = { s.port p with
        rx := .discard, lineRest := 0, charInProgress := false, gapTimeout := (s.port p).charTimeout
        counters := truncatedOnce (s.port p) } ∧
      modifyPort p (fun _ => s.port p) { t with buffers := s.buffers, flags := s.flags } = s ∧
      t.flags = s.flags ||| flagMask .lineError ∧ truncatedFrames p s t

/-- A check error returns the trunk buffer, and a frame a branch follows only counts (section 1.4, section 1.5,
section 5.2). -/
def Obligations.FrameCompletesWithoutAnAction : Prop :=
  ∀ (p : Port) (a : Assembly) (c : Byte) (s : State), receives s p = true → (s.port p).tx.sending = false →
    (s.port p).rx = .assemble a → frameComplete (a.got ++ [c]) = true →
    let chars := a.got ++ [c]
    let q : PortState := { s.port p with
      rx := .hunt, lineRest := 0, charInProgress := false, gapTimeout := (s.port p).charTimeout }
    (checkMatches chars = false → p = .trunk ∨ a.stored = false →
      ∃ t, exec (.dataCharacter p c) s = .next t ∧
        t.port p = { q with counters := { q.counters with checkErrors := countUp q.counters.checkErrors } } ∧
        modifyPort p (fun _ => s.port p) { t with buffers := s.buffers, flags := s.flags } = s ∧
        t.flags = s.flags ||| flagMask .lineError ∧ truncatedFrames p s t) ∧
    (checkMatches chars = true → ∀ b, p = .branch b → a.stored = false →
      exec (.dataCharacter p c) s = .next (modifyPort p (fun _ =>
        { q with counters := { q.counters with framesRxGood := countUp q.counters.framesRxGood } }) s))

/-- A framing error, a character timeout and a break each end an open frame once (section 1.1, section 1.4, section
1.5; the model's choice in log entries 4, 6, 9, 1). -/
def Obligations.LineErrorsCutTheOpenFrame : Prop :=
  ∀ (p : Port) (s : State), storesAnswer p s = false →
    let q := s.port p
    (receives s p = true → q.tx.sending = false → ∃ t, exec (.framingError p) s = .next t ∧
      t.port p = { q with
        rx := .hunt, lineRest := 0, charInProgress := false, gapTimeout := q.charTimeout
        counters := truncatedOnce q } ∧
      modifyPort p (fun _ => q) { t with buffers := s.buffers, flags := s.flags } = s ∧
      t.flags = s.flags ||| flagMask .lineError ∧ truncatedFrames p s t) ∧
    (hears s p = true → q.charInProgress = false → q.rx ≠ .hunt → ∃ t, exec (.characterTimeout p) s = .next t ∧
      t.port p = { q with
        rx := .hunt, lineRest := max q.lineRest (q.gapTimeout * (11 * bitClocks q.rate) + 1)
        counters := truncatedOnce q } ∧
      modifyPort p (fun _ => q) { t with buffers := s.buffers, flags := s.flags } = s ∧
      t.flags = truncatedFlags q s.flags ∧ truncatedFrames p s t) ∧
    (q.rx = .hunt → exec (.characterTimeout p) s = .next s) ∧
    (hears s p = true → q.inBreak = false → q.tx.sending = false → ∃ t, exec (.lineBreak p) s = .next t ∧
      t.port p = { q with
        rx := .hunt, inBreak := true, lineRest := 0, charInProgress := false, counters := truncatedOnce q } ∧
      modifyPort p (fun _ => q) { t with buffers := s.buffers, flags := s.flags } = s ∧
      t.flags = s.flags ||| flagMask .lineError ∧ truncatedFrames p s t) ∧
    (q.inBreak = true → exec (.lineBreak p) s = .next s)

/-- A met guard takes a port in LEAD to SEND with its driver enabled (section 1.6, section 1.2, section 4.3, section
5.3, section 10.9; the model's choice in log entries 4, 6, 1). -/
def Obligations.GuardMetEntersSend : Prop :=
  ∀ (p : Port) (f : TxFrame) (s : State), (s.port p).tx = .lead f →
    let q := s.port p
    (receives s p = true → q.charInProgress = false → ∃ t, exec (.guardMet p) s = .next t ∧
      t.port p = { q with
        tx := .send f 0, rx := .hunt, lineRest := 0, counters := truncatedOnce q } ∧
      t.driverEnabled p = true ∧ (∀ bit, t.txd p bit = (characterLevels f.address true).getD bit true) ∧
      t.flags = truncatedFlags q s.flags ∧ truncatedFrames p s t ∧
      (∀ b, p = .branch b → t.branches[b] = { s.branches[b] with port := t.branches[b].port, status := .send }) ∧
      (p = .trunk → t.trunk = { s.trunk with port := t.trunk.port }) ∧
      SameBut [portPart p, .buffers, .flags] s t) ∧
    (receives s p = false ∨ q.charInProgress = true → exec (.guardMet p) s = .next s)

/-- In SEND each character heard is compared with the character sent (section 1.6, section 1.1, section 10.9; the
model's choice in log entries 14, 9). -/
def Obligations.EchoIsCompared : Prop :=
  ∀ (p : Port) (f : TxFrame) (k : Nat) (c : Byte) (s : State), hears s p = true → (s.port p).tx = .send f k →
    let chars := mkFrame f.address f.data
    let heard : Instr := if k = 0 then .addressCharacter p c else .dataCharacter p c
    let otherMark : Instr := if k = 0 then .dataCharacter p c else .addressCharacter p c
    (∀ d bit, chars[k]? = some d → s.txd p bit = (characterLevels d (decide (k = 0))).getD bit true) ∧
    (chars[k]? = some c → k + 1 < chars.length → exec heard s = .next (modifyPort p (fun q =>
      { q with tx := .send f (k + 1), lineRest := 0, charInProgress := false }) s)) ∧
    (chars[k]? = some c → k + 1 = chars.length → exec heard s = exec (sentRow p) s) ∧
    (chars[k]? ≠ some c → exec heard s = exec (lostRow p) s) ∧ exec otherMark s = exec (lostRow p) s ∧
    exec (.framingError p) s = exec (lostRow p) s ∧
    ((s.port p).inBreak = false → ∃ t, exec (lostRow p) s = .next t ∧ exec (.lineBreak p) s = .next
      (raise .lineError (modifyPort p (fun q => { q with inBreak := true, lineRest := 0, charInProgress := false }) t)))

/-- The characters of a frame, heard one by one on the trunk, come to the whole-frame row (section 1.3, section 1.4,
section 5.2; the model's choice in log entry 2). -/
def Obligations.CharactersMakeTheGoodFrame : Prop :=
  ∀ (address : Byte) (data : List Byte) (s : State), data.length ≤ 60 → receives s .trunk = true →
    s.trunk.port.tx.sending = false → opensWith .trunk (mkFrame address data) s = false →
    runRows (frameRows .trunk (mkFrame address data)) s = exec (.trunkGoodFrame address data) s

/-- ANSWER_END comes to the characters that remain of the answer, or to what cuts it short (section 4.3, section 1.5,
section 1.4; the model's choice in log entries 15, 4, 6, 9). -/
def Obligations.AnswerEndIsItsCharacters : Prop :=
  ∀ (b : Branch) (a : Assembly) (s : State), receives s (.branch b) = true →
    s.branches[b].port.tx.sending = false → s.branches[b].status = .recv → s.branches[b].port.rx = .assemble a →
    let p := Port.branch b
    let x := s.branches[b].port
    (∀ (address : Byte) (data : List Byte) (check : Word), a.got = [address] → data.length ≤ 60 →
      runRows ((frameRows p (frameBody address data ++ bytesOfWord check)).drop 1) s =
        exec (.answerEnd b (.complete data check)) s) ∧
    (∀ (address count : Byte), a.got = [address] → 60 < count.toNat →
      exec (.dataCharacter p count) s = exec (.answerEnd b (.malformed count)) s) ∧
    ∃ t, exec (.answerEnd b .truncated) s = .next t ∧
      exec (.framingError p) s = .next
        (raise .lineError (modifyPort p (fun q => { q with lineRest := 0, gapTimeout := q.charTimeout }) t)) ∧
      (x.charInProgress = false → exec (.characterTimeout p) s = .next (modifyPort p (fun q =>
        { q with lineRest := max q.lineRest (x.gapTimeout * (11 * bitClocks x.rate) + 1) }) t)) ∧
      exec (.lineBreak p) s = .next
        (raise .lineError (modifyPort p (fun q => { q with inBreak := true, lineRest := 0 }) t))

/-- The clean end of a reply, and contention, finish the owed reply and settle the pending setting (section 5.3,
section 5.5, section 1.6; the model's choice in log entry 27). -/
def Obligations.TrunkReplyEnds : Prop :=
  ∀ s : State, s.inReset = false → s.trunk.port.tx.sending = true →
    (∃ t, exec .trunkReplySent s = .next t ∧ ReplyFinished s t ∧
      t.trunk.port.counters =
        { s.trunk.port.counters with framesTx := countUp s.trunk.port.counters.framesTx } ∧
      SameBut [.trunk, .buffers, .params, .lastCommand] s t) ∧
    ∃ t, exec .trunkContention s = .next t ∧ ReplyFinished s t ∧
      t.trunk.port.counters =
        { s.trunk.port.counters with contentions := countUp s.trunk.port.counters.contentions } ∧
      t.flags = s.flags ||| flagMask .contention ∧ SameBut [.trunk, .buffers, .params, .lastCommand, .flags] s t

/-- A good trunk frame with no buffer supersedes and is neither classified nor executed (section 5.2, section 6.3,
section 3.6; the model's choice in log entry 2). -/
def Obligations.SupersedeByAFollowedFrame : Prop :=
  ∀ (address : Byte) (data : List Byte) (s : State), data.length ≤ 60 → receives s .trunk = true →
    s.trunk.port.tx.sending = false → s.trunk.port.rx = .hunt ∨ s.trunk.port.rx = .discard → freeCount s = 0 →
    ∃ t, exec (.trunkGoodFrame address data) s = .next t ∧ t.trunk.owed = .nothing ∧
      t.trunk.counters = { s.trunk.counters with
        bufLost := countUp s.trunk.counters.bufLost
        superseded := if s.trunk.owed = .nothing then s.trunk.counters.superseded
          else countUp s.trunk.counters.superseded } ∧
      t.trunk.port.counters =
        { s.trunk.port.counters with framesRxGood := countUp s.trunk.port.counters.framesRxGood } ∧
      t.flags = s.flags ||| flagMask .bufExhausted ∧
      (∀ i, liveTransparent s = some i → t.records[i] =
        if s.records[i].state = .queued then Record.free else { s.records[i] with abandoned := true }) ∧
      (∀ j, liveTransparent s ≠ some j → t.records[j] = s.records[j]) ∧
      t.trunk.pendingSetting = none ∧ t.params = { s.params with mgmtAddress := settledAddress s } ∧
      (∀ code, s.trunk.pendingSetting = some (.trunkRate code) →
        t.trunk.port.rate = code ∧ t.trunk.port.synchronised = false) ∧
      ((∀ a, s.trunk.pendingSetting ≠ some (.mgmtAddress a)) → t.lastCode = s.lastCode ∧ t.lastSeq = s.lastSeq) ∧
      (∀ a, s.trunk.pendingSetting = some (.mgmtAddress a) → t.lastCode = none ∧ t.lastSeq = none) ∧
      SameBut ([.trunk, .records, .buffers, .params, .flags, .lastCommand, .completions] ++ branchParts) s t

/-- A good stored frame addressed 00h is discarded and counted UNROUTED (R32). -/
def Obligations.VoidFrameDiscarded : Prop :=
  (∀ (data : List Byte) (s : State), data.length ≤ 60 → trunkReady s = true →
    isStationAddress (settledAddress s) = true →
    let counters := (superseded s).trunk.counters
    ∃ t, exec (.trunkGoodFrame 0x00#8 data) s = .next t ∧
      FrameDropped (mkFrame 0x00#8 data) { counters with unrouted := countUp counters.unrouted } (flagMask .unrouted)
        s t ∧
      flagSet .unrouted t = true ∧ heldFrame .trunkAssembly t = none ∧ t.bankA = s.bankA ∧ t.bankB = s.bankB ∧
      CommandKept [.trunk, .flags] s t) ∧
  ∀ e : RouteEntry, entryMatches e 0x00#8 = false

/-- A miss, a blocked entry and a void rewrite are each discarded and counted UNROUTED (section 2.2, section 2.1). -/
def Obligations.UnroutedFrameDiscarded : Prop :=
  ∀ (a : Byte) (data : List Byte) (s : State), data.length ≤ 60 → trunkReady s = true →
    isStationAddress (settledAddress s) = true → (isStationAddress a = true ∨ isGroupAddress a = true) →
    a ≠ settledAddress s →
    (∀ j, lookup s a = some j → (activeEntry s j).mode ≠ .pass ∨ outgoing (activeEntry s j) a = 0x00#8) →
    let counters := (superseded s).trunk.counters
    ∃ t, exec (.trunkGoodFrame a data) s = .next t ∧
      FrameDropped (mkFrame a data) { counters with unrouted := countUp counters.unrouted } (flagMask .unrouted) s t ∧
      flagSet .unrouted t = true ∧ heldFrame .trunkAssembly t = none ∧ hitCounted s (lookup s a) t ∧
      CommandKept [bankPart s.activeBank, .trunk, .flags] s t

/-- A station frame that selects a PASS entry creates a TRANSPARENT record (section 2.2, section 3.3, section 5.1). -/
def Obligations.TransparentFrameAccepted : Prop :=
  ∀ (a : Byte) (data : List Byte) (j : Fin Config.entryCount) (i : RecordIndex) (s : State), data.length ≤ 60 →
    trunkReady s = true → isStationAddress (settledAddress s) = true → isStationAddress a = true →
    a ≠ settledAddress s → lookup s a = some j →
    let e := activeEntry s j
    let b := stationBranch e
    e.mode = .pass → outgoing e a ≠ 0x00#8 → inService s b = true → lowestFreeRecord (superseded s) = some i →
    ∃ t, exec (.trunkGoodFrame a data) s = .next t ∧
      t.records[i] = { Record.free with
        kind := some .transparent, state := .queued, trunkAddress := some a, lineAddress := outgoing e a
        branch := some b, retriesLeft := e.retries, notify := e.notify } ∧
      (∀ k ≠ i, t.records[k] = (superseded s).records[k]) ∧
      t.branches[b] = { (superseded s).branches[b] with queue := i :: (superseded s).branches[b].queue } ∧
      (∀ d ≠ b, t.branches[d] = (superseded s).branches[d]) ∧ holdsFrame (.request i) (mkFrame a data) t ∧
      heldFrame .trunkAssembly t = none ∧ t.trunk.owed = .pendingAnswer i ∧ hitCounted s (some j) t ∧
      CommandKept ([bankPart s.activeBank, .trunk, .buffers, .records] ++ branchParts) s t

/-- A station frame whose branch is out of service, or that finds no record, is refused (section 2.2, section 5.4). -/
def Obligations.TransparentFrameRefused : Prop :=
  ∀ (a : Byte) (data : List Byte) (j : Fin Config.entryCount) (s : State), data.length ≤ 60 → trunkReady s = true →
    isStationAddress (settledAddress s) = true → isStationAddress a = true → a ≠ settledAddress s →
    lookup s a = some j →
    let e := activeEntry s j
    e.mode = .pass → outgoing e a ≠ 0x00#8 →
    inService s (stationBranch e) = false ∨ freeRecords (superseded s) = 0 →
    OwedAgrees s →
    let reason : Byte := if inService s (stationBranch e) = false then 0x04#8 else 0x05#8
    let counters := { (superseded s).trunk.counters with
      refused := countUp (superseded s).trunk.counters.refused }
    ∃ t, exec (.trunkGoodFrame a data) s = .next t ∧ flagSet .refused t = true ∧
      heldFrame .trunkAssembly t = none ∧ hitCounted s (some j) t ∧ memoryKept (superseded s) t ∧
      (e.notify = true →
        t.trunk = { (superseded s).trunk with
          owed := .proxy, counters := counters
          port := { receivedPort (mkFrame a data) s with
            tx := .lead { address := settledAddress s, data := [0x7F#8, a, reason] }
            guardInUse := s.trunk.port.guard } } ∧
        heldFrame .owedReply t = some (mkFrame (settledAddress s) [0x7F#8, a, reason]) ∧
        t.flags ||| receiptFlags = s.flags ||| receiptFlags ||| flagMask .refused ∧
        (storing .trunk s = false → heldFrame .trunkAssembly s = none →
          freeCount t + 1 = freeCount (superseded s))) ∧
      (e.notify = false → FrameDropped (mkFrame a data) counters (flagMask .refused) s t ∧
        heldFrame .owedReply t = none) ∧
      CommandKept [bankPart s.activeBank, .trunk, .flags] s t

/-- A group frame or all-call creates one GROUP record queued on every branch of its set in service (section 2.2,
section 3.3). -/
def Obligations.GroupFrameDelivered : Prop :=
  ∀ (a : Byte) (data : List Byte) (s : State), data.length ≤ 60 → trunkReady s = true →
    isStationAddress (settledAddress s) = true →
    ∀ (line : Byte) (x : BranchSet) (selected : Option (Fin Config.entryCount)),
      (a = 0xFF#8 ∧ line = 0xFF#8 ∧ x = 0xF#4 ∧ selected = none) ∨
      (isGroupAddress a = true ∧ lookup s a = selected ∧ ∃ j, selected = some j ∧
        (activeEntry s j).mode = .pass ∧ line = outgoing (activeEntry s j) a ∧ line ≠ 0x00#8 ∧
        x = (activeEntry s j).branches) →
    let u := superseded s
    let serving := fun b => inSet x b && inService s b
    let refused := { u.trunk.counters with refused := countUp u.trunk.counters.refused }
    ∃ t, exec (.trunkGoodFrame a data) s = .next t ∧ t.trunk.owed = .nothing ∧ heldFrame .trunkAssembly t = none ∧
      memoryKept u t ∧ hitCounted s selected t ∧
      ((∃ b, serving b = true) → ∀ i, lowestFreeRecord u = some i →
        t.records[i] = { Record.free with
          kind := some .group, state := .delivering, lineAddress := line, pendingSet := t.records[i].pendingSet } ∧
        (∀ b, inSet t.records[i].pendingSet b = serving b) ∧ (∀ k ≠ i, t.records[k] = u.records[k]) ∧
        holdsFrame (.request i) (mkFrame a data) t ∧
        (∀ h ∈ exchangeHolders, h ≠ .request i → heldFrame h t = heldFrame h u) ∧
        (∀ n : Fin Config.bufferCount,
          if u.buffers[n].holder = .free ∨ u.buffers[n].holder = .trunkAssembly then
            t.buffers[n].holder = .free ∨ t.buffers[n] = { holder := .request i, chars := mkFrame a data }
          else t.buffers[n] = u.buffers[n]) ∧
        (∀ b : Branch, t.branches[b] = { u.branches[b] with
          queue := if serving b then u.branches[b].queue ++ [i] else u.branches[b].queue }) ∧
        t.trunk = { u.trunk with port := receivedPort (mkFrame a data) s } ∧
        CommandKept ([bankPart s.activeBank, .trunk, .buffers, .records] ++ branchParts) s t) ∧
      ((∀ b, serving b = false) → FrameDropped (mkFrame a data) refused 0 s t ∧
        CommandKept [bankPart s.activeBank, .trunk] s t) ∧
      ((∃ b, serving b = true) → freeRecords u = 0 → FrameDropped (mkFrame a data) refused (flagMask .refused) s t ∧
        flagSet .refused t = true ∧ CommandKept [bankPart s.activeBank, .trunk, .flags] s t)

/-- A lookup selects the lowest-indexed entry that matches within its class, and a rewrite replaces the masked bits
(section 2.1). -/
def Obligations.LookupMatchesAndRewrites : Prop :=
  ∀ (s : State) (e : RouteEntry) (a : Byte),
    (entryMatches e a = true ↔ e.valid = true ∧ a &&& e.mask = e.pattern &&& e.mask ∧
      (e.kind = .station → 0x01 ≤ a.toNat ∧ a.toNat ≤ 0xEF) ∧ (e.kind = .group → 0xF0 ≤ a.toNat ∧ a.toNat ≤ 0xFE)) ∧
    (∀ j, lookup s a = some j ↔ entryMatches (s.bank s.activeBank)[j] a = true ∧
      ∀ k < j, entryMatches (s.bank s.activeBank)[k] a = false) ∧
    (lookup s a = none ↔ ∀ j : Fin Config.entryCount, entryMatches (s.bank s.activeBank)[j] a = false) ∧
    (e.rewrite = none → outgoing e a = a) ∧
    ∀ base, e.rewrite = some base → ∀ i < 8,
      (outgoing e a).getLsbD i = if e.mask.getLsbD i then base.getLsbD i else a.getLsbD i

/-- A command with the last code and the last non-zero sequence is answered from the last-response memory (section
9.1, section 5.4). -/
def Obligations.CommandReplayed : Prop :=
  ∀ (code seq : Byte) (args chars : List Byte) (s : State), args.length + 2 ≤ 60 → trunkReady s = true →
    (superseded s).lastCode = some code → (superseded s).lastSeq = some seq → seq ≠ 0x00#8 →
    heldFrame .lastResponse (superseded s) = some chars →
    ∃ t, exec (.trunkGoodFrame (settledAddress s) (code :: seq :: args)) s = .next t ∧
      t.trunk.counters = { (superseded s).trunk.counters with replays := countUp s.trunk.counters.replays } ∧
      heldFrame .trunkAssembly t = none ∧ t.trunk.owed = .response ∧ memoryKept (superseded s) t ∧
      t.trunk.port.tx = .lead { address := frameAddress chars, data := frameData chars } ∧ CommandKept [.trunk] s t

/-- Each management command row is the trunk frame that carries its bytes (section 10.2, section 10.4, section 10.5,
section 10.6; the model's choice in log entry 3). -/
def Obligations.CommandRowsAreTheirFrames : Prop :=
  ∀ (q a b c : Byte) (w : Word) (e : Vector Byte 9) (l : List Byte) (s : State),
    let frame := fun data => exec (.trunkGoodFrame (settledAddress s) data) s
    let high := w.extractLsb' 8 8
    let low := w.extractLsb' 0 8
    exec (.identify q) s = frame [0x01#8, q] ∧ exec (.getParam q a) s = frame [0x02#8, q, a] ∧
    exec (.setParam q a w) s = frame [0x03#8, q, a, high, low] ∧
    exec (.readEntry q a b c) s = frame [0x08#8, q, a, b, c] ∧
    exec (.writeEntry q a b e) s = frame ([0x09#8, q, a, b] ++ e.toList) ∧
    exec (.clearEntry q a b) s = frame [0x0A#8, q, a, b] ∧ exec (.copyBank q) s = frame [0x0B#8, q] ∧
    exec (.swapBanks q) s = frame [0x0C#8, q] ∧ exec (.submit q a l) s = frame ([0x10#8, q, a] ++ l) ∧
    exec (.collect q a b) s = frame [0x11#8, q, a, b] ∧ exec (.collectNext q a) s = frame [0x12#8, q, a] ∧
    exec (.cancel q a) s = frame [0x13#8, q, a] ∧ exec (.listPending q) s = frame [0x14#8, q] ∧
    exec (.pollSet q a b c w l) s = frame ([0x18#8, q, a, b, c, high, low] ++ l) ∧
    exec (.pollSetUnset q a) s = frame [0x18#8, q, a] ∧
    exec (.pollStart q a w) s = frame [0x19#8, q, a, high, low] ∧
    exec (.pollStop q a) s = frame [0x1A#8, q, a] ∧ exec (.pollRead q a) s = frame [0x1B#8, q, a] ∧
    exec (.readSnapshot q a b) s = frame [0x1C#8, q, a, b] ∧ exec (.readEvents q) s = frame [0x20#8, q] ∧
    exec (.clearEvents q w) s = frame [0x21#8, q, high, low] ∧
    exec (.readCounters q a b) s = frame [0x22#8, q, a, b] ∧
    exec (.branchControlQuery q a) s = frame [0x28#8, q, a, 0x00#8] ∧
    exec (.branchControlEnable q a) s = frame [0x28#8, q, a, 0x01#8] ∧
    exec (.branchControlDisable q a) s = frame [0x28#8, q, a, 0x02#8] ∧ exec (.restart q) s = frame [0x2F#8, q] ∧
    (receives s .trunk = false ∨ s.trunk.port.tx.sending = true → l.length ≤ 60 →
      exec (.trunkGoodFrame a l) s = .next s)

/-- A short management frame is discarded, an unknown code is BAD_COMMAND, and a wrong length BAD_LENGTH (section 9.1,
section 10.4). -/
def Obligations.EnvelopeIsChecked : Prop :=
  (∀ (data : List Byte) (s : State), data.length < 2 → trunkReady s = true →
    ∃ t, exec (.trunkGoodFrame (settledAddress s) data) s = .next t ∧
      t.trunk.counters = { (superseded s).trunk.counters with
        mgmtMalformed := countUp s.trunk.counters.mgmtMalformed } ∧
      heldFrame .trunkAssembly t = none ∧ t.trunk.owed = .nothing ∧ memoryKept (superseded s) t ∧
      CommandKept [.trunk] s t) ∧
  ∀ (code seq : Byte) (args : List Byte) (s : State), args.length + 2 ≤ 60 → commandReady code seq s = true →
    ((∀ c : CommandCode, commandByte c ≠ code) →
      ∃ t, exec (.trunkGoodFrame (settledAddress s) (code :: seq :: args)) s = .next t ∧
        AnsweredOnly s code seq .badCommand [] t) ∧
    ∀ c : CommandCode, commandByte c = code → allowedLength c args.length = false →
      ∃ t, exec (.trunkGoodFrame (settledAddress s) (code :: seq :: args)) s = .next t ∧
        AnsweredOnly s code seq .badLength [] t

/-- IDENTIFY returns the codes, straps and capacities; LIST_PENDING the live deferred records (section 9.3, section
9.5, section 10.5, section 10.8). -/
def Obligations.IdentifyAndListPending : Prop :=
  ∀ (seq : Byte) (s : State),
    (commandReady 0x01#8 seq s = true → ∃ t, exec (.identify seq) s = .next t ∧
      AnsweredOnly s 0x01#8 seq .ok [0x4F#8, 0x04#8, 0x01#8, s.strapA.setWidth 8, s.strapR.setWidth 8, 0x04#8,
        0x30#8, 0x10#8, 0x18#8, 0x08#8] t) ∧
    (commandReady 0x14#8 seq s = true → ∃ t, exec (.listPending seq) s = .next t ∧
      let live := s.records.toList.filter fun r => r.kind == some .deferred && r.state != .free
      AnsweredOnly s 0x14#8 seq .ok (BitVec.ofNat 8 live.length :: (live.map fun r =>
        [r.tag.getD 0,
         (match r.state with
          | .queued => 0x01#8
          | .onLine => if r.cancelPending then 0x03#8 else 0x02#8
          | .ended => 0x04#8
          | .free | .delivering => 0x00#8),
         (r.branch.map fun b => BitVec.ofNat 8 b.val).getD 0]).flatten) t)

/-- GET_PARAM returns a parameter as last accepted, and refuses an index that names none (section 9.3, section 10.7).
-/
def Obligations.GetParamReads : Prop :=
  ∀ (seq index : Byte) (s : State), commandReady 0x02#8 seq s = true →
    ∃ t, exec (.getParam seq index) s = .next t ∧
      match paramOf index with
      | none => AnsweredOnly s 0x02#8 seq .badArgument [] t
      | some p => AnsweredOnly s 0x02#8 seq .ok (index :: wordBytes (paramValue (superseded s) p)) t

/-- SET_PARAM refuses in its order, and otherwise stores the value of that parameter alone (section 1.7, section 9.3,
section 5.5, section 4.6, section 3.3). -/
def Obligations.SetParamWrites : Prop :=
  ∀ (seq index : Byte) (v : Word) (s : State), commandReady 0x03#8 seq s = true →
    ∃ t, exec (.setParam seq index v) s = .next t ∧
      match paramOf index with
      | none => AnsweredOnly s 0x03#8 seq .badArgument [] t
      | some p =>
        if paramInRange p v = false then AnsweredOnly s 0x03#8 seq .badArgument [] t
        else if (∃ b, p = .queueLimit b ∧ v.toNat < deferredCount s b) then
          AnsweredOnly s 0x03#8 seq .limitBelowUse [] t
        else
          Answered s 0x03#8 seq .ok [index, v.extractLsb' 8 8, v.extractLsb' 0 8] t ∧
          (∀ other index', paramOf index' = some other → other ≠ p →
            paramValue t other = paramValue (superseded s) other) ∧
          (∀ (a : Byte), p = .mgmtAddress → a.toNat = v.toNat →
            t.trunk.pendingSetting = some (.mgmtAddress a) ∧ t.params.mgmtAddress = settledAddress s) ∧
          (p = .rate .trunk → t.trunk.pendingSetting = some (.trunkRate v.toNat) ∧
            t.trunk.port.rate = (superseded s).trunk.port.rate) ∧
          (p ≠ .mgmtAddress → p ≠ .rate .trunk → (BranchesAgree s → paramValue t p = v.toNat) ∧
            t.trunk.pendingSetting = none) ∧
          (∀ b : Branch, t.branches[b] = branchUnder p v.toNat b (superseded s).branches[b] ∧
            ∀ a, p = .rate (.branch b) → s.branches[b].status.onLine = false →
              s.branches[b].port.rx = .assemble a → flagSet .lineError t = true) ∧
          t.flags ||| receiptFlags = s.flags ||| receiptFlags ∧
          t.trunk.port.guardInUse = paramValue t (.guard .trunk) ∧
          t.trunk.port.gapTimeout = s.trunk.port.charTimeout ∧
          t.trunk.counters = (superseded s).trunk.counters ∧ exchangeFramesKept (superseded s) t ∧
          SameBut ([.trunk, .buffers, .flags, .params, .lastCommand] ++ branchParts) (superseded s) t

/-- READ_ENTRY returns an entry as it stands and clears its HITS when asked (section 2.4, section 10.6, section 9.4).
-/
def Obligations.ReadEntryReads : Prop :=
  ∀ (seq bank index clear : Byte) (s : State), commandReady 0x08#8 seq s = true →
    ∃ t, exec (.readEntry seq bank index clear) s = .next t ∧
      if 2 ≤ bank.toNat ∨ 24 ≤ index.toNat ∨ 2 ≤ clear.toNat then AnsweredOnly s 0x08#8 seq .badArgument [] t
      else
        ∀ (k : Bank) (j : Fin Config.entryCount), bankCode k = bank → j.val = index.toNat →
          let e := (s.bank k)[j]
          Answered s 0x08#8 seq .ok ([bank, index, if e.valid then 0x01#8 else 0x00#8,
              (match e.kind with | .station => 0x00#8 | .group => 0x01#8), e.pattern, e.mask,
              e.branches.setWidth 8, (match e.mode with | .pass => 0x00#8 | .deferOnly => 0x01#8 | .block => 0x02#8),
              (if e.rewrite.isSome then 0x01#8 else 0x00#8), e.rewrite.getD 0x00#8, BitVec.ofNat 8 e.retries,
              (if e.notify then 0x01#8 else 0x00#8)] ++ wordBytes e.hits) t ∧
            (t.bank k)[j] = (if clear = 0x01#8 then { e with hits := 0 } else e) ∧
            (∀ i ≠ j, (t.bank k)[i] = (s.bank k)[i]) ∧ CommandKept [bankPart k] s t

/-- WRITE_ENTRY makes its checks in order and replaces the whole entry of the inactive bank (section 2.4, section
10.6). -/
def Obligations.WriteEntryWrites : Prop :=
  ∀ (seq bank index : Byte) (e : Vector Byte 9) (s : State), commandReady 0x09#8 seq s = true →
    let station := e[0] = 0x00#8
    ∃ t, exec (.writeEntry seq bank index e) s = .next t ∧
      if 2 ≤ bank.toNat ∨ 24 ≤ index.toNat then AnsweredOnly s 0x09#8 seq .badArgument [] t
      else if bank = bankCode s.activeBank then AnsweredOnly s 0x09#8 seq .activeBank [] t
      else if ¬ (e[0].toNat ≤ 1 ∧ e[4].toNat ≤ 2 ∧ ¬ (e[4] = 0x01#8 ∧ e[0] = 0x01#8) ∧ e[5].toNat ≤ 1 ∧
          (if station then e[3] = 0x01#8 ∨ e[3] = 0x02#8 ∨ e[3] = 0x04#8 ∨ e[3] = 0x08#8
            else 1 ≤ e[3].toNat ∧ e[3].toNat ≤ 15) ∧
          e[7].toNat ≤ (if station then 3 else 0) ∧
          (e[8] = 0x00#8 ∨ (e[8] = 0x01#8 ∧ station ∧ e[4] = 0x00#8))) then
        AnsweredOnly s 0x09#8 seq .badArgument [] t
      else
        ∀ (k : Bank) (j : Fin Config.entryCount), bankCode k = bank → j.val = index.toNat →
          Answered s 0x09#8 seq .ok [bank, index] t ∧
            (t.bank k)[j] = {
              valid := true, kind := if station then .station else .group, pattern := e[1], mask := e[2]
              branches := e[3].setWidth 4
              mode := if e[4] = 0x00#8 then .pass else if e[4] = 0x01#8 then .deferOnly else .block
              rewrite := if e[5] = 0x01#8 then some e[6] else none
              retries := e[7].toNat, notify := decide (e[8] = 0x01#8), hits := 0 } ∧
            (∀ i ≠ j, (t.bank k)[i] = (s.bank k)[i]) ∧ CommandKept [bankPart k] s t

/-- CLEAR_ENTRY empties an entry of the inactive bank, whatever it held (R42). -/
def Obligations.ClearEntryClears : Prop :=
  ∀ (seq bank index : Byte) (s : State), commandReady 0x0A#8 seq s = true →
    ∃ t, exec (.clearEntry seq bank index) s = .next t ∧
      if 2 ≤ bank.toNat ∨ 24 ≤ index.toNat then AnsweredOnly s 0x0A#8 seq .badArgument [] t
      else if bank = bankCode s.activeBank then AnsweredOnly s 0x0A#8 seq .activeBank [] t
      else
        ∀ (k : Bank) (j : Fin Config.entryCount), bankCode k = bank → j.val = index.toNat →
          Answered s 0x0A#8 seq .ok [bank, index] t ∧
            (t.bank k)[j] = {
              valid := false, kind := .station, pattern := 0, mask := 0, branches := 0, mode := .pass, rewrite := none
              retries := 0, notify := false, hits := 0 } ∧
            (∀ i ≠ j, (t.bank k)[i] = (s.bank k)[i]) ∧ CommandKept [bankPart k] s t

/-- COPY_BANK writes the active bank over the inactive one with every HITS zero (R43). -/
def Obligations.CopyBankCopies : Prop :=
  ∀ (seq : Byte) (s : State), commandReady 0x0B#8 seq s = true →
    let k := otherBank s.activeBank
    ∃ t, exec (.copyBank seq) s = .next t ∧ Answered s 0x0B#8 seq .ok [bankCode k] t ∧
      (∀ j : Fin Config.entryCount, (t.bank k)[j] = { (s.bank s.activeBank)[j] with hits := 0 }) ∧
      t.bank s.activeBank = s.bank s.activeBank ∧ t.activeBank = s.activeBank ∧ CommandKept [bankPart k] s t

/-- SWAP_BANKS exchanges the banks and nothing else, and its own summary shows the new bank (section 2.4, section
8.3). -/
def Obligations.SwapBanksSwaps : Prop :=
  ∀ (seq : Byte) (s : State), commandReady 0x0C#8 seq s = true →
    let k := otherBank s.activeBank
    ∃ t, exec (.swapBanks seq) s = .next t ∧ Answered s 0x0C#8 seq .ok [bankCode k] t ∧ t.activeBank = k ∧
      (statusSummary t).getLsbD 1 = decide (k = .b) ∧ t.bankA = s.bankA ∧ t.bankB = s.bankB ∧
      CommandKept [.activeBank] s t

/-- SUBMIT makes its nine checks in order and creates a DEFERRED record (section 9.5, section 2.3, section 3.4,
section 6.3; the model's choice in log entry 12). -/
def Obligations.SubmitChecksAndCreates : Prop :=
  ∀ (seq a : Byte) (data : List Byte) (s : State), data.length ≤ 57 → commandReady 0x10#8 seq s = true →
    let u := superseded s
    let left := if storing .trunk s then freeCount u else freeCount u - 1
    ∃ t, exec (.submit seq a data) s = .next t ∧
      if isStationAddress a = false ∨ a = settledAddress s then AnsweredOnly s 0x10#8 seq .badArgument [] t
      else match lookup s a with
      | none => SubmitRefused s seq .noRoute t ∧ hitCounted s none t
      | some j =>
        let e := activeEntry s j
        let b := stationBranch e
        hitCounted s (some j) t ∧
        if e.mode = .block then SubmitRefused s seq .routeBlocked t
        else if outgoing e a = 0x00#8 then
          Answered s 0x10#8 seq .badArgument [] t ∧ CommandKept [bankPart s.activeBank] s t
        else if inService s b = false then SubmitRefused s seq .branchOff t
        else if s.branches[b].queueLimit ≤ deferredCount s b then SubmitRefused s seq .queueFull t
        else if freeRecords u < 2 then SubmitRefused s seq .tableFull t
        else if left ≤ s.params.trunkReserve then SubmitRefused s seq .noBuffer t
        else
          Answered s 0x10#8 seq .ok [issuedTag s, BitVec.ofNat 8 b.val] t ∧ t.tagCounter = nextTag (issuedTag s) ∧
          (∀ d : Branch, t.branches[d] = { u.branches[d] with
            queue := if d = b then u.branches[d].queue ++ (lowestFreeRecord u).toList else u.branches[d].queue }) ∧
          (∃ i, lowestFreeRecord u = some i ∧ holdsFrame (.request i) (mkFrame a data) t ∧
            t.records[i] = { Record.free with
              kind := some .deferred, state := .queued, tag := some (issuedTag s), trunkAddress := some a
              lineAddress := outgoing e a, branch := some b, retriesLeft := e.retries } ∧
            ∀ k ≠ i, t.records[k] = u.records[k]) ∧
          CommandKept ([bankPart s.activeBank, .records, .tagCounter, .buffers] ++ branchParts) s t

/-- The tag SUBMIT issues is never 0 and no live deferred record holds it (section 3.2). -/
def Obligations.IssuedTagIsUnheld : Prop :=
  ∀ s : State, s.tagCounter ≠ 0x00#8 →
    issuedTag s ≠ 0x00#8 ∧ tagHeld s (issuedTag s) = false ∧
    ∃ n, n < 255 ∧ issuedTag s = Nat.iterate nextTag n s.tagCounter ∧
      ∀ m < n, tagHeld s (Nat.iterate nextTag m s.tagCounter) = true

/-- COLLECT and COLLECT_NEXT return an outcome with its answer and free the record when its bytes reach the end
(section 3.8, section 9.5, section 10.5). -/
def Obligations.CollectReadsAndFrees : Prop :=
  (∀ (seq tag offset : Byte) (s : State), commandReady 0x11#8 seq s = true →
    ∃ t, exec (.collect seq tag offset) s = .next t ∧
      match recordOfTag s tag with
      | none => AnsweredOnly s 0x11#8 seq .noSuchTag [] t
      | some i =>
        let r := s.records[i]
        let data := answerData s i
        if r.state ≠ .ended then
          AnsweredOnly s 0x11#8 seq .pending [recordStateByte r, BitVec.ofNat 8 r.attempts] t
        else if data.length < offset.toNat then AnsweredOnly s 0x11#8 seq .badArgument [] t
        else
          let piece := (data.drop offset.toNat).take 48
          let released := decide (offset.toNat + piece.length = data.length)
          Answered s 0x11#8 seq .ok ([(r.outcome.map outcomeByte).getD 0, BitVec.ofNat 8 r.attempts,
            BitVec.ofNat 8 data.length, if released then 0x01#8 else 0x00#8] ++ piece) t ∧
          (released = true → t.records[i] = Record.free ∧ heldFrame (.answer i) t = none ∧
            t.completions = (superseded s).completions.filter (fun j => j != i) ∧
            (∀ k ≠ i, t.records[k] = (superseded s).records[k]) ∧
            CommandKept ([.records, .completions, .buffers] ++ branchParts) s t) ∧
          (released = false → CommandKept [] s t)) ∧
  ∀ (seq offset : Byte) (s : State), commandReady 0x12#8 seq s = true →
    let u := superseded s
    ∃ t, exec (.collectNext seq offset) s = .next t ∧
      if offset ≠ 0x00#8 then AnsweredOnly s 0x12#8 seq .badArgument [] t
      else match u.completions with
      | [] => AnsweredOnly s 0x12#8 seq .nothingReady [] t
      | i :: _ =>
        let r := u.records[i]
        let data := answerData u i
        let released := decide (data.length ≤ 48)
        Answered s 0x12#8 seq .ok ([r.tag.getD 0, r.trunkAddress.getD 0, (r.outcome.map outcomeByte).getD 0,
          BitVec.ofNat 8 r.attempts, BitVec.ofNat 8 data.length, if released then 0x01#8 else 0x00#8] ++
          data.take 48) t ∧
        (released = true → t.records[i] = Record.free ∧ heldFrame (.answer i) t = none ∧
          t.completions = u.completions.filter (fun j => j != i) ∧ (∀ k ≠ i, t.records[k] = u.records[k]) ∧
          CommandKept ([.records, .completions, .buffers] ++ branchParts) s t) ∧
        (released = false → CommandKept [] s t)

/-- CANCEL withdraws a queued record, marks one on line, and discards one ended (section 3.9, section 10.4). -/
def Obligations.CancelActsByState : Prop :=
  ∀ (seq tag : Byte) (s : State), commandReady 0x13#8 seq s = true →
    ∃ t, exec (.cancel seq tag) s = .next t ∧
      match recordOfTag s tag with
      | none => AnsweredOnly s 0x13#8 seq .noSuchTag [] t
      | some i =>
        let u := superseded s
        (∀ k ≠ i, t.records[k] = u.records[k]) ∧
        (s.records[i].state = .onLine → Answered s 0x13#8 seq .ok [0x02#8] t ∧
          t.records[i] = { s.records[i] with cancelPending := true } ∧ CommandKept [.records] s t) ∧
        (s.records[i].state = .queued ∨ s.records[i].state = .ended →
          Answered s 0x13#8 seq .ok [if s.records[i].state = .queued then 0x01#8 else 0x03#8] t ∧
          t.records[i] = Record.free ∧ heldFrame (.request i) t = none ∧ heldFrame (.answer i) t = none ∧
          t.completions = u.completions.filter (fun j => j != i) ∧
          (∀ b : Branch, t.branches[b].queue = u.branches[b].queue.filter (fun j => j != i)) ∧
          CommandKept ([.records, .completions, .buffers] ++ branchParts) s t)

/-- POLL_SET in both forms checks in order, writes the slot and discards its snapshot (section 7.5, section 9.6,
section 10.5). -/
def Obligations.PollSetConfigures : Prop :=
  ∀ (seq slot branch a : Byte) (period : Word) (template : List Byte) (s : State), template.length ≤ 53 →
    commandReady 0x18#8 seq s = true →
    (∃ t, exec (.pollSet seq slot branch a period template) s = .next t ∧
      if 8 ≤ slot.toNat then AnsweredOnly s 0x18#8 seq .badArgument [] t
      else ∀ k : SlotIndex, k.val = slot.toNat →
        if s.slots[k].state.running then AnsweredOnly s 0x18#8 seq .slotActive [] t
        else if 4 ≤ branch.toNat ∨ isStationAddress a = false ∨ period.toNat < 10 ∨ 60000 < period.toNat ∨
            16 < template.length then AnsweredOnly s 0x18#8 seq .badArgument [] t
        else ∀ b : Branch, b.val = branch.toNat →
          Answered s 0x18#8 seq .ok [slot, 0x01#8] t ∧
          t.slots[k] = {
            state := .stopped
            config := some { branch := b, lineAddress := a, template := template, period := period.toNat }
            countdown := 0, overruns := 0, seq := 0, age := none, misses := 0 } ∧
          heldFrame (.snapshot k) t = none ∧ (∀ i ≠ k, t.slots[i] = s.slots[i]) ∧ CommandKept [.slots, .buffers] s t) ∧
    ∃ t, exec (.pollSetUnset seq slot) s = .next t ∧
      if 8 ≤ slot.toNat then AnsweredOnly s 0x18#8 seq .badArgument [] t
      else ∀ k : SlotIndex, k.val = slot.toNat →
        if s.slots[k].state.running then AnsweredOnly s 0x18#8 seq .slotActive [] t
        else
          Answered s 0x18#8 seq .ok [slot, 0x00#8] t ∧ t.slots[k] = Slot.unset ∧ heldFrame (.snapshot k) t = none ∧
          (∀ i ≠ k, t.slots[i] = s.slots[i]) ∧ CommandKept [.slots, .buffers] s t

/-- POLL_START arms a stopped slot, and takes the first expiry at once with delay 0 (section 7.5, section 7.2). -/
def Obligations.PollStartArms : Prop :=
  ∀ (seq slot : Byte) (delay : Word) (s : State), commandReady 0x19#8 seq s = true →
    ∃ t, exec (.pollStart seq slot delay) s = .next t ∧
      if 8 ≤ slot.toNat then AnsweredOnly s 0x19#8 seq .badArgument [] t
      else ∀ k : SlotIndex, k.val = slot.toNat →
        let x := s.slots[k]
        match x.state, x.config with
        | .unset, _ => AnsweredOnly s 0x19#8 seq .slotUnset [] t
        | .stopped, some c =>
          if c.period < delay.toNat then AnsweredOnly s 0x19#8 seq .badArgument [] t
          else
            (∀ i ≠ k, t.slots[i] = s.slots[i]) ∧
            if delay ≠ 0 then
              Answered s 0x19#8 seq .ok [slot, 0x02#8] t ∧
                t.slots[k] = { x with state := .armed, countdown := delay.toNat } ∧ CommandKept [.slots] s t
            else if inService s c.branch then
              Answered s 0x19#8 seq .ok [slot, 0x03#8] t ∧
                t.slots[k] = { x with state := .due, countdown := c.period } ∧ CommandKept [.slots] s t
            else
              Answered s 0x19#8 seq .ok [slot, 0x02#8] t ∧
                t.slots[k] = { x with state := .armed, countdown := c.period, misses := missUp x.misses } ∧
                t.branches[c.branch].counters.skips = countUp s.branches[c.branch].counters.skips ∧
                CommandKept [.slots, .branch c.branch] s t
        | .stopped, none => True
        | .armed, _ | .due, _ | .onLine, _ | .stopping, _ => AnsweredOnly s 0x19#8 seq .slotActive [] t

/-- POLL_STOP stops a slot by its state and answers with the state it comes to (section 7.5, section 4.2). -/
def Obligations.PollStopStops : Prop :=
  ∀ (seq slot : Byte) (s : State), commandReady 0x1A#8 seq s = true →
    ∃ t, exec (.pollStop seq slot) s = .next t ∧
      if 8 ≤ slot.toNat then AnsweredOnly s 0x1A#8 seq .badArgument [] t
      else ∀ k : SlotIndex, k.val = slot.toNat →
        let x := s.slots[k]
        match x.state with
        | .unset => AnsweredOnly s 0x1A#8 seq .slotUnset [] t
        | .stopped => AnsweredOnly s 0x1A#8 seq .ok [slot, 0x01#8] t
        | .stopping => AnsweredOnly s 0x1A#8 seq .ok [slot, 0x05#8] t
        | .onLine => Answered s 0x1A#8 seq .ok [slot, 0x05#8] t ∧ t.slots[k] = { x with state := .stopping } ∧
            (∀ i ≠ k, t.slots[i] = s.slots[i]) ∧ CommandKept [.slots] s t
        | .armed | .due => Answered s 0x1A#8 seq .ok [slot, 0x01#8] t ∧
            t.slots[k] = { x with state := .stopped, countdown := 0 } ∧ (∀ i ≠ k, t.slots[i] = s.slots[i]) ∧
            (∀ b : Branch, t.branches[b] = { (superseded s).branches[b] with
              stalled := (superseded s).branches[b].stalled && hasWork t b }) ∧
            CommandKept ([.slots] ++ branchParts) s t

/-- POLL_READ and READ_SNAPSHOT report the slot and change nothing (section 7.4, section 7.5, section 10.5). -/
def Obligations.SlotReadsShowTheSlot : Prop :=
  ∀ (seq slot offset : Byte) (s : State),
    (commandReady 0x1B#8 seq s = true → ∃ t, exec (.pollRead seq slot) s = .next t ∧
      if 8 ≤ slot.toNat then AnsweredOnly s 0x1B#8 seq .badArgument [] t
      else ∀ k : SlotIndex, k.val = slot.toNat →
        let x := s.slots[k]
        match x.config with
        | none => AnsweredOnly s 0x1B#8 seq .ok ([slot, slotStateByte x.state] ++ List.replicate 12 0x00#8) t
        | some c => c.template.length ≤ 16 → AnsweredOnly s 0x1B#8 seq .ok
            ([slot, slotStateByte x.state, BitVec.ofNat 8 c.branch.val, c.lineAddress] ++ wordBytes c.period ++
              wordBytes x.countdown ++ wordBytes x.overruns ++ [BitVec.ofNat 8 x.misses, x.seq,
              if (heldFrame (.snapshot k) s).isSome then 0x01#8 else 0x00#8, BitVec.ofNat 8 c.template.length] ++
              c.template) t) ∧
    (commandReady 0x1C#8 seq s = true → ∃ t, exec (.readSnapshot seq slot offset) s = .next t ∧
      if 8 ≤ slot.toNat then AnsweredOnly s 0x1C#8 seq .badArgument [] t
      else ∀ k : SlotIndex, k.val = slot.toNat →
        let x := s.slots[k]
        if x.state = .unset then AnsweredOnly s 0x1C#8 seq .slotUnset [] t
        else match heldFrame (.snapshot k) s with
        | none => AnsweredOnly s 0x1C#8 seq .nothingReady [x.seq, BitVec.ofNat 8 x.misses] t
        | some chars =>
          if (frameData chars).length < offset.toNat then AnsweredOnly s 0x1C#8 seq .badArgument [] t
          else AnsweredOnly s 0x1C#8 seq .ok ([x.seq] ++ wordBytes (x.age.getD 0) ++
            [BitVec.ofNat 8 x.misses, BitVec.ofNat 8 (frameData chars).length] ++
            ((frameData chars).drop offset.toNat).take 48) t)

/-- READ_EVENTS reports the part as it then stands; CLEAR_EVENTS clears exactly the named flags (section 8.4, section
8.2, section 10.3). -/
def Obligations.EventsAreReadAndCleared : Prop :=
  ∀ (seq : Byte) (mask : Word) (s : State),
    (commandReady 0x20#8 seq s = true → ∃ t, exec (.readEvents seq) s = .next t ∧
      AnsweredOnly s 0x20#8 seq .ok (wordBytes t.flags.toNat ++ wordBytes t.params.eventEnable.toNat ++
        [BitVec.ofNat 8 (freeCount t), BitVec.ofNat 8 (freeRecords t), BitVec.ofNat 8 t.completions.length,
         bankCode t.activeBank]) t) ∧
    (commandReady 0x21#8 seq s = true → ∃ t, exec (.clearEvents seq mask) s = .next t ∧
      if 4096 ≤ mask.toNat then AnsweredOnly s 0x21#8 seq .badArgument [] t
      else Answered s 0x21#8 seq .ok (wordBytes t.flags.toNat) t ∧ t.flags &&& mask.setWidth 12 = 0 ∧
        t.flags ||| receiptFlags ||| mask.setWidth 12 = s.flags ||| receiptFlags ||| mask.setWidth 12 ∧
        t.alertAsserted = (t.flags &&& s.params.eventEnable != 0) ∧
        (statusSummary t).getLsbD 0 = t.alertAsserted ∧ CommandKept [.flags] s t)

/-- READ_COUNTERS reports a whole group, and clears it after the report when asked (section 8.5, section 10.5). -/
def Obligations.CountersAreReadAndCleared : Prop :=
  ∀ (seq port clear : Byte) (s : State), commandReady 0x22#8 seq s = true →
    (5 ≤ port.toNat ∨ 2 ≤ clear.toNat → ∃ t, exec (.readCounters seq port clear) s = .next t ∧
      AnsweredOnly s 0x22#8 seq .badArgument [] t) ∧
    ∀ p, portOf port = some p →
      ∃ t, exec (.readCounters seq port 0x00#8) s = .next t ∧
        AnsweredOnly s 0x22#8 seq .ok (port :: counterBytes (groupCounters p t)) t ∧
        ∃ t', exec (.readCounters seq port 0x01#8) s = .next t' ∧
          Answered s 0x22#8 seq .ok (port :: counterBytes (groupCounters p t)) t' ∧
          (∀ n ∈ groupCounters p t', n = 0) ∧ CommandKept [portPart p] s t' ∧
          (∀ q, q ≠ p → groupCounters q t' = groupCounters q t)

/-- BRANCH_CONTROL queries, disables and enables a branch and reports it as it then stands (section 4.5, section 3.5,
section 7.6, section 9.8, section 10.5). -/
def Obligations.BranchControlActs : Prop :=
  ∀ (seq branch : Byte) (s : State), commandReady 0x28#8 seq s = true → BranchesAgree s →
    (4 ≤ branch.toNat →
      (∃ t, exec (.branchControlQuery seq branch) s = .next t ∧ AnsweredOnly s 0x28#8 seq .badArgument [] t) ∧
      (∃ t, exec (.branchControlDisable seq branch) s = .next t ∧ AnsweredOnly s 0x28#8 seq .badArgument [] t) ∧
      ∃ t, exec (.branchControlEnable seq branch) s = .next t ∧ AnsweredOnly s 0x28#8 seq .badArgument [] t) ∧
    ∀ b : Branch, b.val = branch.toNat →
      let x := (superseded s).branches[b]
      let items := fun t : State =>
        [branch, statusByte t.branches[b].status, (if t.branches[b].stalled then 0x01#8 else 0x00#8),
         BitVec.ofNat 8 t.branches[b].contentionRun, BitVec.ofNat 8 t.branches[b].queue.length,
         BitVec.ofNat 8 (deferredCount t b), (t.branches[b].onLine.map fun i => BitVec.ofNat 8 i.val).getD 0xFF#8]
      (∃ t, exec (.branchControlQuery seq branch) s = .next t ∧ AnsweredOnly s 0x28#8 seq .ok (items t) t) ∧
      (∃ t, exec (.branchControlDisable seq branch) s = .next t ∧ Answered s 0x28#8 seq .ok (items t) t ∧
        t.branches[b].status = .off ∧ portSilent t.branches[b].port = true ∧ t.branches[b].windowTimer = none ∧
        t.branches[b].quarantineTimer = none ∧ t.branches[b].onLine = none ∧ t.branches[b].pendingRate = none ∧
        t.branches[b].contentionRun = x.contentionRun ∧ t.branches[b].lastServed = x.lastServed ∧
        t.branches[b].port.rate = x.pendingRate.getD x.port.rate ∧
        t.branches[b].port.counters = x.port.counters ∧
        (inService s b = true → t.branches[b].queue = [] ∧ t.branches[b].stalled = false ∧
          heldFrame (.branchAnswer b) t = none ∧ ∀ k, slotDueOn t b k = false) ∧
        (inService s b = true → TableAgrees s → OwedAgrees s →
          WorkSettled b (fun i => (superseded s).records[i]) (fun _ => .branchOff) (superseded s) t ∧
          (∀ i, heldFrame (.answer i) t = heldFrame (.answer i) (superseded s)) ∧
          flagSet .answerFail t = flagSet .answerFail s) ∧
        (inService s b = false → t.records = (superseded s).records ∧ t.slots = s.slots ∧
          t.completions = (superseded s).completions) ∧
        ∀ d ≠ b, otherBranchKept (superseded s).branches[d] t.branches[d]) ∧
      ∃ t, exec (.branchControlEnable seq branch) s = .next t ∧ Answered s 0x28#8 seq .ok (items t) t ∧
        (inService s b = true → CommandKept [] s t) ∧
        (inService s b = false → t.branches[b].status = .idle ∧ t.branches[b].contentionRun = 0 ∧
          t.branches[b].quarantineTimer = none ∧ t.branches[b].lastServed = x.lastServed ∧
          t.branches[b].counters = x.counters ∧ t.branches[b].port.rate = x.port.rate ∧
          t.branches[b].port.synchronised = (x.status == .fault && x.port.synchronised) ∧
          CommandKept [.branch b] s t)

/-- RESTART clears the traffic of every block and keeps the configuration (section 9.9, section 4.7, section 7.7,
section 3.10, section 6.7, section 5.6). -/
def Obligations.RestartClearsTheTraffic : Prop :=
  ∀ (seq : Byte) (s : State), commandReady 0x2F#8 seq s = true →
    ∃ t, exec (.restart seq) s = .next t ∧ Answered s 0x2F#8 seq .ok [] t ∧
      (∀ i : RecordIndex, t.records[i] = Record.free) ∧ t.completions = [] ∧ t.tagCounter = 1 ∧
      (∀ p ∈ [Port.trunk, .branch 0, .branch 1, .branch 2, .branch 3], ∀ n ∈ groupCounters p t, n = 0) ∧
      (∀ b : Branch, t.branches[b].status = (if s.branches[b].status = .off then .off else .idle) ∧
        t.branches[b].queue = [] ∧ t.branches[b].onLine = none ∧ t.branches[b].stalled = false ∧
        t.branches[b].contentionRun = 0 ∧ t.branches[b].lastServed = .poll ∧ t.branches[b].windowTimer = none ∧
        t.branches[b].quarantineTimer = none ∧
        (s.branches[b].status ≠ .off → t.branches[b].port.tx = .quiet ∧ t.branches[b].port.rx = .hunt ∧
          t.branches[b].pendingRate = none ∧
          t.branches[b].port.rate = s.branches[b].pendingRate.getD s.branches[b].port.rate) ∧
        t.branches[b].responseWindow = s.branches[b].responseWindow ∧
        t.branches[b].queueLimit = s.branches[b].queueLimit ∧ t.branches[b].quarantine = s.branches[b].quarantine ∧
        t.branches[b].port.lineRest = s.branches[b].port.lineRest) ∧
      (∀ k : SlotIndex, t.slots[k].config = s.slots[k].config ∧ t.slots[k].misses = 0 ∧ t.slots[k].overruns = 0 ∧
        t.slots[k].seq = 0 ∧ t.slots[k].age = none ∧ heldFrame (.snapshot k) t = none ∧
        (match s.slots[k].state, s.slots[k].config with
          | .armed, some c | .due, some c | .onLine, some c =>
            t.slots[k].state = .armed ∧ t.slots[k].countdown = c.period
          | .stopping, _ => t.slots[k].state = .stopped ∧ t.slots[k].countdown = 0
          | .stopped, _ => t.slots[k].state = .stopped
          | .unset, _ => t.slots[k].state = .unset
          | _, none => True)) ∧
      (storing .trunk s = false → heldFrame .trunkAssembly s = none → freeCount t = 47) ∧
      (∀ p : Param, paramValue t p = paramValue (superseded s) p) ∧
      CommandKept ([.records, .tagCounter, .completions, .slots, .buffers, .trunk] ++ branchParts) s t

/-- The arbiter grants transparent first, then the class not served last, then the other (section 4.2, section 3.3,
section 3.6, section 6.3, section 7.2). -/
def Obligations.ArbitrationGrants : Prop :=
  ∀ (b : Branch) (s : State), s.inReset = false → s.branches[b].status = .idle →
    let x := s.branches[b]
    (∀ i, transparentCandidate b s = some i → gateOpen s = true → ∃ t, exec (.arbitration b) s = .next t ∧
      t.branches[b] = grantedBranch x i (recordFrame i s) x.lastServed ∧
      t.records[i] = { s.records[i] with state := .onLine } ∧ (∀ k ≠ i, t.records[k] = s.records[k]) ∧
      answerBufferClaimed b s t ∧ t.flags = claimedFlags s ∧ SameBut [.branch b, .records, .buffers, .flags] s t) ∧
    (transparentReady b s = false → x.lastServed = .poll ∨ pollReady b s = false → queueReady b s = true →
      ∀ i, queueCandidate b s = some i → ∃ t, exec (.arbitration b) s = .next t ∧
      t.branches[b] = grantedBranch x i (recordFrame i s) .queue ∧ (∀ k ≠ i, t.records[k] = s.records[k]) ∧
      if s.records[i].kind = some .group then
        t.records[i] = { s.records[i] with
          pendingSet := setWithout s.records[i].pendingSet b, sendingSet := setWith s.records[i].sendingSet b } ∧
          SameBut [.branch b, .records] s t
      else t.records[i] = { s.records[i] with state := .onLine } ∧ answerBufferClaimed b s t ∧
        t.flags = claimedFlags s ∧ SameBut [.branch b, .records, .buffers, .flags] s t) ∧
    (transparentReady b s = false → x.lastServed = .queue ∨ queueReady b s = false → pollReady b s = true →
      ∃ (k : SlotIndex) (i : RecordIndex) (c : SlotConfig), lowestDueSlot s b = some k ∧
      lowestFreeRecord s = some i ∧ s.slots[k].config = some c ∧ ∃ t, exec (.arbitration b) s = .next t ∧
      t.branches[b] = { grantedBranch x i { address := c.lineAddress, data := c.template } .poll with
        queue := x.queue } ∧
      t.records[i] = { Record.free with
        kind := some .cyclic, state := .onLine, branch := some b, slot := some k, lineAddress := c.lineAddress } ∧
      (∀ j ≠ i, t.records[j] = s.records[j]) ∧ t.slots[k] = { s.slots[k] with state := .onLine } ∧
      (∀ j ≠ k, t.slots[j] = s.slots[j]) ∧ answerBufferClaimed b s t ∧ t.flags = claimedFlags s ∧
      SameBut [.branch b, .records, .buffers, .flags, .slots] s t)

/-- Work that cannot be granted stalls the branch; a branch without work is not stalled (section 4.2; the model's
choice in log entry 1). -/
def Obligations.ArbitrationStalls : Prop :=
  ∀ (b : Branch) (s : State), s.inReset = false →
    let x := s.branches[b]
    (x.status ≠ .idle → exec (.arbitration b) s = .next s) ∧
    (x.status = .idle → hasWork s b = false → ∃ t, exec (.arbitration b) s = .next t ∧
      t.branches[b] = { x with stalled := false } ∧ SameBut [.branch b] s t) ∧
    (x.status = .idle → hasWork s b = true → transparentReady b s = false → queueReady b s = false →
      pollReady b s = false → ∃ t, exec (.arbitration b) s = .next t ∧
      t.branches[b] = { x with
        stalled := true
        counters := { x.counters with
          stalls := if x.stalled then x.counters.stalls else countUp x.counters.stalls } } ∧
      SameBut [.branch b] s t)

/-- A branch frame sent cleanly goes to AWAIT under the response window, or delivers its group frame (section 4.3,
section 3.6, section 1.6). -/
def Obligations.BranchSendCompletes : Prop :=
  ∀ (b : Branch) (i : RecordIndex) (s : State), s.inReset = false → s.branches[b].port.tx.sending = true →
    s.branches[b].onLine = some i →
    let x := s.branches[b]
    let r := s.records[i]
    let q : PortState := { x.port with
      tx := .quiet, rx := .hunt, lineRest := 0, charInProgress := false
      counters := { x.port.counters with framesTx := countUp x.port.counters.framesTx } }
    (isStationKind r = true → ∃ t, exec (.branchSendComplete b) s = .next t ∧
      t.branches[b] = { x with
        port := q, status := .await, contentionRun := 0
        windowTimer := some { count := 0, limit := x.responseWindow } } ∧
      t.records[i] = (if r.kind = some .cyclic then r else { r with attempts := r.attempts + 1 }) ∧
      (∀ k ≠ i, t.records[k] = s.records[k]) ∧ SameBut [.branch b, .records] s t) ∧
    (r.kind = some .group → ∃ t, exec (.branchSendComplete b) s = .next t ∧
      let p := setWithout r.pendingSet b
      let g := setWithout r.sendingSet b
      t.branches[b].status = .idle ∧ t.branches[b].onLine = none ∧ t.branches[b].contentionRun = 0 ∧
      t.branches[b].pendingRate = none ∧ t.branches[b].port = underRate x.pendingRate q ∧
      (∀ d ≠ b, otherBranchKept s.branches[d] t.branches[d]) ∧ (∀ k ≠ i, t.records[k] = s.records[k]) ∧
      (p = 0 ∧ g = 0 → t.records[i] = Record.free ∧ heldFrame (.request i) t = none) ∧
      (¬ (p = 0 ∧ g = 0) → t.records[i] = { r with pendingSet := p, sendingSet := g } ∧
        SameBut [.branch b, .records] s t) ∧
      SameBut ([.records, .buffers, .completions] ++ branchParts) s t)

/-- Contention ends the attempt, and the third in a row puts the branch into FAULT (section 4.3, section 4.5, section
3.5, section 3.7, section 1.6). -/
def Obligations.BranchContentionEnds : Prop :=
  ∀ (b : Branch) (i : RecordIndex) (s : State), s.inReset = false → s.branches[b].port.tx.sending = true →
    s.branches[b].onLine = some i → OwedAgrees s →
    let x := s.branches[b]
    let r := s.records[i]
    let q : PortState := { x.port with
      tx := .quiet, rx := .hunt, lineRest := 0, charInProgress := false
      counters := { x.port.counters with contentions := countUp x.port.counters.contentions } }
    ∃ t, exec (.branchContention b) s = .next t ∧ flagSet .contention t = true ∧
      t.branches[b].contentionRun = x.contentionRun + 1 ∧ t.branches[b].onLine = none ∧
      t.branches[b].pendingRate = none ∧ t.branches[b].port = underRate x.pendingRate q ∧
      t.branches[b].counters.badAnswers = x.counters.badAnswers ∧
      t.branches[b].counters.noAnswers = x.counters.noAnswers ∧
      (∀ d ≠ b, otherBranchKept s.branches[d] t.branches[d]) ∧ flagSet .answerFail t = flagSet .answerFail s ∧
      SameBut ([.trunk, .records, .completions, .slots, .buffers, .flags] ++ branchParts) s t ∧
      (x.contentionRun < 2 → t.branches[b].status = .idle ∧
        (isStationKind r = true → AttemptFailed b i
          (if r.kind = some .cyclic then r else { r with attempts := r.attempts + 1 }) .contention s t) ∧
        (r.kind = some .group → (∀ k ≠ i, t.records[k] = s.records[k]) ∧
          if setWithout r.pendingSet b = 0 ∧ setWithout r.sendingSet b = 0 then
            t.records[i] = Record.free ∧ heldFrame (.request i) t = none
          else
            t.records[i] = { r with
              pendingSet := setWithout r.pendingSet b, sendingSet := setWithout r.sendingSet b } ∧
              t.buffers = s.buffers)) ∧
      (2 ≤ x.contentionRun → t.branches[b].status = .fault ∧ flagSet .branchFault t = true ∧
        t.branches[b].queue = [] ∧ t.branches[b].stalled = false ∧ (∀ k, slotDueOn t b k = false) ∧
        t.branches[b].quarantineTimer =
          (if x.quarantine = 0 then none else some { count := 0, limit := x.quarantine * 100 }) ∧
        (TableAgrees s →
          let counted := if r.kind = some .cyclic then r else { r with attempts := r.attempts + 1 }
          let retried := isStationKind r && r.retriesLeft != 0 && !r.abandoned && !r.cancelPending
          let last := fun j => if j ≠ i then s.records[j]
            else if r.kind = some .group then r
            else if retried then { counted with retriesLeft := r.retriesLeft - 1 } else counted
          let o := fun j => if j = i && !retried then ExchangeOutcome.contention else .branchOff
          WorkSettled b last o s t ∧ heldFrame (.branchAnswer b) t = none ∧
          (∀ j ∈ workOf s b, awaitedByTrunk s.records[j] = true → trunkToldOfFailure (last j) (o j) s t) ∧
          ((∀ j ∈ workOf s b, awaitedByTrunk s.records[j] = false) → t.trunk = s.trunk)))

/-- A window that expires is NO_ANSWER, and a bad stored answer is BAD_ANSWER (section 4.3, section 3.5, section 3.6,
section 5.4; the model's choice in log entries 15, 1, 4). -/
def Obligations.AttemptsFail : Prop :=
  ∀ (b : Branch) (i : RecordIndex) (s : State), OwedAgrees s → s.inReset = false →
    let x := s.branches[b]
    let bad := { x.counters with badAnswers := countUp x.counters.badAnswers }
    (x.status ≠ .await → exec (.responseWindowExpiry b) s = .next s) ∧
    (x.status = .await → x.onLine = some i → isStationKind s.records[i] = true →
      ∃ t, exec (.responseWindowExpiry b) s = .next t ∧ AttemptFailed b i s.records[i] .noAnswer s t ∧
        t.branches[b].windowTimer = none ∧ t.branches[b].pendingRate = none ∧
        t.branches[b].port.counters = truncatedOnce { x.port with
          rx := if x.pendingRate.isSome then x.port.rx else .hunt } ∧
        t.branches[b].counters = { x.counters with noAnswers := countUp x.counters.noAnswers }) ∧
    (∀ (data : List Byte) (check : Word), data.length ≤ 60 → ∀ address : Byte,
      answerComing b i (frameBody address data ++ bytesOfWord check) s = true →
      let good := decide (check = crcOf (frameBody address data))
      (good = true → address ≠ s.records[i].lineAddress) →
      ∃ t, exec (.answerEnd b (.complete data check)) s = .next t ∧ AttemptFailed b i s.records[i] .badAnswer s t ∧
        t.branches[b].windowTimer = none ∧
        t.branches[b].counters =
          (if good then { bad with wrongResponder := countUp x.counters.wrongResponder } else bad) ∧
        t.branches[b].port.counters = (if good then
            { x.port.counters with framesRxGood := countUp x.port.counters.framesRxGood }
          else { x.port.counters with checkErrors := countUp x.port.counters.checkErrors }) ∧
        (good = false → flagSet .lineError t = true)) ∧
    ∀ report, report = .truncated ∨ (∃ count : Byte, 60 < count.toNat ∧ report = .malformed count ∧
        ∃ address, x.port.rx = .assemble { stored := true, got := [address] }) →
      answerOpen b i s = true →
      ∃ t, exec (.answerEnd b report) s = .next t ∧ AttemptFailed b i s.records[i] .badAnswer s t ∧
        t.branches[b].windowTimer = none ∧ t.branches[b].counters = bad ∧ flagSet .lineError t = true ∧
        t.branches[b].port.counters = { x.port.counters with truncated := countUp x.port.counters.truncated }

/-- A good answer from the right address reaches the master, the completion list or the snapshot (section 4.3, section
3.6, section 3.7, section 5.4, section 7.3; the model's choice in log entry 15). -/
def Obligations.AnswerIsDelivered : Prop :=
  ∀ (b : Branch) (i : RecordIndex) (data : List Byte) (s : State), data.length ≤ 60 → OwedAgrees s →
    let x := s.branches[b]
    let r := s.records[i]
    let frame := mkFrame r.lineAddress data
    answerComing b i frame s = true →
    ∃ t, exec (.answerEnd b (.complete data (crcOf (frameBody r.lineAddress data)))) s = .next t ∧
      t.branches[b].status = .idle ∧ t.branches[b].onLine = none ∧ t.branches[b].windowTimer = none ∧
      t.branches[b].counters = answerCounters r x.counters ∧
      t.branches[b].port.counters =
        { x.port.counters with framesRxGood := countUp x.port.counters.framesRxGood } ∧
      heldFrame (.request i) t = none ∧ flagSet .answerFail t = flagSet .answerFail s ∧
      (∀ k ≠ i, t.records[k] = s.records[k]) ∧ (∀ d ≠ b, otherBranchKept s.branches[d] t.branches[d]) ∧
      SameBut ([.trunk, .records, .completions, .slots, .buffers, .flags] ++ branchParts) s t ∧
      match r.kind with
      | some .deferred =>
        t.trunk = s.trunk ∧ t.slots = s.slots ∧ heldFrame (.branchAnswer b) t = none ∧
        if r.cancelPending then t.records[i] = Record.free
        else
          t.records[i] = { r with
            state := .ended, outcome := some .answered
            hold := some { count := 0, limit := s.params.holdTime * 100 } } ∧
          t.completions = s.completions ++ [i] ∧ flagSet .completion t = true ∧
          ∀ n : Fin Config.bufferCount, s.buffers[n].holder = .branchAnswer b →
            t.buffers[n] = { holder := .answer i, chars := frame }
      | some .transparent =>
        t.records[i] = Record.free ∧ t.slots = s.slots ∧ heldFrame (.branchAnswer b) t = none ∧
        if r.abandoned then t.trunk = s.trunk
        else ((heldFrame (.branchAnswer b) s).isSome = true →
          t.trunk.owed = .answer ∧ t.trunk.port.tx = .lead { address := r.trunkAddress.getD 0, data := data } ∧
            holdsFrame .owedReply (mkFrame (r.trunkAddress.getD 0) data) t)
      | some .cyclic =>
        t.records[i] = Record.free ∧ t.trunk = s.trunk ∧
        ∀ k, r.slot = some k → (∀ j ≠ k, t.slots[j] = s.slots[j]) ∧
          t.slots[k] = { missedSlot s.slots[k] with seq := s.slots[k].seq + 1, age := some 0, misses := 0 } ∧
          ∀ n : Fin Config.bufferCount, s.buffers[n].holder = .branchAnswer b →
            t.buffers[n] = { holder := .snapshot k, chars := frame }
      | some .group | none => True

/-- The HOLD, quarantine and slot timers each expire as the manual says (section 3.7, section 4.5, section 7.2,
section 9.9; the model's choice in log entries 1, 4). -/
def Obligations.TimersExpire : Prop :=
  ∀ (i : RecordIndex) (b : Branch) (k : SlotIndex) (s : State), s.inReset = false →
    let x := s.branches[b]
    let y := s.slots[k]
    (s.records[i].state ≠ .ended → exec (.holdExpiry i) s = .next s) ∧
    (s.records[i].state = .ended → s.records[i].branch = some b → ∃ t, exec (.holdExpiry i) s = .next t ∧
      t.records[i] = Record.free ∧ (∀ j ≠ i, t.records[j] = s.records[j]) ∧ heldFrame (.answer i) t = none ∧
      t.completions = s.completions.filter (fun j => j != i) ∧ t.flags = s.flags ||| flagMask .uncollected ∧
      t.branches[b].counters = { x.counters with uncollected := countUp x.counters.uncollected } ∧
      (∀ d ≠ b, otherBranchKept s.branches[d] t.branches[d]) ∧
      SameBut ([.records, .completions, .buffers, .flags] ++ branchParts) s t) ∧
    (x.status ≠ .fault ∨ x.quarantineTimer = none → exec (.quarantineExpiry b) s = .next s) ∧
    (x.status = .fault → x.quarantineTimer.isSome = true → BranchesAgree s →
      ∃ t, exec (.quarantineExpiry b) s = .next t ∧
        t.branches[b] = { x with status := .idle, contentionRun := 0, quarantineTimer := none } ∧
        SameBut [.branch b] s t) ∧
    (y.config = none ∨ y.state.running = false → exec (.slotExpiry k) s = .next s) ∧
    (justRestarted k s = true → exec (.slotExpiry k) s = .next s) ∧
    (∀ seq, commandReady 0x2F#8 seq s = true →
      runRows [.restart seq, .slotExpiry k] s = exec (.restart seq) s) ∧
    ∀ c, y.config = some c → y.state.running = true → justRestarted k s = false →
      ∃ t, exec (.slotExpiry k) s = .next t ∧
      (∀ j ≠ k, t.slots[j] = s.slots[j]) ∧
      if y.state ≠ .armed then
        t.slots[k] = { y with countdown := c.period, overruns := countUp y.overruns } ∧
          t.flags = s.flags ||| flagMask .pollOverrun ∧ SameBut [.slots, .flags] s t
      else if inService s c.branch then
        t.slots[k] = { y with countdown := c.period, state := .due } ∧ SameBut [.slots] s t
      else
        t.slots[k] = { y with countdown := c.period, misses := missUp y.misses } ∧
          t.branches[c.branch] = { s.branches[c.branch] with
            counters := { s.branches[c.branch].counters with
              skips := countUp s.branches[c.branch].counters.skips } } ∧
          SameBut [.slots, .branch c.branch] s t

/-- With no command waiting, a step counts one millisecond of every timer, and nothing in reset (section 7.2, section
7.4, section 4.3, section 4.5, section 3.7; the model's choice in log entry 5). -/
def Obligations.IdleStepIsAMillisecond : Prop :=
  ∀ s : State, s.pending = [] →
    (s.inReset = true → step s = .next s) ∧
    (s.inReset = false → ∃ t, step s = .next t ∧ SameBut
        ([.trunk, .records, .completions, .slots, .buffers, .flags] ++ branchParts) s t ∧
      s.flags &&& t.flags = s.flags ∧
      (∀ k : SlotIndex, t.slots[k].config = s.slots[k].config ∧ t.slots[k].seq = s.slots[k].seq ∧
        t.slots[k].age = s.slots[k].age.map countUp ∧
        (s.slots[k].state.running = false → t.slots[k].state = s.slots[k].state ∧
          t.slots[k].countdown = s.slots[k].countdown ∧ t.slots[k].overruns = s.slots[k].overruns)) ∧
      (∀ (k : SlotIndex) (n : Nat), s.slots[k].countdown = n + 2 →
        (s.slots[k].state = .armed → t.slots[k].state = .armed ∧ t.slots[k].countdown = n + 1) ∧
        (s.slots[k].state = .due ∨ s.slots[k].state = .onLine → t.slots[k].state.running = true ∧
          t.slots[k].state ≠ .stopping ∧ t.slots[k].countdown = n + 1) ∧
        (s.slots[k].state = .stopping → (t.slots[k].state = .stopping ∧ t.slots[k].countdown = n + 1) ∨
          (t.slots[k].state = .stopped ∧ t.slots[k].countdown = 0))) ∧
      (BranchesAgree s → TableAgrees s →
        ∀ (k : SlotIndex) (c : SlotConfig), s.slots[k].config = some c → s.slots[k].countdown = 1 →
        (s.slots[k].state = .armed → inService s c.branch = true →
          t.slots[k].state = .due ∧ t.slots[k].countdown = c.period) ∧
        (s.slots[k].state = .armed → s.branches[c.branch].status = .off →
          t.slots[k].state = .armed ∧ t.slots[k].countdown = c.period ∧
          t.slots[k].misses = missUp s.slots[k].misses) ∧
        (s.slots[k].state = .due → t.slots[k].countdown = c.period ∧
          t.slots[k].overruns = countUp s.slots[k].overruns ∧ flagSet .pollOverrun t = true)) ∧
      (∀ (b : Branch) (w : Timer), s.branches[b].status = .await → s.branches[b].windowTimer = some w →
        if w.count + 1 < w.limit then
          t.branches[b].status = .await ∧ t.branches[b].windowTimer = some { w with count := w.count + 1 }
        else t.branches[b].status = .idle ∧ t.branches[b].windowTimer = none) ∧
      (∀ (b : Branch) (w : Timer), s.branches[b].status = .fault → s.branches[b].quarantineTimer = some w →
        if w.count + 1 < w.limit then
          t.branches[b].status = .fault ∧ t.branches[b].quarantineTimer = some { w with count := w.count + 1 }
        else t.branches[b].status = .idle ∧ t.branches[b].quarantineTimer = none ∧
          t.branches[b].contentionRun = 0) ∧
      (BranchesAgree s → TableAgrees s → ∀ (i : RecordIndex) (w : Timer), s.records[i].hold = some w →
        if w.count + 1 < w.limit then t.records[i] = { s.records[i] with hold := some { w with count := w.count + 1 } }
        else t.records[i] = .free ∧ i ∉ t.completions ∧ flagSet .uncollected t = true))

/-- No step clears an event flag but a reset, and CLEAR_EVENTS as its row or as its characters (section 8.1, section
8.4, section 10.9). -/
def Obligations.FlagsAreOnlyCleared : Prop :=
  ∀ s t : State, step s = .next t →
    t.pending = s.pending.tail ∧
    ((∀ strapA strapR, s.pending.head? ≠ some (.resetRelease strapA strapR)) →
      t.strapA = s.strapA ∧ t.strapR = s.strapR) ∧
    (s.pending.head? ≠ some .resetAsserted → (∀ strapA strapR, s.pending.head? ≠ some (.resetRelease strapA strapR)) →
      (∀ q m, s.pending.head? ≠ some (.clearEvents q m)) →
      (∀ a data, s.pending.head? = some (.trunkGoodFrame a data) → data.head? ≠ some 0x21#8) →
      (∀ c, s.pending.head? ≠ some (.dataCharacter .trunk c)) → s.flags &&& t.flags = s.flags)

/-- Every step keeps every branch in agreement with itself, and every open frame with its address character (section
4.1, section 4.3, section 4.5, section 4.6, section 1.4, section 1.7). -/
def Obligations.StepKeepsTheBranches : Prop :=
  (∀ s t : State, BranchesAgree s → step s = .next t → BranchesAgree t) ∧
  ∀ s t : State, AssembliesBegun s → step s = .next t → AssembliesBegun t

/-- Every step keeps every parameter, counter, tag and buffer within its range (section 9.3, section 10.7, section
8.5, section 3.2, section 2.1; the model's choice in log entry 13). -/
def Obligations.StepKeepsTheValues : Prop :=
  ∀ s t : State, ValuesInRange s → step s = .next t → ValuesInRange t

/-- Every step keeps the owed reply, the queues, the completion list, the slots and the buffers in agreement with the
records (section 5.1, section 5.2, section 3.1, section 3.3, section 3.6, section 3.7, section 6.1, section 7.1). -/
def Obligations.StepKeepsTheOwedReply : Prop :=
  (∀ s t : State, OwedAgrees s → step s = .next t → OwedAgrees t) ∧
  ∀ s t : State, BranchesAgree s → OwedAgrees s → TableAgrees s → step s = .next t → TableAgrees t

/-- The part right after reset meets every invariant, and so does one held in reset (section 10.9; the model's choice
in log entries 10, 11). -/
def Obligations.ResetMeetsTheInvariants : Prop :=
  (∀ (strapA : BitVec 3) (strapR : BitVec 2) (s : State), ∃ t, exec (.resetRelease strapA strapR) s = .next t ∧
    BranchesAgree t ∧ AssembliesBegun t ∧ ValuesInRange t ∧ OwedAgrees t ∧ TableAgrees t) ∧
  (∀ s : State, ∃ t, exec .resetAsserted s = .next t ∧ BranchesAgree t ∧ AssembliesBegun t ∧ ValuesInRange t ∧
    OwedAgrees t ∧ TableAgrees t) ∧
  BranchesAgree State.reset ∧ AssembliesBegun State.reset ∧ ValuesInRange State.reset ∧ OwedAgrees State.reset ∧
    TableAgrees State.reset
end

