-- ==== Sys2Proof/Laws/State.lean ====
section
/-!
SUPPORT. One lemma per field of the state for each basic update of Ops.lean, so that no later proof unfolds a record
update. The field an update changes has its own lemma in Laws/Tables.lean or below.
-/

namespace Sys2Proof.Machine

/-! ### modifyBranch -/

@[simp] theorem modifyBranch_inReset (b : Branch) (f : BranchState → BranchState) (s : State) :
    (modifyBranch b f s).inReset = s.inReset := rfl
@[simp] theorem modifyBranch_strapA (b : Branch) (f : BranchState → BranchState) (s : State) :
    (modifyBranch b f s).strapA = s.strapA := rfl
@[simp] theorem modifyBranch_strapR (b : Branch) (f : BranchState → BranchState) (s : State) :
    (modifyBranch b f s).strapR = s.strapR := rfl
@[simp] theorem modifyBranch_params (b : Branch) (f : BranchState → BranchState) (s : State) :
    (modifyBranch b f s).params = s.params := rfl
@[simp] theorem modifyBranch_trunk (b : Branch) (f : BranchState → BranchState) (s : State) :
    (modifyBranch b f s).trunk = s.trunk := rfl
@[simp] theorem modifyBranch_bankA (b : Branch) (f : BranchState → BranchState) (s : State) :
    (modifyBranch b f s).bankA = s.bankA := rfl
@[simp] theorem modifyBranch_bankB (b : Branch) (f : BranchState → BranchState) (s : State) :
    (modifyBranch b f s).bankB = s.bankB := rfl
@[simp] theorem modifyBranch_activeBank (b : Branch) (f : BranchState → BranchState) (s : State) :
    (modifyBranch b f s).activeBank = s.activeBank := rfl
@[simp] theorem modifyBranch_records (b : Branch) (f : BranchState → BranchState) (s : State) :
    (modifyBranch b f s).records = s.records := rfl
@[simp] theorem modifyBranch_tagCounter (b : Branch) (f : BranchState → BranchState) (s : State) :
    (modifyBranch b f s).tagCounter = s.tagCounter := rfl
@[simp] theorem modifyBranch_completions (b : Branch) (f : BranchState → BranchState) (s : State) :
    (modifyBranch b f s).completions = s.completions := rfl
@[simp] theorem modifyBranch_slots (b : Branch) (f : BranchState → BranchState) (s : State) :
    (modifyBranch b f s).slots = s.slots := rfl
@[simp] theorem modifyBranch_buffers (b : Branch) (f : BranchState → BranchState) (s : State) :
    (modifyBranch b f s).buffers = s.buffers := rfl
@[simp] theorem modifyBranch_flags (b : Branch) (f : BranchState → BranchState) (s : State) :
    (modifyBranch b f s).flags = s.flags := rfl
@[simp] theorem modifyBranch_lastCode (b : Branch) (f : BranchState → BranchState) (s : State) :
    (modifyBranch b f s).lastCode = s.lastCode := rfl
@[simp] theorem modifyBranch_lastSeq (b : Branch) (f : BranchState → BranchState) (s : State) :
    (modifyBranch b f s).lastSeq = s.lastSeq := rfl
@[simp] theorem modifyBranch_pending (b : Branch) (f : BranchState → BranchState) (s : State) :
    (modifyBranch b f s).pending = s.pending := rfl

/-! ### mapBranches -/

@[simp] theorem mapBranches_inReset (f : Branch → BranchState → BranchState) (s : State) :
    (mapBranches f s).inReset = s.inReset := rfl
@[simp] theorem mapBranches_strapA (f : Branch → BranchState → BranchState) (s : State) :
    (mapBranches f s).strapA = s.strapA := rfl
@[simp] theorem mapBranches_strapR (f : Branch → BranchState → BranchState) (s : State) :
    (mapBranches f s).strapR = s.strapR := rfl
@[simp] theorem mapBranches_params (f : Branch → BranchState → BranchState) (s : State) :
    (mapBranches f s).params = s.params := rfl
@[simp] theorem mapBranches_trunk (f : Branch → BranchState → BranchState) (s : State) :
    (mapBranches f s).trunk = s.trunk := rfl
@[simp] theorem mapBranches_bankA (f : Branch → BranchState → BranchState) (s : State) :
    (mapBranches f s).bankA = s.bankA := rfl
@[simp] theorem mapBranches_bankB (f : Branch → BranchState → BranchState) (s : State) :
    (mapBranches f s).bankB = s.bankB := rfl
@[simp] theorem mapBranches_activeBank (f : Branch → BranchState → BranchState) (s : State) :
    (mapBranches f s).activeBank = s.activeBank := rfl
@[simp] theorem mapBranches_records (f : Branch → BranchState → BranchState) (s : State) :
    (mapBranches f s).records = s.records := rfl
@[simp] theorem mapBranches_tagCounter (f : Branch → BranchState → BranchState) (s : State) :
    (mapBranches f s).tagCounter = s.tagCounter := rfl
@[simp] theorem mapBranches_completions (f : Branch → BranchState → BranchState) (s : State) :
    (mapBranches f s).completions = s.completions := rfl
@[simp] theorem mapBranches_slots (f : Branch → BranchState → BranchState) (s : State) :
    (mapBranches f s).slots = s.slots := rfl
@[simp] theorem mapBranches_buffers (f : Branch → BranchState → BranchState) (s : State) :
    (mapBranches f s).buffers = s.buffers := rfl
@[simp] theorem mapBranches_flags (f : Branch → BranchState → BranchState) (s : State) :
    (mapBranches f s).flags = s.flags := rfl
@[simp] theorem mapBranches_lastCode (f : Branch → BranchState → BranchState) (s : State) :
    (mapBranches f s).lastCode = s.lastCode := rfl
@[simp] theorem mapBranches_lastSeq (f : Branch → BranchState → BranchState) (s : State) :
    (mapBranches f s).lastSeq = s.lastSeq := rfl
@[simp] theorem mapBranches_pending (f : Branch → BranchState → BranchState) (s : State) :
    (mapBranches f s).pending = s.pending := rfl

/-! ### modifyTrunk -/

@[simp] theorem modifyTrunk_inReset (f : Trunk → Trunk) (s : State) :
    (modifyTrunk f s).inReset = s.inReset := rfl
@[simp] theorem modifyTrunk_strapA (f : Trunk → Trunk) (s : State) :
    (modifyTrunk f s).strapA = s.strapA := rfl
@[simp] theorem modifyTrunk_strapR (f : Trunk → Trunk) (s : State) :
    (modifyTrunk f s).strapR = s.strapR := rfl
@[simp] theorem modifyTrunk_params (f : Trunk → Trunk) (s : State) :
    (modifyTrunk f s).params = s.params := rfl
@[simp] theorem modifyTrunk_branches (f : Trunk → Trunk) (s : State) :
    (modifyTrunk f s).branches = s.branches := rfl
@[simp] theorem modifyTrunk_bankA (f : Trunk → Trunk) (s : State) :
    (modifyTrunk f s).bankA = s.bankA := rfl
@[simp] theorem modifyTrunk_bankB (f : Trunk → Trunk) (s : State) :
    (modifyTrunk f s).bankB = s.bankB := rfl
@[simp] theorem modifyTrunk_activeBank (f : Trunk → Trunk) (s : State) :
    (modifyTrunk f s).activeBank = s.activeBank := rfl
@[simp] theorem modifyTrunk_records (f : Trunk → Trunk) (s : State) :
    (modifyTrunk f s).records = s.records := rfl
@[simp] theorem modifyTrunk_tagCounter (f : Trunk → Trunk) (s : State) :
    (modifyTrunk f s).tagCounter = s.tagCounter := rfl
@[simp] theorem modifyTrunk_completions (f : Trunk → Trunk) (s : State) :
    (modifyTrunk f s).completions = s.completions := rfl
@[simp] theorem modifyTrunk_slots (f : Trunk → Trunk) (s : State) :
    (modifyTrunk f s).slots = s.slots := rfl
@[simp] theorem modifyTrunk_buffers (f : Trunk → Trunk) (s : State) :
    (modifyTrunk f s).buffers = s.buffers := rfl
@[simp] theorem modifyTrunk_flags (f : Trunk → Trunk) (s : State) :
    (modifyTrunk f s).flags = s.flags := rfl
@[simp] theorem modifyTrunk_lastCode (f : Trunk → Trunk) (s : State) :
    (modifyTrunk f s).lastCode = s.lastCode := rfl
@[simp] theorem modifyTrunk_lastSeq (f : Trunk → Trunk) (s : State) :
    (modifyTrunk f s).lastSeq = s.lastSeq := rfl
@[simp] theorem modifyTrunk_pending (f : Trunk → Trunk) (s : State) :
    (modifyTrunk f s).pending = s.pending := rfl

@[simp] theorem modifyTrunk_trunk (f : Trunk → Trunk) (s : State) : (modifyTrunk f s).trunk = f s.trunk := rfl

/-! ### modifyRecord -/

@[simp] theorem modifyRecord_inReset (i : RecordIndex) (f : Record → Record) (s : State) :
    (modifyRecord i f s).inReset = s.inReset := rfl
@[simp] theorem modifyRecord_strapA (i : RecordIndex) (f : Record → Record) (s : State) :
    (modifyRecord i f s).strapA = s.strapA := rfl
@[simp] theorem modifyRecord_strapR (i : RecordIndex) (f : Record → Record) (s : State) :
    (modifyRecord i f s).strapR = s.strapR := rfl
@[simp] theorem modifyRecord_params (i : RecordIndex) (f : Record → Record) (s : State) :
    (modifyRecord i f s).params = s.params := rfl
@[simp] theorem modifyRecord_trunk (i : RecordIndex) (f : Record → Record) (s : State) :
    (modifyRecord i f s).trunk = s.trunk := rfl
@[simp] theorem modifyRecord_branches (i : RecordIndex) (f : Record → Record) (s : State) :
    (modifyRecord i f s).branches = s.branches := rfl
@[simp] theorem modifyRecord_bankA (i : RecordIndex) (f : Record → Record) (s : State) :
    (modifyRecord i f s).bankA = s.bankA := rfl
@[simp] theorem modifyRecord_bankB (i : RecordIndex) (f : Record → Record) (s : State) :
    (modifyRecord i f s).bankB = s.bankB := rfl
@[simp] theorem modifyRecord_activeBank (i : RecordIndex) (f : Record → Record) (s : State) :
    (modifyRecord i f s).activeBank = s.activeBank := rfl
@[simp] theorem modifyRecord_tagCounter (i : RecordIndex) (f : Record → Record) (s : State) :
    (modifyRecord i f s).tagCounter = s.tagCounter := rfl
@[simp] theorem modifyRecord_completions (i : RecordIndex) (f : Record → Record) (s : State) :
    (modifyRecord i f s).completions = s.completions := rfl
@[simp] theorem modifyRecord_slots (i : RecordIndex) (f : Record → Record) (s : State) :
    (modifyRecord i f s).slots = s.slots := rfl
@[simp] theorem modifyRecord_buffers (i : RecordIndex) (f : Record → Record) (s : State) :
    (modifyRecord i f s).buffers = s.buffers := rfl
@[simp] theorem modifyRecord_flags (i : RecordIndex) (f : Record → Record) (s : State) :
    (modifyRecord i f s).flags = s.flags := rfl
@[simp] theorem modifyRecord_lastCode (i : RecordIndex) (f : Record → Record) (s : State) :
    (modifyRecord i f s).lastCode = s.lastCode := rfl
@[simp] theorem modifyRecord_lastSeq (i : RecordIndex) (f : Record → Record) (s : State) :
    (modifyRecord i f s).lastSeq = s.lastSeq := rfl
@[simp] theorem modifyRecord_pending (i : RecordIndex) (f : Record → Record) (s : State) :
    (modifyRecord i f s).pending = s.pending := rfl

/-! ### modifySlot -/

@[simp] theorem modifySlot_inReset (k : SlotIndex) (f : Slot → Slot) (s : State) :
    (modifySlot k f s).inReset = s.inReset := rfl
@[simp] theorem modifySlot_strapA (k : SlotIndex) (f : Slot → Slot) (s : State) :
    (modifySlot k f s).strapA = s.strapA := rfl
@[simp] theorem modifySlot_strapR (k : SlotIndex) (f : Slot → Slot) (s : State) :
    (modifySlot k f s).strapR = s.strapR := rfl
@[simp] theorem modifySlot_params (k : SlotIndex) (f : Slot → Slot) (s : State) :
    (modifySlot k f s).params = s.params := rfl
@[simp] theorem modifySlot_trunk (k : SlotIndex) (f : Slot → Slot) (s : State) :
    (modifySlot k f s).trunk = s.trunk := rfl
@[simp] theorem modifySlot_branches (k : SlotIndex) (f : Slot → Slot) (s : State) :
    (modifySlot k f s).branches = s.branches := rfl
@[simp] theorem modifySlot_bankA (k : SlotIndex) (f : Slot → Slot) (s : State) :
    (modifySlot k f s).bankA = s.bankA := rfl
@[simp] theorem modifySlot_bankB (k : SlotIndex) (f : Slot → Slot) (s : State) :
    (modifySlot k f s).bankB = s.bankB := rfl
@[simp] theorem modifySlot_activeBank (k : SlotIndex) (f : Slot → Slot) (s : State) :
    (modifySlot k f s).activeBank = s.activeBank := rfl
@[simp] theorem modifySlot_records (k : SlotIndex) (f : Slot → Slot) (s : State) :
    (modifySlot k f s).records = s.records := rfl
@[simp] theorem modifySlot_tagCounter (k : SlotIndex) (f : Slot → Slot) (s : State) :
    (modifySlot k f s).tagCounter = s.tagCounter := rfl
@[simp] theorem modifySlot_completions (k : SlotIndex) (f : Slot → Slot) (s : State) :
    (modifySlot k f s).completions = s.completions := rfl
@[simp] theorem modifySlot_buffers (k : SlotIndex) (f : Slot → Slot) (s : State) :
    (modifySlot k f s).buffers = s.buffers := rfl
@[simp] theorem modifySlot_flags (k : SlotIndex) (f : Slot → Slot) (s : State) :
    (modifySlot k f s).flags = s.flags := rfl
@[simp] theorem modifySlot_lastCode (k : SlotIndex) (f : Slot → Slot) (s : State) :
    (modifySlot k f s).lastCode = s.lastCode := rfl
@[simp] theorem modifySlot_lastSeq (k : SlotIndex) (f : Slot → Slot) (s : State) :
    (modifySlot k f s).lastSeq = s.lastSeq := rfl
@[simp] theorem modifySlot_pending (k : SlotIndex) (f : Slot → Slot) (s : State) :
    (modifySlot k f s).pending = s.pending := rfl

/-! ### modifyPort -/

@[simp] theorem modifyPort_inReset (p : Port) (f : PortState → PortState) (s : State) :
    (modifyPort p f s).inReset = s.inReset := by cases p <;> rfl
@[simp] theorem modifyPort_strapA (p : Port) (f : PortState → PortState) (s : State) :
    (modifyPort p f s).strapA = s.strapA := by cases p <;> rfl
@[simp] theorem modifyPort_strapR (p : Port) (f : PortState → PortState) (s : State) :
    (modifyPort p f s).strapR = s.strapR := by cases p <;> rfl
@[simp] theorem modifyPort_params (p : Port) (f : PortState → PortState) (s : State) :
    (modifyPort p f s).params = s.params := by cases p <;> rfl
@[simp] theorem modifyPort_bankA (p : Port) (f : PortState → PortState) (s : State) :
    (modifyPort p f s).bankA = s.bankA := by cases p <;> rfl
@[simp] theorem modifyPort_bankB (p : Port) (f : PortState → PortState) (s : State) :
    (modifyPort p f s).bankB = s.bankB := by cases p <;> rfl
@[simp] theorem modifyPort_activeBank (p : Port) (f : PortState → PortState) (s : State) :
    (modifyPort p f s).activeBank = s.activeBank := by cases p <;> rfl
@[simp] theorem modifyPort_records (p : Port) (f : PortState → PortState) (s : State) :
    (modifyPort p f s).records = s.records := by cases p <;> rfl
@[simp] theorem modifyPort_tagCounter (p : Port) (f : PortState → PortState) (s : State) :
    (modifyPort p f s).tagCounter = s.tagCounter := by cases p <;> rfl
@[simp] theorem modifyPort_completions (p : Port) (f : PortState → PortState) (s : State) :
    (modifyPort p f s).completions = s.completions := by cases p <;> rfl
@[simp] theorem modifyPort_slots (p : Port) (f : PortState → PortState) (s : State) :
    (modifyPort p f s).slots = s.slots := by cases p <;> rfl
@[simp] theorem modifyPort_buffers (p : Port) (f : PortState → PortState) (s : State) :
    (modifyPort p f s).buffers = s.buffers := by cases p <;> rfl
@[simp] theorem modifyPort_flags (p : Port) (f : PortState → PortState) (s : State) :
    (modifyPort p f s).flags = s.flags := by cases p <;> rfl
@[simp] theorem modifyPort_lastCode (p : Port) (f : PortState → PortState) (s : State) :
    (modifyPort p f s).lastCode = s.lastCode := by cases p <;> rfl
@[simp] theorem modifyPort_lastSeq (p : Port) (f : PortState → PortState) (s : State) :
    (modifyPort p f s).lastSeq = s.lastSeq := by cases p <;> rfl
@[simp] theorem modifyPort_pending (p : Port) (f : PortState → PortState) (s : State) :
    (modifyPort p f s).pending = s.pending := by cases p <;> rfl

@[simp] theorem modifyPort_trunk (f : PortState → PortState) (s : State) :
    (modifyPort .trunk f s).trunk = { s.trunk with port := f s.trunk.port } := rfl
@[simp] theorem modifyPort_trunk_branches (f : PortState → PortState) (s : State) :
    (modifyPort .trunk f s).branches = s.branches := rfl
@[simp] theorem modifyPort_branch_trunk (b : Branch) (f : PortState → PortState) (s : State) :
    (modifyPort (.branch b) f s).trunk = s.trunk := rfl

/-! ### setBank -/

@[simp] theorem setBank_inReset (k : Bank) (v : Vector RouteEntry Config.entryCount) (s : State) :
    (setBank k v s).inReset = s.inReset := by cases k <;> rfl
@[simp] theorem setBank_strapA (k : Bank) (v : Vector RouteEntry Config.entryCount) (s : State) :
    (setBank k v s).strapA = s.strapA := by cases k <;> rfl
@[simp] theorem setBank_strapR (k : Bank) (v : Vector RouteEntry Config.entryCount) (s : State) :
    (setBank k v s).strapR = s.strapR := by cases k <;> rfl
@[simp] theorem setBank_params (k : Bank) (v : Vector RouteEntry Config.entryCount) (s : State) :
    (setBank k v s).params = s.params := by cases k <;> rfl
@[simp] theorem setBank_trunk (k : Bank) (v : Vector RouteEntry Config.entryCount) (s : State) :
    (setBank k v s).trunk = s.trunk := by cases k <;> rfl
@[simp] theorem setBank_branches (k : Bank) (v : Vector RouteEntry Config.entryCount) (s : State) :
    (setBank k v s).branches = s.branches := by cases k <;> rfl
@[simp] theorem setBank_activeBank (k : Bank) (v : Vector RouteEntry Config.entryCount) (s : State) :
    (setBank k v s).activeBank = s.activeBank := by cases k <;> rfl
@[simp] theorem setBank_records (k : Bank) (v : Vector RouteEntry Config.entryCount) (s : State) :
    (setBank k v s).records = s.records := by cases k <;> rfl
@[simp] theorem setBank_tagCounter (k : Bank) (v : Vector RouteEntry Config.entryCount) (s : State) :
    (setBank k v s).tagCounter = s.tagCounter := by cases k <;> rfl
@[simp] theorem setBank_completions (k : Bank) (v : Vector RouteEntry Config.entryCount) (s : State) :
    (setBank k v s).completions = s.completions := by cases k <;> rfl
@[simp] theorem setBank_slots (k : Bank) (v : Vector RouteEntry Config.entryCount) (s : State) :
    (setBank k v s).slots = s.slots := by cases k <;> rfl
@[simp] theorem setBank_buffers (k : Bank) (v : Vector RouteEntry Config.entryCount) (s : State) :
    (setBank k v s).buffers = s.buffers := by cases k <;> rfl
@[simp] theorem setBank_flags (k : Bank) (v : Vector RouteEntry Config.entryCount) (s : State) :
    (setBank k v s).flags = s.flags := by cases k <;> rfl
@[simp] theorem setBank_lastCode (k : Bank) (v : Vector RouteEntry Config.entryCount) (s : State) :
    (setBank k v s).lastCode = s.lastCode := by cases k <;> rfl
@[simp] theorem setBank_lastSeq (k : Bank) (v : Vector RouteEntry Config.entryCount) (s : State) :
    (setBank k v s).lastSeq = s.lastSeq := by cases k <;> rfl
@[simp] theorem setBank_pending (k : Bank) (v : Vector RouteEntry Config.entryCount) (s : State) :
    (setBank k v s).pending = s.pending := by cases k <;> rfl

@[simp] theorem setBank_bank (k : Bank) (v : Vector RouteEntry Config.entryCount) (s : State) :
    (setBank k v s).bank k = v := by cases k <;> rfl
@[simp] theorem setBank_otherBank (k : Bank) (v : Vector RouteEntry Config.entryCount) (s : State) :
    (setBank k v s).bank (otherBank k) = s.bank (otherBank k) := by cases k <;> rfl

/-! ### raise -/

@[simp] theorem raise_inReset (f : Flag) (s : State) :
    (raise f s).inReset = s.inReset := rfl
@[simp] theorem raise_strapA (f : Flag) (s : State) :
    (raise f s).strapA = s.strapA := rfl
@[simp] theorem raise_strapR (f : Flag) (s : State) :
    (raise f s).strapR = s.strapR := rfl
@[simp] theorem raise_params (f : Flag) (s : State) :
    (raise f s).params = s.params := rfl
@[simp] theorem raise_trunk (f : Flag) (s : State) :
    (raise f s).trunk = s.trunk := rfl
@[simp] theorem raise_branches (f : Flag) (s : State) :
    (raise f s).branches = s.branches := rfl
@[simp] theorem raise_bankA (f : Flag) (s : State) :
    (raise f s).bankA = s.bankA := rfl
@[simp] theorem raise_bankB (f : Flag) (s : State) :
    (raise f s).bankB = s.bankB := rfl
@[simp] theorem raise_activeBank (f : Flag) (s : State) :
    (raise f s).activeBank = s.activeBank := rfl
@[simp] theorem raise_records (f : Flag) (s : State) :
    (raise f s).records = s.records := rfl
@[simp] theorem raise_tagCounter (f : Flag) (s : State) :
    (raise f s).tagCounter = s.tagCounter := rfl
@[simp] theorem raise_completions (f : Flag) (s : State) :
    (raise f s).completions = s.completions := rfl
@[simp] theorem raise_slots (f : Flag) (s : State) :
    (raise f s).slots = s.slots := rfl
@[simp] theorem raise_buffers (f : Flag) (s : State) :
    (raise f s).buffers = s.buffers := rfl
@[simp] theorem raise_lastCode (f : Flag) (s : State) :
    (raise f s).lastCode = s.lastCode := rfl
@[simp] theorem raise_lastSeq (f : Flag) (s : State) :
    (raise f s).lastSeq = s.lastSeq := rfl
@[simp] theorem raise_pending (f : Flag) (s : State) :
    (raise f s).pending = s.pending := rfl

@[simp] theorem raise_flags (f : Flag) (s : State) : (raise f s).flags = s.flags ||| flagMask f := rfl

/-! ### returnBuffer -/

@[simp] theorem returnBuffer_inReset (h : Holder) (s : State) :
    (returnBuffer h s).inReset = s.inReset := rfl
@[simp] theorem returnBuffer_strapA (h : Holder) (s : State) :
    (returnBuffer h s).strapA = s.strapA := rfl
@[simp] theorem returnBuffer_strapR (h : Holder) (s : State) :
    (returnBuffer h s).strapR = s.strapR := rfl
@[simp] theorem returnBuffer_params (h : Holder) (s : State) :
    (returnBuffer h s).params = s.params := rfl
@[simp] theorem returnBuffer_trunk (h : Holder) (s : State) :
    (returnBuffer h s).trunk = s.trunk := rfl
@[simp] theorem returnBuffer_branches (h : Holder) (s : State) :
    (returnBuffer h s).branches = s.branches := rfl
@[simp] theorem returnBuffer_bankA (h : Holder) (s : State) :
    (returnBuffer h s).bankA = s.bankA := rfl
@[simp] theorem returnBuffer_bankB (h : Holder) (s : State) :
    (returnBuffer h s).bankB = s.bankB := rfl
@[simp] theorem returnBuffer_activeBank (h : Holder) (s : State) :
    (returnBuffer h s).activeBank = s.activeBank := rfl
@[simp] theorem returnBuffer_records (h : Holder) (s : State) :
    (returnBuffer h s).records = s.records := rfl
@[simp] theorem returnBuffer_tagCounter (h : Holder) (s : State) :
    (returnBuffer h s).tagCounter = s.tagCounter := rfl
@[simp] theorem returnBuffer_completions (h : Holder) (s : State) :
    (returnBuffer h s).completions = s.completions := rfl
@[simp] theorem returnBuffer_slots (h : Holder) (s : State) :
    (returnBuffer h s).slots = s.slots := rfl
@[simp] theorem returnBuffer_flags (h : Holder) (s : State) :
    (returnBuffer h s).flags = s.flags := rfl
@[simp] theorem returnBuffer_lastCode (h : Holder) (s : State) :
    (returnBuffer h s).lastCode = s.lastCode := rfl
@[simp] theorem returnBuffer_lastSeq (h : Holder) (s : State) :
    (returnBuffer h s).lastSeq = s.lastSeq := rfl
@[simp] theorem returnBuffer_pending (h : Holder) (s : State) :
    (returnBuffer h s).pending = s.pending := rfl

/-! ### handOver -/

@[simp] theorem handOver_inReset (h g : Holder) (s : State) :
    (handOver h g s).inReset = s.inReset := rfl
@[simp] theorem handOver_strapA (h g : Holder) (s : State) :
    (handOver h g s).strapA = s.strapA := rfl
@[simp] theorem handOver_strapR (h g : Holder) (s : State) :
    (handOver h g s).strapR = s.strapR := rfl
@[simp] theorem handOver_params (h g : Holder) (s : State) :
    (handOver h g s).params = s.params := rfl
@[simp] theorem handOver_trunk (h g : Holder) (s : State) :
    (handOver h g s).trunk = s.trunk := rfl
@[simp] theorem handOver_branches (h g : Holder) (s : State) :
    (handOver h g s).branches = s.branches := rfl
@[simp] theorem handOver_bankA (h g : Holder) (s : State) :
    (handOver h g s).bankA = s.bankA := rfl
@[simp] theorem handOver_bankB (h g : Holder) (s : State) :
    (handOver h g s).bankB = s.bankB := rfl
@[simp] theorem handOver_activeBank (h g : Holder) (s : State) :
    (handOver h g s).activeBank = s.activeBank := rfl
@[simp] theorem handOver_records (h g : Holder) (s : State) :
    (handOver h g s).records = s.records := rfl
@[simp] theorem handOver_tagCounter (h g : Holder) (s : State) :
    (handOver h g s).tagCounter = s.tagCounter := rfl
@[simp] theorem handOver_completions (h g : Holder) (s : State) :
    (handOver h g s).completions = s.completions := rfl
@[simp] theorem handOver_slots (h g : Holder) (s : State) :
    (handOver h g s).slots = s.slots := rfl
@[simp] theorem handOver_flags (h g : Holder) (s : State) :
    (handOver h g s).flags = s.flags := rfl
@[simp] theorem handOver_lastCode (h g : Holder) (s : State) :
    (handOver h g s).lastCode = s.lastCode := rfl
@[simp] theorem handOver_lastSeq (h g : Holder) (s : State) :
    (handOver h g s).lastSeq = s.lastSeq := rfl
@[simp] theorem handOver_pending (h g : Holder) (s : State) :
    (handOver h g s).pending = s.pending := rfl

/-! ### writeBuffer -/

@[simp] theorem writeBuffer_inReset (h : Holder) (chars : List Byte) (s : State) :
    (writeBuffer h chars s).inReset = s.inReset := rfl
@[simp] theorem writeBuffer_strapA (h : Holder) (chars : List Byte) (s : State) :
    (writeBuffer h chars s).strapA = s.strapA := rfl
@[simp] theorem writeBuffer_strapR (h : Holder) (chars : List Byte) (s : State) :
    (writeBuffer h chars s).strapR = s.strapR := rfl
@[simp] theorem writeBuffer_params (h : Holder) (chars : List Byte) (s : State) :
    (writeBuffer h chars s).params = s.params := rfl
@[simp] theorem writeBuffer_trunk (h : Holder) (chars : List Byte) (s : State) :
    (writeBuffer h chars s).trunk = s.trunk := rfl
@[simp] theorem writeBuffer_branches (h : Holder) (chars : List Byte) (s : State) :
    (writeBuffer h chars s).branches = s.branches := rfl
@[simp] theorem writeBuffer_bankA (h : Holder) (chars : List Byte) (s : State) :
    (writeBuffer h chars s).bankA = s.bankA := rfl
@[simp] theorem writeBuffer_bankB (h : Holder) (chars : List Byte) (s : State) :
    (writeBuffer h chars s).bankB = s.bankB := rfl
@[simp] theorem writeBuffer_activeBank (h : Holder) (chars : List Byte) (s : State) :
    (writeBuffer h chars s).activeBank = s.activeBank := rfl
@[simp] theorem writeBuffer_records (h : Holder) (chars : List Byte) (s : State) :
    (writeBuffer h chars s).records = s.records := rfl
@[simp] theorem writeBuffer_tagCounter (h : Holder) (chars : List Byte) (s : State) :
    (writeBuffer h chars s).tagCounter = s.tagCounter := rfl
@[simp] theorem writeBuffer_completions (h : Holder) (chars : List Byte) (s : State) :
    (writeBuffer h chars s).completions = s.completions := rfl
@[simp] theorem writeBuffer_slots (h : Holder) (chars : List Byte) (s : State) :
    (writeBuffer h chars s).slots = s.slots := rfl
@[simp] theorem writeBuffer_flags (h : Holder) (chars : List Byte) (s : State) :
    (writeBuffer h chars s).flags = s.flags := rfl
@[simp] theorem writeBuffer_lastCode (h : Holder) (chars : List Byte) (s : State) :
    (writeBuffer h chars s).lastCode = s.lastCode := rfl
@[simp] theorem writeBuffer_lastSeq (h : Holder) (chars : List Byte) (s : State) :
    (writeBuffer h chars s).lastSeq = s.lastSeq := rfl
@[simp] theorem writeBuffer_pending (h : Holder) (chars : List Byte) (s : State) :
    (writeBuffer h chars s).pending = s.pending := rfl

/-- A claim changes the buffers and the flags alone. -/
theorem claimBuffer_only (h : Holder) (chars : List Byte) (s : State) : claimBuffer h chars s =
    { s with buffers := (claimBuffer h chars s).buffers, flags := (claimBuffer h chars s).flags } := by
  unfold claimBuffer
  split
  · rfl
  · dsimp only
    split <;> rfl

@[simp] theorem claimBuffer_inReset (h : Holder) (chars : List Byte) (s : State) :
    (claimBuffer h chars s).inReset = s.inReset := by rw [claimBuffer_only]
@[simp] theorem claimBuffer_strapA (h : Holder) (chars : List Byte) (s : State) :
    (claimBuffer h chars s).strapA = s.strapA := by rw [claimBuffer_only]
@[simp] theorem claimBuffer_strapR (h : Holder) (chars : List Byte) (s : State) :
    (claimBuffer h chars s).strapR = s.strapR := by rw [claimBuffer_only]
@[simp] theorem claimBuffer_params (h : Holder) (chars : List Byte) (s : State) :
    (claimBuffer h chars s).params = s.params := by rw [claimBuffer_only]
@[simp] theorem claimBuffer_trunk (h : Holder) (chars : List Byte) (s : State) :
    (claimBuffer h chars s).trunk = s.trunk := by rw [claimBuffer_only]
@[simp] theorem claimBuffer_branches (h : Holder) (chars : List Byte) (s : State) :
    (claimBuffer h chars s).branches = s.branches := by rw [claimBuffer_only]
@[simp] theorem claimBuffer_bankA (h : Holder) (chars : List Byte) (s : State) :
    (claimBuffer h chars s).bankA = s.bankA := by rw [claimBuffer_only]
@[simp] theorem claimBuffer_bankB (h : Holder) (chars : List Byte) (s : State) :
    (claimBuffer h chars s).bankB = s.bankB := by rw [claimBuffer_only]
@[simp] theorem claimBuffer_activeBank (h : Holder) (chars : List Byte) (s : State) :
    (claimBuffer h chars s).activeBank = s.activeBank := by rw [claimBuffer_only]
@[simp] theorem claimBuffer_records (h : Holder) (chars : List Byte) (s : State) :
    (claimBuffer h chars s).records = s.records := by rw [claimBuffer_only]
@[simp] theorem claimBuffer_tagCounter (h : Holder) (chars : List Byte) (s : State) :
    (claimBuffer h chars s).tagCounter = s.tagCounter := by rw [claimBuffer_only]
@[simp] theorem claimBuffer_completions (h : Holder) (chars : List Byte) (s : State) :
    (claimBuffer h chars s).completions = s.completions := by rw [claimBuffer_only]
@[simp] theorem claimBuffer_slots (h : Holder) (chars : List Byte) (s : State) :
    (claimBuffer h chars s).slots = s.slots := by rw [claimBuffer_only]
@[simp] theorem claimBuffer_lastCode (h : Holder) (chars : List Byte) (s : State) :
    (claimBuffer h chars s).lastCode = s.lastCode := by rw [claimBuffer_only]
@[simp] theorem claimBuffer_lastSeq (h : Holder) (chars : List Byte) (s : State) :
    (claimBuffer h chars s).lastSeq = s.lastSeq := by rw [claimBuffer_only]
@[simp] theorem claimBuffer_pending (h : Holder) (chars : List Byte) (s : State) :
    (claimBuffer h chars s).pending = s.pending := by rw [claimBuffer_only]

end Sys2Proof.Machine
end

