-- ==== Sys2Proof/Laws/Tables.lean ====
section
/-!
SUPPORT. What the tables of the part give at one place after an update, and what a search by index comes to.
-/

namespace Sys2Proof.Machine

variable {α β : Type} {n : Nat}

/-- A table with one place changed reads as changed there and as before elsewhere. -/
theorem updateAt_get (v : Vector α n) (i j : Fin n) (f : α → α) :
    (updateAt v i f)[j] = if j = i then f v[j] else v[j] := by
  unfold updateAt
  by_cases h : j = i
  · subst h; simp
  · have : i.val ≠ j.val := fun e => h (Fin.ext e.symm)
    simp [h, this]

/-- The changed place. -/
theorem updateAt_same (v : Vector α n) (i : Fin n) (f : α → α) : (updateAt v i f)[i] = f v[i] := by
  rw [updateAt_get, if_pos rfl]

/-- Every other place. -/
theorem updateAt_other (v : Vector α n) {i j : Fin n} (f : α → α) (h : j ≠ i) : (updateAt v i f)[j] = v[j] := by
  rw [updateAt_get, if_neg h]

/-- A table built place by place. -/
theorem tableOf_get (f : Fin n → α) (i : Fin n) : (tableOf f)[i] = f i := by
  unfold tableOf
  show (((List.finRange n).map f).toArray)[i.val]'_ = f i
  simp

/-- A table with every place changed. -/
theorem mapTable_get (f : α → β) (v : Vector α n) (i : Fin n) : (mapTable f v)[i] = f v[i] := by
  unfold mapTable
  show ((v.toList.map f).toArray)[i.val]'_ = f v[i]
  simp

/-- `tableOf_get` at the simp-normal form of a place. -/
@[simp] theorem tableOf_val (f : Fin n → α) (i : Fin n) : (tableOf f)[i.val] = f i := tableOf_get f i

/-- `mapTable_get` at the simp-normal form of a place. -/
@[simp] theorem mapTable_val (f : α → β) (v : Vector α n) (i : Fin n) : (mapTable f v)[i.val] = f v[i] :=
  mapTable_get f v i

/-- `updateAt_get` at the simp-normal form of a place. -/
theorem updateAt_val (v : Vector α n) (i j : Fin n) (f : α → α) :
    (updateAt v i f)[j.val] = if j = i then f v[j] else v[j] := updateAt_get v i j f

/-- `updateAt_same` at the simp-normal form of a place. -/
@[simp] theorem updateAt_same_val (v : Vector α n) (i : Fin n) (f : α → α) : (updateAt v i f)[i.val] = f v[i] :=
  updateAt_same v i f

/-- Two tables that agree at every place are one. -/
theorem table_ext {v w : Vector α n} (h : ∀ i : Fin n, v[i] = w[i]) : v = w :=
  Vector.ext fun i hi => h ⟨i, hi⟩

/-- A search by index that finds `i`: the test holds at `i` and at no lower index. -/
theorem lowestIndex_eq_some {p : Fin n → Bool} {i : Fin n} :
    lowestIndex p = some i ↔ p i = true ∧ ∀ j < i, p j = false := by
  unfold lowestIndex
  rw [List.find?_eq_some_iff_getElem]
  constructor
  · rintro ⟨hp, k, hk, he, hlow⟩
    simp only [List.getElem_finRange] at he
    subst he
    refine ⟨hp, fun j hj => ?_⟩
    have := hlow j.val hj
    simpa using this
  · rintro ⟨hp, hlow⟩
    refine ⟨hp, i.val, by simp, by simp, fun j hj => ?_⟩
    have := hlow ⟨j, hj.trans i.isLt⟩ hj
    simpa using this

/-- A search by index that finds nothing. -/
theorem lowestIndex_eq_none {p : Fin n → Bool} : lowestIndex p = none ↔ ∀ i, p i = false := by
  unfold lowestIndex
  simp

/-- One branch after `modifyBranch`. -/
theorem modifyBranch_branches (b d : Branch) (f : BranchState → BranchState) (s : State) :
    (modifyBranch b f s).branches[d] = if d = b then f s.branches[d] else s.branches[d] := updateAt_get _ _ _ _

/-- The branch that `modifyBranch` changes. -/
theorem modifyBranch_same (b : Branch) (f : BranchState → BranchState) (s : State) :
    (modifyBranch b f s).branches[b] = f s.branches[b] := updateAt_same _ _ _

/-- `modifyBranch_same` at the simp-normal form of a place. -/
@[simp] theorem modifyBranch_same_val (b : Branch) (f : BranchState → BranchState) (s : State) :
    (modifyBranch b f s).branches[b.val] = f s.branches[b] := modifyBranch_same b f s

/-- One branch after `mapBranches`. -/
theorem mapBranches_branches (f : Branch → BranchState → BranchState) (b : Branch) (s : State) :
    (mapBranches f s).branches[b] = f b s.branches[b] := tableOf_get _ _

/-- One record after `modifyRecord`. -/
theorem modifyRecord_records (i j : RecordIndex) (f : Record → Record) (s : State) :
    (modifyRecord i f s).records[j] = if j = i then f s.records[j] else s.records[j] := updateAt_get _ _ _ _

/-- The record that `modifyRecord` changes. -/
theorem modifyRecord_same (i : RecordIndex) (f : Record → Record) (s : State) :
    (modifyRecord i f s).records[i] = f s.records[i] := updateAt_same _ _ _

/-- One slot after `modifySlot`. -/
theorem modifySlot_slots (k j : SlotIndex) (f : Slot → Slot) (s : State) :
    (modifySlot k f s).slots[j] = if j = k then f s.slots[j] else s.slots[j] := updateAt_get _ _ _ _

/-- The slot that `modifySlot` changes. -/
theorem modifySlot_same (k : SlotIndex) (f : Slot → Slot) (s : State) :
    (modifySlot k f s).slots[k] = f s.slots[k] := updateAt_same _ _ _

/-- One entry of a bank after `modifyEntry` of that bank. -/
theorem modifyEntry_bank (k : Bank) (j i : Fin Config.entryCount) (f : RouteEntry → RouteEntry) (s : State) :
    ((modifyEntry k j f s).bank k)[i] = if i = j then f (s.bank k)[i] else (s.bank k)[i] := by
  unfold modifyEntry
  rw [setBank_bank]
  exact updateAt_get _ _ _ _

/-- The port that `modifyPort` changes. -/
@[simp] theorem modifyPort_port (p : Port) (f : PortState → PortState) (s : State) :
    (modifyPort p f s).port p = f (s.port p) := by
  cases p with
  | trunk => rfl
  | branch b => exact congrArg BranchState.port (modifyBranch_same b _ s)

/-- Every other port. -/
theorem modifyPort_other {p q : Port} (f : PortState → PortState) (s : State) (h : q ≠ p) :
    (modifyPort p f s).port q = s.port q := by
  cases p with
  | trunk => cases q with
    | trunk => exact absurd rfl h
    | branch b => rfl
  | branch b => cases q with
    | trunk => rfl
    | branch d =>
      have : d ≠ b := fun e => h (by rw [e])
      show BranchState.port (modifyBranch b _ s).branches[d] = s.branches[d].port
      rw [modifyBranch_branches, if_neg this]

/-- A lookup that selects an entry (R28). -/
theorem lookup_eq_some {s : State} {a : Byte} {j : Fin Config.entryCount} :
    lookup s a = some j ↔ entryMatches (s.bank s.activeBank)[j] a = true ∧
      ∀ k < j, entryMatches (s.bank s.activeBank)[k] a = false := lowestIndex_eq_some

/-- A lookup that selects nothing (R28). -/
theorem lookup_eq_none {s : State} {a : Byte} :
    lookup s a = none ↔ ∀ j : Fin Config.entryCount, entryMatches (s.bank s.activeBank)[j] a = false :=
  lowestIndex_eq_none

end Sys2Proof.Machine
end

