-- ==== Sys2Proof/Laws/Pool.lean ====
section
/-!
SUPPORT. What each operation of the frame buffer pool does, said once: to every buffer, to what a holder holds, to the
free count, and to the pool's one form.
-/

namespace Sys2Proof.Machine

/-! ### Each buffer -/

/-- A return frees the holder's buffers and no other (R126). -/
theorem returnBuffer_buffers (h : Holder) (s : State) (i : Fin Config.bufferCount) :
    (returnBuffer h s).buffers[i] = if s.buffers[i].holder = h then Buffer.empty else s.buffers[i] :=
  mapTable_get _ _ _

/-- A hand-over moves the holder's buffers and no other (R125). -/
theorem handOver_buffers (h g : Holder) (s : State) (i : Fin Config.bufferCount) :
    (handOver h g s).buffers[i] =
      if s.buffers[i].holder = h then { s.buffers[i] with holder := g } else s.buffers[i] :=
  mapTable_get _ _ _

/-- A write replaces the characters of the holder's buffers and no other. -/
theorem writeBuffer_buffers (h : Holder) (chars : List Byte) (s : State) (i : Fin Config.bufferCount) :
    (writeBuffer h chars s).buffers[i] =
      if s.buffers[i].holder = h then { s.buffers[i] with chars := chars } else s.buffers[i] :=
  mapTable_get _ _ _

/-- No buffer is free exactly when the free count is 0. -/
theorem lowestFreeBuffer_eq_none {s : State} : lowestFreeBuffer s = none ↔ freeCount s = 0 := by
  unfold lowestFreeBuffer freeCount
  rw [lowestIndex_eq_none, List.countP_eq_zero]
  constructor
  · intro h c hc
    obtain ⟨i, hi, rfl⟩ := Vector.mem_iff_getElem.mp (Vector.mem_toList_iff.mp hc)
    simpa using h ⟨i, hi⟩
  · intro h i
    simpa using h s.buffers[i] (Vector.mem_toList_iff.mpr (Vector.getElem_mem _))

/-- A claim with a free buffer takes the lowest-numbered one (R120). -/
theorem claimBuffer_buffers {s : State} {i : Fin Config.bufferCount} (hi : lowestFreeBuffer s = some i) (h : Holder)
    (chars : List Byte) :
    (claimBuffer h chars s).buffers = updateAt s.buffers i fun _ => { holder := h, chars := chars } := by
  unfold claimBuffer
  rw [hi]
  dsimp only
  split <;> rfl

/-- A claim that finds no free buffer changes nothing. -/
theorem claimBuffer_none {s : State} (h0 : freeCount s = 0) (h : Holder) (chars : List Byte) :
    claimBuffer h chars s = s := by
  unfold claimBuffer
  rw [lowestFreeBuffer_eq_none.mpr h0]

/-- The number of places of a table that meet a test, after a place that met it no longer does. -/
theorem countP_updateAt {α : Type} {n : Nat} (p : α → Bool) (v : Vector α n) (i : Fin n) (x : α) (hi : p v[i] = true)
    (hx : p x = false) : (updateAt v i fun _ => x).toList.countP p = v.toList.countP p - 1 := by
  unfold updateAt
  rw [Vector.toList_set, List.countP_set (by simp)]
  have e : v.toList[i.val]'(by simp) = v[i] := by simp
  rw [e, hi, hx]
  simp

/-- A claim leaves one free buffer less. -/
theorem freeCount_claimBuffer {s : State} {h : Holder} (hh : h ≠ .free) (chars : List Byte) :
    freeCount (claimBuffer h chars s) = freeCount s - 1 := by
  cases hl : lowestFreeBuffer s with
  | none =>
    have h0 := lowestFreeBuffer_eq_none.mp hl
    rw [claimBuffer_none h0, h0]
  | some i =>
    have hi : (s.buffers[i].holder == .free) = true := (lowestIndex_eq_some.mp hl).1
    unfold freeCount
    rw [claimBuffer_buffers hl]
    exact countP_updateAt (fun c => c.holder == .free) s.buffers i { holder := h, chars := chars } hi (by simpa using hh)

/-- A claim sets BUF_LOW exactly when it leaves the free count below BUF_LOW_MARK (R124). -/
theorem claimBuffer_flags {s : State} (hfree : 0 < freeCount s) {h : Holder} (hh : h ≠ .free) (chars : List Byte) :
    (claimBuffer h chars s).flags = claimedFlags s := by
  cases hl : lowestFreeBuffer s with
  | none => exact absurd (lowestFreeBuffer_eq_none.mp hl) (Nat.ne_of_gt hfree)
  | some i =>
    have hc := freeCount_claimBuffer (s := s) hh chars
    have e : freeCount (claimBuffer h chars s) =
        freeCount { s with buffers := updateAt s.buffers i fun _ => { holder := h, chars := chars } } := by
      unfold freeCount
      rw [claimBuffer_buffers hl]
    rw [hc] at e
    unfold claimBuffer claimedFlags
    rw [hl]
    dsimp only
    rw [← e]
    by_cases hm : freeCount s ≤ s.params.bufLowMark
    · rw [if_pos (by omega), if_pos hm, raise_flags]
    · rw [if_neg (by omega), if_neg hm]

/-! ### What a holder holds -/

/-- A holder that holds nothing. -/
theorem heldFrame_eq_none {h : Holder} {s : State} :
    heldFrame h s = none ↔ ∀ i : Fin Config.bufferCount, s.buffers[i].holder ≠ h := by
  unfold heldFrame
  rw [Option.map_eq_none_iff, List.find?_eq_none]
  constructor
  · intro hn i
    simpa using hn s.buffers[i] (Vector.mem_toList_iff.mpr (Vector.getElem_mem _))
  · intro hn c hc
    obtain ⟨i, hi, rfl⟩ := Vector.mem_iff_getElem.mp (Vector.mem_toList_iff.mp hc)
    simpa using hn ⟨i, hi⟩

/-- What a holder holds after every buffer has been changed by a function that keeps who holds it. -/
theorem heldFrame_mapTable {g g' : Holder} {f : Buffer → Buffer} (s : State)
    (hf : ∀ c, ((f c).holder == g) = (c.holder == g')) :
    heldFrame g { s with buffers := mapTable f s.buffers } =
      (s.buffers.toList.find? fun c => c.holder == g').map fun c => (f c).chars := by
  unfold heldFrame
  have e : (mapTable f s.buffers).toList = s.buffers.toList.map f := by
    unfold mapTable
    rfl
  show (((mapTable f s.buffers).toList.find? fun c => c.holder == g).map fun c => c.chars) = _
  rw [e, List.find?_map, Option.map_map]
  have : (fun c : Buffer => c.holder == g) ∘ f = fun c => c.holder == g' := funext hf
  rw [this]
  rfl

/-- A return leaves its holder without a buffer (R126). -/
@[simp] theorem heldFrame_returnBuffer_same {h : Holder} (hh : h ≠ .free) (s : State) :
    heldFrame h (returnBuffer h s) = none := by
  rw [heldFrame_eq_none]
  intro i
  rw [returnBuffer_buffers]
  split
  · exact hh.symm
  · assumption

/-- A return leaves what every other holder holds. -/
theorem heldFrame_returnBuffer_other {h g : Holder} (hg : g ≠ .free) (hne : g ≠ h) (s : State) :
    heldFrame g (returnBuffer h s) = heldFrame g s := by
  unfold returnBuffer
  rw [heldFrame_mapTable (g' := g)]
  · unfold heldFrame
    refine Option.map_congr fun c hc => ?_
    have hcg : c.holder = g := by simpa using List.find?_some hc
    rw [if_neg (by rw [hcg]; exact hne)]
  · intro c
    by_cases hc : c.holder = h
    · rw [if_pos hc, hc]
      have h1 : (Buffer.empty.holder == g) = false := by simpa [Buffer.empty] using hg.symm
      have h2 : (h == g) = false := by simpa using hne.symm
      rw [h1, h2]
    · rw [if_neg hc]

/-- A write replaces what its holder holds, if it holds a buffer. -/
@[simp] theorem heldFrame_writeBuffer_same (h : Holder) (chars : List Byte) (s : State) :
    heldFrame h (writeBuffer h chars s) = (heldFrame h s).map fun _ => chars := by
  unfold writeBuffer
  rw [heldFrame_mapTable (g' := h)]
  · unfold heldFrame
    rw [Option.map_map]
    refine Option.map_congr fun c hc => ?_
    have hcg : c.holder = h := by simpa using List.find?_some hc
    rw [if_pos hcg]
    rfl
  · intro c
    by_cases hc : c.holder = h <;> simp [hc]

/-- A write leaves what every other holder holds. -/
theorem heldFrame_writeBuffer_other {h g : Holder} (hne : g ≠ h) (chars : List Byte) (s : State) :
    heldFrame g (writeBuffer h chars s) = heldFrame g s := by
  unfold writeBuffer
  rw [heldFrame_mapTable (g' := g)]
  · unfold heldFrame
    refine Option.map_congr fun c hc => ?_
    have hcg : c.holder = g := by simpa using List.find?_some hc
    rw [if_neg (by rw [hcg]; exact hne)]
  · intro c
    by_cases hc : c.holder = h <;> simp [hc]

/-- A hand-over leaves its first holder without a buffer (R125). -/
theorem heldFrame_handOver_from {h g : Holder} (hne : g ≠ h) (s : State) : heldFrame h (handOver h g s) = none := by
  rw [heldFrame_eq_none]
  intro i
  rw [handOver_buffers]
  split
  · exact hne
  · assumption

/-- A hand-over to a holder that held nothing gives it what the first held (R125). -/
theorem heldFrame_handOver_to {h g : Holder} (hgf : g ≠ .free) (s : State) (hg : heldFrame g s = none) :
    heldFrame g (handOver h g s) = heldFrame h s := by
  have hn := heldFrame_eq_none.mp hg
  have e : (handOver h g s).buffers =
      mapTable (fun c => if c.holder = h then { c with holder := g }
        else if c.holder = g then { c with holder := .free } else c) s.buffers := by
    refine table_ext fun i => ?_
    rw [handOver_buffers, mapTable_get]
    split
    · rfl
    · rw [if_neg (hn i)]
  have e' : heldFrame g (handOver h g s) = heldFrame g { s with buffers := (handOver h g s).buffers } := rfl
  rw [e', e, heldFrame_mapTable (g' := h)]
  · unfold heldFrame
    refine Option.map_congr fun c hc => ?_
    have hch : c.holder = h := by simpa using List.find?_some hc
    rw [if_pos hch]
  · intro c
    by_cases hc : c.holder = h
    · simp [hc]
    · by_cases hcg : c.holder = g
      · have h1 : (Holder.free == g) = false := by simpa using fun e => hgf e.symm
        have h2 : (g == h) = false := by simpa using fun e => hc (hcg.trans e)
        rw [if_neg hc, if_pos hcg, hcg, h2]
        exact h1
      · simp [hc, hcg]

/-- A hand-over leaves what every other holder holds. -/
theorem heldFrame_handOver_other {h g k : Holder} (hkh : k ≠ h) (hkg : k ≠ g) (s : State) :
    heldFrame k (handOver h g s) = heldFrame k s := by
  unfold handOver
  rw [heldFrame_mapTable (g' := k)]
  · unfold heldFrame
    refine Option.map_congr fun c hc => ?_
    have hcg : c.holder = k := by simpa using List.find?_some hc
    rw [if_neg (by rw [hcg]; exact hkh)]
  · intro c
    by_cases hc : c.holder = h
    · have h1 : (g == k) = false := by simpa using hkg.symm
      have h2 : (h == k) = false := by simpa using hkh.symm
      rw [if_pos hc, hc, h2]
      exact h1
    · rw [if_neg hc]

/-- What a holder holds is in the lowest-numbered buffer that is its own. -/
theorem heldFrame_eq_lowest (h : Holder) (s : State) : heldFrame h s =
    (lowestIndex fun i : Fin Config.bufferCount => s.buffers[i].holder == h).map fun i => s.buffers[i].chars := by
  have e : s.buffers.toList = (List.finRange Config.bufferCount).map fun i => s.buffers[i] :=
    List.ext_getElem (by simp) fun i h1 h2 => by simp
  unfold heldFrame lowestIndex
  rw [e, List.find?_map, Option.map_map]
  rfl

/-- A claim leaves what every other holder holds. -/
theorem heldFrame_claimBuffer_other {h g : Holder} (hg : g ≠ .free) (hne : g ≠ h) (chars : List Byte) (s : State) :
    heldFrame g (claimBuffer h chars s) = heldFrame g s := by
  cases hl : lowestFreeBuffer s with
  | none => rw [claimBuffer_none (lowestFreeBuffer_eq_none.mp hl)]
  | some i =>
    have hi : s.buffers[i].holder = .free := by simpa using (lowestIndex_eq_some.mp hl).1
    have hold : ∀ j : Fin Config.bufferCount,
        ((claimBuffer h chars s).buffers[j].holder == g) = (s.buffers[j].holder == g) := by
      intro j
      rw [claimBuffer_buffers hl, updateAt_get]
      by_cases hj : j = i
      · have h1 : (h == g) = false := by simpa using hne.symm
        have h2 : (Holder.free == g) = false := by simpa using hg.symm
        rw [if_pos hj, hj, hi, h2]
        exact h1
      · rw [if_neg hj]
    rw [heldFrame_eq_lowest, heldFrame_eq_lowest, funext hold]
    refine Option.map_congr fun j hj => ?_
    have hjg : s.buffers[j].holder = g := by simpa using (lowestIndex_eq_some.mp hj).1
    have hji : j ≠ i := fun e => hg (by rw [← hjg, e, hi])
    rw [claimBuffer_buffers hl, updateAt_other _ _ hji]

/-- A claim with a free buffer gives it to a holder that held nothing (R118). -/
theorem heldFrame_claimBuffer_same {h : Holder} {s : State} (hfree : 0 < freeCount s) (hn : heldFrame h s = none)
    (chars : List Byte) : heldFrame h (claimBuffer h chars s) = some chars := by
  cases hl : lowestFreeBuffer s with
  | none => exact absurd (lowestFreeBuffer_eq_none.mp hl) (Nat.ne_of_gt hfree)
  | some i =>
    have hlow : lowestIndex (fun j : Fin Config.bufferCount => (claimBuffer h chars s).buffers[j].holder == h) =
        some i := by
      rw [lowestIndex_eq_some]
      refine ⟨by rw [claimBuffer_buffers hl, updateAt_same]; simp, fun j hj => ?_⟩
      rw [claimBuffer_buffers hl, updateAt_other _ _ (Fin.ne_of_lt hj)]
      simpa using heldFrame_eq_none.mp hn j
    rw [heldFrame_eq_lowest, hlow, Option.map_some, claimBuffer_buffers hl, updateAt_same]

/-! ### The pool's one form -/

/-- A return keeps the pool in its form. -/
theorem PoolClean.returnBuffer {s : State} (hs : PoolClean s) (h : Holder) : PoolClean (returnBuffer h s) := by
  intro i
  rw [returnBuffer_buffers]
  split
  · intro _; rfl
  · exact hs i

/-- A hand-over keeps the pool in its form. -/
theorem PoolClean.handOver {s : State} (hs : PoolClean s) (h : Holder) {g : Holder} (hg : g ≠ .free) :
    PoolClean (handOver h g s) := by
  intro i
  rw [handOver_buffers]
  split
  · intro hf; exact absurd hf hg
  · exact hs i

/-- A write to a holder's buffer keeps the pool in its form. -/
theorem PoolClean.writeBuffer {s : State} (hs : PoolClean s) {h : Holder} (hh : h ≠ .free) (chars : List Byte) :
    PoolClean (writeBuffer h chars s) := by
  intro i
  rw [writeBuffer_buffers]
  split
  · intro hf; exact absurd (hf.symm.trans (by assumption)).symm hh
  · exact hs i

/-- A claim keeps the pool in its form. -/
theorem PoolClean.claimBuffer {s : State} (hs : PoolClean s) {h : Holder} (hh : h ≠ .free) (chars : List Byte) :
    PoolClean (claimBuffer h chars s) := by
  cases hl : lowestFreeBuffer s with
  | none => rw [claimBuffer_none (lowestFreeBuffer_eq_none.mp hl)]; exact hs
  | some j =>
    intro i
    rw [claimBuffer_buffers hl, updateAt_get]
    split
    · intro hf; exact absurd hf hh
    · exact hs i

/-- The pool after reset is in its form. -/
theorem poolClean_atReset (a : BitVec 3) (r : BitVec 2) : PoolClean (State.atReset a r) := by
  intro i _
  show (Vector.replicate Config.bufferCount Buffer.empty)[i.val].chars = []
  rw [Vector.getElem_replicate]
  rfl

end Sys2Proof.Machine
end

