-- ==== Sys2Proof/Laws/Records.lean ====
section
/-!
SUPPORT. What freeing a record and the leaving of queues do, said once, field by field.
-/

namespace Sys2Proof.Machine

/-- One branch once a record has left every queue. -/
theorem leaveQueues_branches (i : RecordIndex) (b : Branch) (s : State) :
    (leaveQueues i s).branches[b] =
      { s.branches[b] with queue := s.branches[b].queue.filter fun j => j != i } := tableOf_get _ _

/-- One branch once idle stalls have ended (R80). -/
theorem endIdleStalls_branches (b : Branch) (s : State) :
    (endIdleStalls s).branches[b] =
      if hasWork s b then s.branches[b] else { s.branches[b] with stalled := false } := tableOf_get _ _

/-- A freed record is FREE, and every other record stands (R47). -/
theorem freeRecord_records (i j : RecordIndex) (s : State) :
    (freeRecord i s).records[j] = if j = i then Record.free else s.records[j] := updateAt_get _ _ _ _

/-- A freed record leaves the completion list (R47). -/
@[simp] theorem freeRecord_completions (i : RecordIndex) (s : State) :
    (freeRecord i s).completions = s.completions.filter fun j => j != i := rfl

/-- Freeing a record returns the buffers it still holds and no other (R47, R126). -/
@[simp] theorem freeRecord_buffers (i : RecordIndex) (s : State) :
    (freeRecord i s).buffers = (returnBuffer (.answer i) (returnBuffer (.request i) s)).buffers := rfl

/-- Freeing a record takes it off the queues of a branch and may end its stall; nothing else of a branch changes. -/
theorem freeRecord_branches (i : RecordIndex) (b : Branch) (s : State) : ∃ stalled,
    (freeRecord i s).branches[b] =
      { s.branches[b] with queue := s.branches[b].queue.filter fun j => j != i, stalled := stalled } := by
  unfold freeRecord
  dsimp only
  rw [endIdleStalls_branches]
  split
  · exact ⟨_, leaveQueues_branches i b _⟩
  · refine ⟨false, ?_⟩
    show ({ (leaveQueues i _).branches[b] with stalled := false } : BranchState) = _
    rw [leaveQueues_branches]
    rfl

/-- Freeing a record leaves of every branch all but its queue and STALLED. -/
theorem freeRecord_otherBranchKept (i : RecordIndex) (b : Branch) (s : State) :
    otherBranchKept s.branches[b] (freeRecord i s).branches[b] := by
  obtain ⟨stalled, h⟩ := freeRecord_branches i b s
  unfold otherBranchKept
  rw [h]

@[simp] theorem freeRecord_inReset (i : RecordIndex) (s : State) : (freeRecord i s).inReset = s.inReset := by
  simp [freeRecord, endIdleStalls, leaveQueues]
@[simp] theorem freeRecord_strapA (i : RecordIndex) (s : State) : (freeRecord i s).strapA = s.strapA := by
  simp [freeRecord, endIdleStalls, leaveQueues]
@[simp] theorem freeRecord_strapR (i : RecordIndex) (s : State) : (freeRecord i s).strapR = s.strapR := by
  simp [freeRecord, endIdleStalls, leaveQueues]
@[simp] theorem freeRecord_params (i : RecordIndex) (s : State) : (freeRecord i s).params = s.params := by
  simp [freeRecord, endIdleStalls, leaveQueues]
@[simp] theorem freeRecord_trunk (i : RecordIndex) (s : State) : (freeRecord i s).trunk = s.trunk := by
  simp [freeRecord, endIdleStalls, leaveQueues]
@[simp] theorem freeRecord_bankA (i : RecordIndex) (s : State) : (freeRecord i s).bankA = s.bankA := by
  simp [freeRecord, endIdleStalls, leaveQueues]
@[simp] theorem freeRecord_bankB (i : RecordIndex) (s : State) : (freeRecord i s).bankB = s.bankB := by
  simp [freeRecord, endIdleStalls, leaveQueues]
@[simp] theorem freeRecord_activeBank (i : RecordIndex) (s : State) : (freeRecord i s).activeBank = s.activeBank := by
  simp [freeRecord, endIdleStalls, leaveQueues]
@[simp] theorem freeRecord_tagCounter (i : RecordIndex) (s : State) : (freeRecord i s).tagCounter = s.tagCounter := by
  simp [freeRecord, endIdleStalls, leaveQueues]
@[simp] theorem freeRecord_slots (i : RecordIndex) (s : State) : (freeRecord i s).slots = s.slots := by
  simp [freeRecord, endIdleStalls, leaveQueues]
@[simp] theorem freeRecord_flags (i : RecordIndex) (s : State) : (freeRecord i s).flags = s.flags := by
  simp [freeRecord, endIdleStalls, leaveQueues]
@[simp] theorem freeRecord_lastCode (i : RecordIndex) (s : State) : (freeRecord i s).lastCode = s.lastCode := by
  simp [freeRecord, endIdleStalls, leaveQueues]
@[simp] theorem freeRecord_lastSeq (i : RecordIndex) (s : State) : (freeRecord i s).lastSeq = s.lastSeq := by
  simp [freeRecord, endIdleStalls, leaveQueues]
@[simp] theorem freeRecord_pending (i : RecordIndex) (s : State) : (freeRecord i s).pending = s.pending := by
  simp [freeRecord, endIdleStalls, leaveQueues]

/-- Freeing a record leaves what a holder of another kind holds. -/
theorem heldFrame_freeRecord_other {h : Holder} (i : RecordIndex) (hf : h ≠ .free) (hr : h ≠ .request i)
    (ha : h ≠ .answer i) (s : State) : heldFrame h (freeRecord i s) = heldFrame h s := by
  have e : heldFrame h (freeRecord i s) = heldFrame h (returnBuffer (.answer i) (returnBuffer (.request i) s)) := rfl
  rw [e, heldFrame_returnBuffer_other hf ha, heldFrame_returnBuffer_other hf hr]

/-- A freed record holds no REQUEST (R47). -/
@[simp] theorem heldFrame_freeRecord_request (i : RecordIndex) (s : State) :
    heldFrame (.request i) (freeRecord i s) = none := by
  have e : heldFrame (.request i) (freeRecord i s) =
      heldFrame (.request i) (returnBuffer (.answer i) (returnBuffer (.request i) s)) := rfl
  rw [e, heldFrame_returnBuffer_other (by simp) (by simp), heldFrame_returnBuffer_same (by simp)]

/-- A freed record holds no ANSWER (R47). -/
@[simp] theorem heldFrame_freeRecord_answer (i : RecordIndex) (s : State) :
    heldFrame (.answer i) (freeRecord i s) = none := by
  have e : heldFrame (.answer i) (freeRecord i s) =
      heldFrame (.answer i) (returnBuffer (.answer i) (returnBuffer (.request i) s)) := rfl
  rw [e, heldFrame_returnBuffer_same (by simp)]

end Sys2Proof.Machine
end

