-- ==== Sys2Proof/Laws/Agreement.lean ====
section
/-!
SUPPORT. What each operation of the pool makes of the number of buffers of a holder, said once (R118, R125, R126), and
what a FREE record is to the queues and the pool (R45).
-/

namespace Sys2Proof.Machine

/-- What holds of every holder, by its kind. -/
theorem forall_holder {P : Holder → Prop} (free : P .free) (assembly : P .trunkAssembly)
    (branchAnswer : ∀ b, P (.branchAnswer b)) (request : ∀ i, P (.request i)) (answer : ∀ i, P (.answer i))
    (snapshot : ∀ k, P (.snapshot k)) (owed : P .owedReply) (last : P .lastResponse) (h : Holder) : P h := by
  cases h with
  | free => exact free
  | trunkAssembly => exact assembly
  | branchAnswer b => exact branchAnswer b
  | request i => exact request i
  | answer i => exact answer i
  | snapshot k => exact snapshot k
  | owedReply => exact owed
  | lastResponse => exact last

/-- The pool agrees with its blocks when each of the holders, one by one, has what its state says. -/
theorem buffersAgree_of_all {s : State}
    (h : ([Holder.trunkAssembly, .owedReply, .lastResponse] ++ exchangeHolders).all (fun h =>
      heldCount h s == if holdsBuffer s h then 1 else 0) = true)
    (ht : s.trunk.port.tx.sending = true → s.trunk.port.rx = .hunt) : BuffersAgree s := by
  rw [List.all_eq_true] at h
  refine ⟨fun g hg => eq_of_beq (h g ?_), ht⟩
  unfold exchangeHolders
  cases g <;> simp_all

/-- The free count is the number of buffers of no holder. -/
theorem heldCount_free (s : State) : heldCount .free s = freeCount s := rfl

/-- A holder without a buffer holds no frame, and one that holds no frame has none. -/
theorem heldCount_eq_zero {h : Holder} {s : State} : heldCount h s = 0 ↔ heldFrame h s = none := by
  rw [heldFrame_eq_none]
  unfold heldCount
  rw [List.countP_eq_zero]
  constructor
  · intro hn i
    simpa using hn s.buffers[i] (by simp)
  · intro hn c hc
    obtain ⟨n, hlt, rfl⟩ := List.getElem_of_mem hc
    simpa using hn ⟨n, by simpa using hlt⟩

/-- Counting in a changed pool. -/
theorem heldCount_mapTable (g : Holder) (f : Buffer → Buffer) (s : State) :
    heldCount g { s with buffers := mapTable f s.buffers } = s.buffers.toList.countP fun c => (f c).holder == g := by
  show ((s.buffers.toList.map f).countP fun c => c.holder == g) = _
  rw [List.countP_map]
  rfl

/-- A return takes every buffer of its holder and leaves those of every other (R126). -/
theorem heldCount_returnBuffer {g : Holder} (hg : g ≠ .free) (h : Holder) (s : State) :
    heldCount g (returnBuffer h s) = if g = h then 0 else heldCount g s := by
  unfold returnBuffer
  rw [heldCount_mapTable]
  split
  · rename_i e
    subst e
    rw [List.countP_eq_zero]
    intro c _
    by_cases hc : c.holder = g
    · simp [hc, Buffer.empty, hg.symm]
    · simp [hc]
  · rename_i e
    unfold heldCount
    congr 1
    funext c
    by_cases hc : c.holder = h
    · simp [hc, Buffer.empty, hg.symm, Ne.symm e]
    · simp [hc]

/-- Counting the buffers of either of two holders. -/
theorem countP_either {h g : Holder} (hne : h ≠ g) (l : List Buffer) :
    (l.countP fun c => c.holder == h || c.holder == g) =
      (l.countP fun c => c.holder == h) + l.countP fun c => c.holder == g := by
  induction l with
  | nil => rfl
  | cons c l ih =>
    simp only [List.countP_cons, ih]
    by_cases h1 : c.holder = h
    · simp [h1, hne]; omega
    · by_cases h2 : c.holder = g
      · simp [h2, hne.symm]; omega
      · simp [h1, h2]

/-- A hand-over gives the buffers of one holder to another, to those it has, and leaves those of every other (R125). -/
theorem heldCount_handOver {h g : Holder} (hne : h ≠ g) (k : Holder) (s : State) :
    heldCount k (handOver h g s) =
      if k = h then 0 else if k = g then heldCount h s + heldCount g s else heldCount k s := by
  unfold handOver
  rw [heldCount_mapTable]
  split
  · rename_i e
    subst e
    rw [List.countP_eq_zero]
    intro c _
    by_cases hc : c.holder = k
    · simp [hc, hne.symm]
    · simp [hc]
  · rename_i ekh
    split
    · rename_i e
      subst e
      unfold heldCount
      rw [← countP_either hne]
      congr 1
      funext c
      by_cases hc : c.holder = h
      · simp [hc]
      · simp [hc]
    · rename_i ekg
      unfold heldCount
      congr 1
      funext c
      by_cases hc : c.holder = h
      · simp [hc, Ne.symm ekh, Ne.symm ekg]
      · simp [hc]

/-- A write into a buffer moves none. -/
theorem heldCount_writeBuffer (g h : Holder) (chars : List Byte) (s : State) :
    heldCount g (writeBuffer h chars s) = heldCount g s := by
  unfold writeBuffer
  rw [heldCount_mapTable]
  unfold heldCount
  congr 1
  funext c
  by_cases hc : c.holder = h <;> simp [hc]

/-- A claim that finds a free buffer gives its holder one more, and no other holder (R120). -/
theorem heldCount_claimBuffer {h g : Holder} {s : State} (hfree : 0 < freeCount s) (hh : h ≠ .free) (hg : g ≠ .free)
    (chars : List Byte) :
    heldCount g (claimBuffer h chars s) = if g = h then heldCount g s + 1 else heldCount g s := by
  cases hl : lowestFreeBuffer s with
  | none => exact absurd (lowestFreeBuffer_eq_none.mp hl) (Nat.ne_of_gt hfree)
  | some i =>
    have hi : s.buffers[i].holder = .free := by simpa using (lowestIndex_eq_some.mp hl).1
    unfold heldCount
    rw [claimBuffer_buffers hl]
    unfold updateAt
    rw [Vector.toList_set, List.countP_set (by simp)]
    have hi' : s.buffers.toList[i.val]'(by simp) = s.buffers[i] := by simp
    rw [hi', hi]
    by_cases e : g = h
    · subst e; simp [hg.symm]
    · simp [e, Ne.symm e, hg.symm]

/-- A freed record takes no part in any queue or on any line (R45). -/
theorem free_waits_nowhere (b : Branch) : waitsOn b Record.free = false ∧ servedOn b Record.free = false := ⟨rfl, rfl⟩

/-- Freeing a record leaves the buffers of every other holder (R47). -/
theorem heldCount_freeRecord {g : Holder} (hg : g ≠ .free) (i : RecordIndex) (s : State) :
    heldCount g (freeRecord i s) = if g = .request i ∨ g = .answer i then 0 else heldCount g s := by
  have e : heldCount g (freeRecord i s) = heldCount g (returnBuffer (.answer i) (returnBuffer (.request i) s)) := rfl
  rw [e, heldCount_returnBuffer hg, heldCount_returnBuffer hg]
  by_cases ha : g = .answer i
  · simp [ha]
  · by_cases hr : g = .request i <;> simp [ha, hr]

end Sys2Proof.Machine
end

