-- ==== Sys2Proof/Laws/Frames.lean ====
section
/-!
SUPPORT. Frames as characters: what the parts of a built frame are, and that a built frame is complete and its CHECK
matches.
-/

namespace Sys2Proof.Machine

/-- A 16-bit number goes through its two bytes and back (R181). -/
@[simp] theorem wordOfBytes_bytes (w : Word) : wordOfBytes (highByte w) (lowByte w) = w := by
  unfold wordOfBytes highByte lowByte
  exact BitVec.eq_of_getLsbD_eq fun i hi => by
    simp only [BitVec.getLsbD_append, BitVec.getLsbD_extractLsb']
    by_cases h : i < 8
    · simp [h]
    · have h2 : i - 8 < 8 := by omega
      have h3 : 8 + (i - 8) = i := by omega
      simp [h, h2, h3]

/-- A frame is four characters longer than its DATA (R6). -/
@[simp] theorem mkFrame_length (a : Byte) (data : List Byte) : (mkFrame a data).length = data.length + 4 := by
  simp [mkFrame, frameBody, bytesOfWord]

/-- The first character of a frame is its ADDRESS (R6). -/
@[simp] theorem frameAddress_mkFrame (a : Byte) (data : List Byte) : frameAddress (mkFrame a data) = a := rfl

/-- The second character of a frame is its COUNT (R6). -/
theorem frameCount_mkFrame (a : Byte) {data : List Byte} (h : data.length ≤ 60) :
    frameCount (mkFrame a data) = data.length := by
  show (BitVec.ofNat 8 data.length).toNat = data.length
  rw [BitVec.toNat_ofNat, Nat.mod_eq_of_lt (by omega)]

/-- The DATA of a frame is what it was built from. -/
theorem frameData_mkFrame (a : Byte) {data : List Byte} (h : data.length ≤ 60) :
    frameData (mkFrame a data) = data := by
  unfold frameData
  rw [frameCount_mkFrame a h]
  simp [mkFrame, frameBody]

/-- A built frame has all its characters (R8). -/
theorem frameComplete_mkFrame (a : Byte) {data : List Byte} (h : data.length ≤ 60) :
    frameComplete (mkFrame a data) = true := by
  unfold frameComplete
  rw [frameCount_mkFrame a h, mkFrame_length]
  simp
  omega

/-- The CHECK of a built frame matches (R7). -/
@[simp] theorem checkMatches_mkFrame (a : Byte) (data : List Byte) : checkMatches (mkFrame a data) = true := by
  have hl : (mkFrame a data).length - 2 = (frameBody a data).length := by simp [frameBody]
  unfold checkMatches
  rw [hl]
  simp [mkFrame]

/-- A frame read from its ADDRESS and its DATA is the frame that was built. -/
theorem mkFrame_parts {a : Byte} {data : List Byte} (h : data.length ≤ 60) :
    mkFrame (frameAddress (mkFrame a data)) (frameData (mkFrame a data)) = mkFrame a data := by
  rw [frameAddress_mkFrame, frameData_mkFrame a h]

end Sys2Proof.Machine
end

