-- ==== Sys2Proof/Laws/Reception.lean ====
section
/-!
SUPPORT. What the reception of a whole trunk frame comes to: the state that the classifier is given is the superseded one
with the frame's own traces laid over it, whichever way the characters came.
-/

namespace Sys2Proof.Machine

/-- The traces that the reception of a stored frame leaves: what its characters made of the port's rest, gap and
counters, the buffer it claimed if it claimed one, its characters, and the flags it set. -/
structure Traces where
  lineRest : Nat
  gapTimeout : Nat
  counters : PortCounters
  claimed : Option (Fin Config.bufferCount)
  chars : List Byte
  flags : BitVec 12

/-- The part with the traces of a stored frame laid over it. -/
def Traces.over (p : Traces) (v : State) : State :=
  { v with
    trunk := { v.trunk with port := { v.trunk.port with
      lineRest := p.lineRest, charInProgress := false, gapTimeout := p.gapTimeout, counters := p.counters } }
    buffers := tableOf fun i =>
      if p.claimed = some i ∨ v.buffers[i].holder = .trunkAssembly then
        { holder := .trunkAssembly, chars := p.chars }
      else v.buffers[i]
    flags := v.flags ||| p.flags }

/-- The buffer that was claimed was a free one. -/
def Traces.fits (p : Traces) (v : State) : Prop := ∀ i, p.claimed = some i → v.buffers[i].holder = .free

/-- One buffer of the part under the traces. -/
theorem Traces.over_buffers (p : Traces) (v : State) (i : Fin Config.bufferCount) :
    (p.over v).buffers[i] =
      if p.claimed = some i ∨ v.buffers[i].holder = .trunkAssembly then
        { holder := .trunkAssembly, chars := p.chars }
      else v.buffers[i] := tableOf_get _ _

/-- Two states that differ in nothing but their buffers, which agree at every place, are one. -/
theorem state_ext_buffers {s t : State} (h : { t with buffers := s.buffers } = s)
    (hb : ∀ i : Fin Config.bufferCount, t.buffers[i] = s.buffers[i]) : t = s := by
  have e : t.buffers = s.buffers := table_ext hb
  rw [← h, ← e]

/-- A return to the pool and the traces of a frame come to the same in either order. -/
theorem Traces.over_returnBuffer {p : Traces} {v : State} (hv : p.fits v) {h : Holder} (hf : h ≠ .free)
    (ht : h ≠ .trunkAssembly) : returnBuffer h (p.over v) = p.over (returnBuffer h v) := by
  refine state_ext_buffers rfl fun i => ?_
  rw [returnBuffer_buffers, p.over_buffers, p.over_buffers, returnBuffer_buffers]
  have hvi := hv i
  generalize v.buffers[i] = c at hvi
  by_cases hc : p.claimed = some i
  · simp [hvi hc, hc, ht.symm, hf.symm]
  · by_cases ha : c.holder = .trunkAssembly
    · simp [ha, ht.symm]
    · by_cases hh : c.holder = h
      · simp [hc, hh, ht, Buffer.empty]
      · simp [hc, ha, hh]

/-- A return to the pool keeps the claimed buffer free underneath. -/
theorem Traces.fits_returnBuffer {p : Traces} {v : State} (hv : p.fits v) (h : Holder) :
    p.fits (returnBuffer h v) := by
  intro i hi
  rw [returnBuffer_buffers]
  split
  · rfl
  · exact hv i hi

/-- The freeing of a record and the traces of a frame come to the same in either order. -/
theorem Traces.over_freeRecord {p : Traces} {v : State} (hv : p.fits v) (i : RecordIndex) :
    freeRecord i (p.over v) = p.over (freeRecord i v) := by
  have h1 := p.over_returnBuffer hv (h := .request i) (by simp) (by simp)
  have h2 := p.over_returnBuffer (p.fits_returnBuffer hv (.request i)) (h := .answer i) (by simp) (by simp)
  unfold freeRecord
  rw [h1, h2]
  rfl

/-- Step 1 of supersede and the traces of a frame come to the same in either order. -/
theorem Traces.over_supersedeOwed {p : Traces} {v : State} (hv : p.fits v) :
    supersedeOwed (p.over v) = p.over (supersedeOwed v) ∧ p.fits (supersedeOwed v) := by
  have hr := p.over_returnBuffer (v := abortPort .trunk v) hv (h := .owedReply) (by simp) (by simp)
  have hk : p.fits (returnBuffer .owedReply (abortPort .trunk v)) := p.fits_returnBuffer (v := abortPort .trunk v) hv _
  unfold supersedeOwed
  have ho : (p.over v).trunk.owed = v.trunk.owed := rfl
  rw [ho]
  cases v.trunk.owed with
  | nothing => exact ⟨rfl, hv⟩
  | pendingAnswer i => exact ⟨rfl, hv⟩
  | answer | proxy | response =>
    refine ⟨?_, hk⟩
    have ha : abortPort .trunk (p.over v) = p.over (abortPort .trunk v) := rfl
    unfold finishOwed
    rw [ha, hr]
    rfl

/-- Step 2 of supersede and the traces of a frame come to the same in either order. -/
theorem Traces.over_supersedeRecord {p : Traces} {v : State} (hv : p.fits v) :
    supersedeRecord (p.over v) = p.over (supersedeRecord v) ∧ p.fits (supersedeRecord v) := by
  unfold supersedeRecord
  have hl : liveTransparent (p.over v) = liveTransparent v := rfl
  rw [hl]
  cases liveTransparent v with
  | none => exact ⟨rfl, hv⟩
  | some i =>
    dsimp only
    have hs : (p.over v).records = v.records := rfl
    rw [hs]
    by_cases hq : v.records[i].state = .queued
    · rw [if_pos hq, if_pos hq]
      exact ⟨p.over_freeRecord hv i, fun j hj => p.fits_returnBuffer (p.fits_returnBuffer hv _) _ j hj⟩
    · rw [if_neg hq, if_neg hq]
      exact ⟨rfl, hv⟩

/-- The settling point and the traces of a frame come to the same in either order, no frame being open. -/
theorem Traces.over_settlePending {p : Traces} {v : State} (hv : p.fits v) (hrx : v.trunk.port.rx = .hunt) :
    settlePending (p.over v) = p.over (settlePending v) ∧ p.fits (settlePending v) := by
  unfold settlePending
  have hp : (p.over v).trunk.pendingSetting = v.trunk.pendingSetting := rfl
  rw [hp]
  cases v.trunk.pendingSetting with
  | none => exact ⟨rfl, hv⟩
  | some q =>
    cases q with
    | trunkRate code =>
      have h1 : truncateOpen .trunk (modifyTrunk (fun t => { t with pendingSetting := none }) (p.over v)) =
          modifyTrunk (fun t => { t with pendingSetting := none }) (p.over v) := by
        unfold truncateOpen
        have : ((modifyTrunk (fun t => { t with pendingSetting := none }) (p.over v)).port .trunk).rx = .hunt := hrx
        rw [this]
      have h2 : truncateOpen .trunk (modifyTrunk (fun t => { t with pendingSetting := none }) v) =
          modifyTrunk (fun t => { t with pendingSetting := none }) v := by
        unfold truncateOpen
        have : ((modifyTrunk (fun t => { t with pendingSetting := none }) v).port .trunk).rx = .hunt := hrx
        rw [this]
      dsimp only
      unfold applyRate
      rw [h1, h2]
      exact ⟨rfl, hv⟩
    | mgmtAddress a =>
      dsimp only
      unfold emptyLastResponse
      let w : State := { modifyTrunk (fun t => { t with pendingSetting := none }) v with
        params := { v.params with mgmtAddress := a } }
      have hw : p.fits w := hv
      have hr := p.over_returnBuffer hw (h := .lastResponse) (by simp) (by simp)
      refine ⟨?_, fun j hj => p.fits_returnBuffer hw .lastResponse j hj⟩
      exact congrArg (fun t : State => { t with lastCode := none, lastSeq := none }) hr

/-- Steps 1 and 2 of supersede leave no frame open where none was. -/
theorem supersedeRecord_rx {v : State} (h : v.trunk.port.rx = .hunt) :
    (supersedeRecord (supersedeOwed v)).trunk.port.rx = .hunt := by
  have h1 : (supersedeOwed v).trunk.port.rx = .hunt := by
    unfold supersedeOwed
    cases v.trunk.owed <;> first | exact h | rfl
  unfold supersedeRecord
  cases liveTransparent (supersedeOwed v) with
  | none => exact h1
  | some i =>
    dsimp only
    split
    · exact h1
    · exact h1

/-- A supersede and the traces of a frame come to the same in either order, no frame being open. -/
theorem Traces.over_supersede {p : Traces} {v : State} (hv : p.fits v) (hrx : v.trunk.port.rx = .hunt) :
    supersede (p.over v) = p.over (supersede v) ∧ p.fits (supersede v) := by
  unfold supersede
  have h1 := p.over_supersedeOwed hv
  have h2 := p.over_supersedeRecord h1.2
  rw [h1.1, h2.1]
  exact p.over_settlePending h2.2 (supersedeRecord_rx hrx)

/-- A supersede leaves what a holder holds that is neither the owed reply, the last-response memory nor a record's, no
frame being open. -/
theorem heldFrame_supersede_other {h : Holder} {v : State} (hf : h ≠ .free) (ho : h ≠ .owedReply)
    (hl : h ≠ .lastResponse) (hr : ∀ i, h ≠ .request i) (ha : ∀ i, h ≠ .answer i) (hrx : v.trunk.port.rx = .hunt) :
    heldFrame h (supersede v) = heldFrame h v := by
  have h1 : heldFrame h (supersedeOwed v) = heldFrame h v := by
    unfold supersedeOwed
    cases v.trunk.owed with
    | nothing | pendingAnswer _ => rfl
    | answer | proxy | response => exact heldFrame_returnBuffer_other hf ho (abortPort .trunk v)
  have h2 : heldFrame h (supersedeRecord (supersedeOwed v)) = heldFrame h (supersedeOwed v) := by
    unfold supersedeRecord
    cases liveTransparent (supersedeOwed v) with
    | none => rfl
    | some i =>
      dsimp only
      split
      · exact heldFrame_freeRecord_other i hf (hr i) (ha i) _
      · rfl
  have h3 : heldFrame h (supersede v) = heldFrame h (supersedeRecord (supersedeOwed v)) := by
    have hx := supersedeRecord_rx hrx
    unfold supersede settlePending
    generalize supersedeRecord (supersedeOwed v) = w at hx
    cases w.trunk.pendingSetting with
    | none => rfl
    | some q =>
      cases q with
      | trunkRate code =>
        have e : truncateOpen .trunk (modifyTrunk (fun t => { t with pendingSetting := none }) w) =
            modifyTrunk (fun t => { t with pendingSetting := none }) w := by
          unfold truncateOpen
          have : ((modifyTrunk (fun t => { t with pendingSetting := none }) w).port .trunk).rx = .hunt := hx
          rw [this]
        dsimp only
        unfold applyRate
        rw [e]
        rfl
      | mgmtAddress a => exact heldFrame_returnBuffer_other hf hl _
  rw [h3, h2, h1]

/-- Under the traces the trunk's receive buffer holds the frame, if one was claimed or is kept. -/
theorem Traces.over_assembly {p : Traces} {v : State}
    (h : p.claimed.isSome = true ∨ (heldFrame .trunkAssembly v).isSome = true) :
    heldFrame .trunkAssembly (p.over v) = some p.chars := by
  cases hh : heldFrame .trunkAssembly (p.over v) with
  | none =>
    have hn := heldFrame_eq_none.mp hh
    rcases h with h | h
    · obtain ⟨i, hi⟩ := Option.isSome_iff_exists.mp h
      exact absurd (by rw [p.over_buffers, if_pos (Or.inl hi)]) (hn i)
    · have : heldFrame .trunkAssembly v = none := by
        rw [heldFrame_eq_none]
        intro i hi
        exact hn i (by rw [p.over_buffers, if_pos (Or.inr hi)])
      rw [this] at h
      exact absurd h (by simp)
  | some c =>
    rw [heldFrame_eq_lowest] at hh
    obtain ⟨i, hi, rfl⟩ := Option.map_eq_some_iff.mp hh
    have ht : (p.over v).buffers[i].holder = .trunkAssembly := by simpa using (lowestIndex_eq_some.mp hi).1
    rw [p.over_buffers] at ht ⊢
    split at ht
    · rename_i hc
      rw [if_pos hc]
    · rename_i hc
      exact absurd (Or.inr ht) hc

/-- A claim that finds a free buffer, as an update of the pool and the flags. -/
theorem claimBuffer_eq {s : State} (hfree : 0 < freeCount s) {h : Holder} (hh : h ≠ .free) (chars : List Byte) :
    ∃ i, lowestFreeBuffer s = some i ∧ s.buffers[i].holder = .free ∧ claimBuffer h chars s =
      { s with buffers := updateAt s.buffers i fun _ => { holder := h, chars := chars }, flags := claimedFlags s } := by
  cases hl : lowestFreeBuffer s with
  | none => exact absurd (lowestFreeBuffer_eq_none.mp hl) (Nat.ne_of_gt hfree)
  | some i =>
    refine ⟨i, rfl, by simpa using (lowestIndex_eq_some.mp hl).1, ?_⟩
    rw [claimBuffer_only, claimBuffer_buffers hl, claimBuffer_flags hfree hh]

/-- BUF_LOW by a claim, as a trace. -/
theorem claimedFlags_trace (s : State) :
    ∃ f : BitVec 12, claimedFlags s = s.flags ||| f ∧ f ||| receiptFlags = receiptFlags := by
  unfold claimedFlags
  split
  · exact ⟨flagMask .bufLow, rfl, by decide⟩
  · exact ⟨0, by simp, by decide⟩

/-- A second write to a holder's buffers is the one that stands. -/
theorem writeBuffer_twice (h : Holder) (c d : List Byte) (s : State) :
    writeBuffer h c (writeBuffer h d s) = writeBuffer h c s := by
  refine state_ext_buffers rfl fun i => ?_
  rw [writeBuffer_buffers, writeBuffer_buffers, writeBuffer_buffers]
  generalize s.buffers[i] = x
  by_cases hx : x.holder = h <;> simp [hx]

/-- A frame that begins with no frame open on the trunk is assembled in the buffer it claims. -/
theorem assembled_fresh {s : State} (a : Byte) (chars : List Byte)
    (h : s.trunk.port.rx = .hunt ∨ s.trunk.port.rx = .discard) (hfree : 0 < freeCount s) :
    storing .trunk (receiveAddress .trunk a s) = true ∧
      ∃ p : Traces, p.fits (setRx .trunk .hunt s) ∧ p.chars = chars ∧ p.flags ||| receiptFlags = receiptFlags ∧
        p.claimed.isNone = false ∧ (p.claimed.isSome = true ∨ (heldFrame .trunkAssembly s).isSome = true) ∧
        setRx .trunk .hunt (storeChars .trunk true chars (characterEnds .trunk (receiveAddress .trunk a s))) =
          p.over (setRx .trunk .hunt s) := by
  obtain ⟨i, -, hi, hc⟩ := claimBuffer_eq (s := characterEnds .trunk s) hfree (h := .trunkAssembly) (by simp) [a]
  obtain ⟨f, hf, hm⟩ := claimedFlags_trace (characterEnds .trunk s)
  have e : receiveAddress .trunk a s =
      openFrame .trunk true a (claimBuffer .trunkAssembly [a] (characterEnds .trunk s)) := by
    have h0 : freeCount (characterEnds .trunk s) ≠ 0 := Nat.ne_of_gt hfree
    have hx : (characterEnds .trunk s).trunk.port.rx = s.trunk.port.rx := rfl
    unfold receiveAddress
    dsimp only
    unfold trunkFrameStarts
    rw [hx]
    rcases h with h | h <;> rw [h] <;> dsimp only <;> unfold trunkClaim <;> rw [if_neg h0]
  rw [e, hc, hf]
  refine ⟨rfl, Traces.mk 0 s.trunk.port.charTimeout s.trunk.port.counters (some i) chars f, ?_, rfl, hm, rfl,
    Or.inl rfl, ?_⟩
  · intro j hj
    obtain rfl : i = j := Option.some.inj hj
    exact hi
  · refine state_ext_buffers (by dsimp only [writeBuffer, setRx, storeChars, assemblyHolder, characterEnds, openFrame,
    modifyPort, modifyTrunk, Traces.over]; rfl) fun j => ?_
    rw [Traces.over_buffers]
    refine (writeBuffer_buffers .trunkAssembly chars _ j).trans ?_
    have hb : ∀ (t : State), t.buffers = (updateAt s.buffers i fun _ => { holder := .trunkAssembly, chars := [a] }) →
        t.buffers[j] = if j = i then { holder := .trunkAssembly, chars := [a] } else s.buffers[j] := by
      intro t ht
      rw [ht, updateAt_get]
    have hb1 := hb (characterEnds .trunk (openFrame .trunk true a { characterEnds .trunk s with
        buffers := updateAt s.buffers i fun _ => { holder := .trunkAssembly, chars := [a] }
        flags := s.flags ||| f })) rfl
    refine (congrArg (fun c : Buffer =>
      if c.holder = .trunkAssembly then ({ c with chars := chars } : Buffer) else c) hb1).trans ?_
    have hsame : (setRx .trunk .hunt s).buffers[j] = s.buffers[j] := rfl
    rw [hsame]
    by_cases hj : j = i
    · subst hj; simp
    · have : i ≠ j := fun h => hj h.symm
      generalize s.buffers[j] = c
      by_cases hcs : c.holder = .trunkAssembly
      · cases c; simp_all
      · simp [hj, this, hcs]

/-- The rest of a frame whose beginning stands in the trunk's buffer is assembled there. -/
theorem assembled_continued {s : State} (chars : List Byte) (hst : storing .trunk s = true)
    (hheld : (heldFrame .trunkAssembly s).isSome = true) :
    storing .trunk s = true ∧
      ∃ p : Traces, p.fits (setRx .trunk .hunt s) ∧ p.chars = chars ∧ p.flags ||| receiptFlags = receiptFlags ∧
        p.claimed.isNone = true ∧ (p.claimed.isSome = true ∨ (heldFrame .trunkAssembly s).isSome = true) ∧
        setRx .trunk .hunt (storeChars .trunk true chars (characterEnds .trunk s)) =
          p.over (setRx .trunk .hunt s) := by
  refine ⟨hst, Traces.mk 0 s.trunk.port.charTimeout s.trunk.port.counters none chars 0,
    fun i hi => by simp at hi, rfl, BitVec.zero_or, rfl, Or.inr hheld, ?_⟩
  have hz : ∀ p : Traces, p.flags = 0 → p.over (setRx .trunk .hunt s) =
      { p.over (setRx .trunk .hunt s) with flags := s.flags } := by
    intro p hp
    have : s.flags ||| p.flags = s.flags := by rw [hp]; exact BitVec.or_zero
    exact congrArg (fun f => { p.over (setRx .trunk .hunt s) with flags := f }) this
  refine Eq.trans ?_ (hz _ rfl).symm
  refine state_ext_buffers (by dsimp only [writeBuffer, setRx, storeChars, assemblyHolder, characterEnds, openFrame,
    modifyPort, modifyTrunk, Traces.over]; rfl) fun j => ?_
  refine Eq.trans ?_ (Traces.over_buffers _ _ j).symm
  refine (writeBuffer_buffers .trunkAssembly chars (characterEnds .trunk s) j).trans ?_
  have h1 : (characterEnds .trunk s).buffers[j] = s.buffers[j] := rfl
  have h2 : (setRx .trunk .hunt s).buffers[j] = s.buffers[j] := rfl
  rw [h1, h2]
  generalize s.buffers[j] = c
  by_cases hcs : c.holder = .trunkAssembly
  · cases c; simp_all
  · simp [hcs]

/-- A frame that begins inside a stored one is assembled in the buffer of the frame it cuts short. -/
theorem assembled_restarted {s : State} {A : Assembly} (a : Byte) (chars : List Byte)
    (hr : s.trunk.port.rx = .assemble A) (hA : A.stored = true)
    (hheld : (heldFrame .trunkAssembly s).isSome = true) :
    storing .trunk (receiveAddress .trunk a s) = true ∧
      ∃ p : Traces, p.fits (setRx .trunk .hunt s) ∧ p.chars = chars ∧ p.flags ||| receiptFlags = receiptFlags ∧
        p.claimed.isNone = true ∧ (p.claimed.isSome = true ∨ (heldFrame .trunkAssembly s).isSome = true) ∧
        setRx .trunk .hunt (storeChars .trunk true chars (characterEnds .trunk (receiveAddress .trunk a s))) =
          p.over (setRx .trunk .hunt s) := by
  have hm : flagMask .lineError ||| receiptFlags = receiptFlags := by decide
  have hct : countTruncated .trunk (characterEnds .trunk s) =
      { characterEnds .trunk s with
        trunk := { s.trunk with port := { (characterEnds .trunk s).trunk.port with
          counters := { s.trunk.port.counters with truncated := countUp s.trunk.port.counters.truncated } } }
        flags := s.flags ||| flagMask .lineError } := rfl
  have e : receiveAddress .trunk a s = openFrame .trunk true a
      (writeBuffer .trunkAssembly [a] (countTruncated .trunk (characterEnds .trunk s))) := by
    have hx : (characterEnds .trunk s).trunk.port.rx = s.trunk.port.rx := rfl
    unfold receiveAddress
    dsimp only
    unfold trunkFrameStarts
    rw [hx, hr]
    dsimp only
    rw [if_pos hA]
  rw [e, hct]
  generalize flagMask .lineError = m at hm ⊢
  generalize ({ s.trunk.port.counters with truncated := countUp s.trunk.port.counters.truncated } : PortCounters) = k
  refine ⟨rfl, Traces.mk 0 s.trunk.port.charTimeout k none chars m,
    fun i hi => by simp at hi, rfl, hm, rfl, Or.inr hheld, ?_⟩
  have hw : ∀ t : State, setRx .trunk .hunt (storeChars .trunk true chars (characterEnds .trunk
      (openFrame .trunk true a (writeBuffer .trunkAssembly [a] t)))) =
      writeBuffer .trunkAssembly chars (writeBuffer .trunkAssembly [a]
        (setRx .trunk .hunt (characterEnds .trunk (openFrame .trunk true a t)))) := fun _ => rfl
  rw [hw, writeBuffer_twice]
  refine state_ext_buffers (by dsimp only [writeBuffer, setRx, storeChars, assemblyHolder, characterEnds, openFrame,
    modifyPort, modifyTrunk, Traces.over]) fun j => ?_
  rw [Traces.over_buffers]
  refine (writeBuffer_buffers .trunkAssembly chars _ j).trans ?_
  have h1 : ∀ t : State, (setRx .trunk .hunt (characterEnds .trunk (openFrame .trunk true a t))).buffers =
      t.buffers := fun _ => rfl
  rw [h1]
  show (if s.buffers[j].holder = .trunkAssembly then { s.buffers[j] with chars := chars } else s.buffers[j]) =
    if (none : Option (Fin Config.bufferCount)) = some j ∨ s.buffers[j].holder = .trunkAssembly then
      { holder := .trunkAssembly, chars := chars } else s.buffers[j]
  generalize s.buffers[j] = c
  by_cases hcs : c.holder = .trunkAssembly
  · cases c; simp_all
  · simp [hcs]

/-- A ready trunk has assembled a whole stored frame: the part is as before but for the frame's traces. -/
theorem assembled_traces {s : State} (hs : trunkReady s = true) (a : Byte) (chars : List Byte) :
    storing .trunk (if opensWith .trunk chars s then s else receiveAddress .trunk a s) = true ∧
      ∃ p : Traces, p.fits (setRx .trunk .hunt s) ∧ p.chars = chars ∧ p.flags ||| receiptFlags = receiptFlags ∧
        p.claimed.isNone = storing .trunk s ∧
        (p.claimed.isSome = true ∨ (heldFrame .trunkAssembly s).isSome = true) ∧
        setRx .trunk .hunt (storeChars .trunk true chars (characterEnds .trunk
          (if opensWith .trunk chars s then s else receiveAddress .trunk a s))) = p.over (setRx .trunk .hunt s) := by
  have hrx := hs
  unfold trunkReady at hrx
  rw [Bool.and_eq_true] at hrx
  replace hrx := hrx.2
  have hopen : s.trunk.port.rx = .hunt ∨ s.trunk.port.rx = .discard → opensWith .trunk chars s = false := by
    intro h
    unfold opensWith
    have e : (s.port .trunk).rx = s.trunk.port.rx := rfl
    rw [e]
    rcases h with h | h <;> rw [h]
  have hidle : s.trunk.port.rx = .hunt ∨ s.trunk.port.rx = .discard → storing .trunk s = false := by
    intro h
    unfold storing
    have e : (s.port .trunk).rx = s.trunk.port.rx := rfl
    rw [e]
    rcases h with h | h <;> rw [h]
  cases hr : s.trunk.port.rx with
  | hunt =>
    rw [hr] at hrx
    rw [hopen (Or.inl hr), hidle (Or.inl hr)]
    exact assembled_fresh a chars (Or.inl hr) (by simpa using hrx)
  | discard =>
    rw [hr] at hrx
    rw [hopen (Or.inr hr), hidle (Or.inr hr)]
    exact assembled_fresh a chars (Or.inr hr) (by simpa using hrx)
  | assemble A =>
    rw [hr] at hrx
    dsimp only at hrx
    rw [Bool.and_eq_true] at hrx
    have hst : storing .trunk s = true := by
      unfold storing
      have e : (s.port .trunk).rx = s.trunk.port.rx := rfl
      rw [e, hr]
      exact hrx.1
    rw [hst]
    by_cases ho : opensWith .trunk chars s = true
    · rw [if_pos ho]
      exact assembled_continued chars hst hrx.2
    · rw [if_neg ho]
      exact assembled_restarted a chars hr hrx.1 hrx.2

/-- What TRUNK_GOOD_FRAME comes to on a ready trunk: the frame is classified on the superseded part under its traces
(R30, R104, R118). -/
theorem trunkGoodFrame_classified {s : State} (hs : trunkReady s = true) (a : Byte) {data : List Byte}
    (hd : data.length ≤ 60) : ∃ p : Traces, p.fits (superseded s) ∧ p.chars = mkFrame a data ∧
      p.flags ||| receiptFlags = receiptFlags ∧ p.claimed.isNone = storing .trunk s ∧
      heldFrame .trunkAssembly (p.over (superseded s)) = some (mkFrame a data) ∧
      exec (.trunkGoodFrame a data) s = .next (classify a data (p.over (superseded s))) := by
  obtain ⟨hst, p, hfit, hchars, hflags, hclaim, hheld, he⟩ := assembled_traces hs a (mkFrame a data)
  let q : Traces := { p with
    counters := { p.counters with framesRxGood := countUp p.counters.framesRxGood } }
  have hcount : countGood .trunk (p.over (setRx .trunk .hunt s)) = q.over (setRx .trunk .hunt s) := rfl
  have hsup := q.over_supersede (v := setRx .trunk .hunt s) hfit rfl
  refine ⟨q, hsup.2, hchars, hflags, hclaim, ?_, ?_⟩
  · have hkeep : heldFrame .trunkAssembly (superseded s) = heldFrame .trunkAssembly s :=
      heldFrame_supersede_other (by simp) (by simp) (by simp) (by simp) (by simp) rfl
    rw [← hchars]
    exact q.over_assembly (by rw [hkeep]; exact hheld)
  · have hrec : (receives s .trunk && !s.trunk.port.tx.sending) = true := by
      unfold trunkReady at hs
      rw [Bool.and_eq_true] at hs
      exact hs.1
    show trunkFrame a data s = _
    unfold trunkFrame
    rw [if_pos hd]
    unfold hearTrunkFrame
    rw [if_pos hrec]
    dsimp only
    rw [hst, he]
    show Host.Outcome.next (trunkFrameGood true (frameAddress (mkFrame a data)) (frameData (mkFrame a data))
      (countGood .trunk (p.over (setRx .trunk .hunt s)))) = _
    unfold trunkFrameGood
    rw [if_pos rfl, hcount, hsup.1, frameAddress_mkFrame, frameData_mkFrame a hd]
    rfl

end Sys2Proof.Machine
end

