-- ==== Sys2Proof/Laws/Commands.lean ====
section
/-!
SUPPORT. Management commands: a command frame on a ready trunk executes on the superseded part under the frame's traces
and is answered with what the execution comes to.
-/

namespace Sys2Proof.Machine

/-- What a supersede leaves of the parameters, the flags and the trunk port (R104, R114), no frame being open: the
pending address is in force, no setting waits, and the port keeps its guard and timeout. -/
theorem supersede_kept {v : State} (hrx : v.trunk.port.rx = .hunt) :
    (supersede v).params = { v.params with mgmtAddress := settledAddress v } ∧ (supersede v).flags = v.flags ∧
      (supersede v).trunk.pendingSetting = none ∧ (supersede v).trunk.port.guard = v.trunk.port.guard ∧
      (supersede v).trunk.port.charTimeout = v.trunk.port.charTimeout := by
  have h1 : ∀ v : State, (supersedeOwed v).params = v.params ∧ (supersedeOwed v).flags = v.flags ∧
      (supersedeOwed v).trunk.pendingSetting = v.trunk.pendingSetting ∧
      (supersedeOwed v).trunk.port.guard = v.trunk.port.guard ∧
      (supersedeOwed v).trunk.port.charTimeout = v.trunk.port.charTimeout := by
    intro v
    unfold supersedeOwed
    cases v.trunk.owed <;> exact ⟨rfl, rfl, rfl, rfl, rfl⟩
  have h2 : ∀ v : State, (supersedeRecord v).params = v.params ∧ (supersedeRecord v).flags = v.flags ∧
      (supersedeRecord v).trunk = v.trunk := by
    intro v
    unfold supersedeRecord
    cases liveTransparent v with
    | none => exact ⟨rfl, rfl, rfl⟩
    | some i =>
      dsimp only
      split <;> exact ⟨rfl, rfl, rfl⟩
  have h3 : ∀ v : State, v.trunk.port.rx = .hunt →
      (settlePending v).params = { v.params with mgmtAddress := settledAddress v } ∧
      (settlePending v).flags = v.flags ∧ (settlePending v).trunk.pendingSetting = none ∧
      (settlePending v).trunk.port.guard = v.trunk.port.guard ∧
      (settlePending v).trunk.port.charTimeout = v.trunk.port.charTimeout := by
    intro v hx
    unfold settlePending settledAddress
    cases hq : v.trunk.pendingSetting with
    | none => exact ⟨rfl, rfl, hq, rfl, rfl⟩
    | some q =>
      cases q with
      | mgmtAddress a => exact ⟨rfl, rfl, rfl, rfl, rfl⟩
      | trunkRate c =>
        dsimp only
        unfold applyRate truncateOpen
        have : ((modifyTrunk (fun t => { t with pendingSetting := none }) v).port .trunk).rx = .hunt := hx
        rw [this]
        exact ⟨rfl, rfl, rfl, rfl, rfl⟩
  have e := h3 _ (supersedeRecord_rx hrx)
  have ha : settledAddress (supersedeRecord (supersedeOwed v)) = settledAddress v := by
    unfold settledAddress
    rw [(h2 _).2.2, (h1 _).2.2.1, (h2 _).1, (h1 _).1]
  unfold supersede
  rw [e.1, e.2.1, e.2.2.1, e.2.2.2.1, e.2.2.2.2, ha, (h2 _).1, (h2 _).2.1, (h2 _).2.2, (h1 _).1, (h1 _).2.1,
    (h1 _).2.2.2.1, (h1 _).2.2.2.2]
  exact ⟨rfl, rfl, rfl, rfl, rfl⟩

/-- A supersede leaves the management address in force once a pending one has settled (R114). -/
theorem superseded_params (s : State) :
    (superseded s).params = { s.params with mgmtAddress := settledAddress s } :=
  (supersede_kept (v := setRx .trunk .hunt s) rfl).1

/-- The management address after a supersede. -/
theorem superseded_mgmtAddress (s : State) : (superseded s).params.mgmtAddress = settledAddress s := by
  rw [superseded_params]

/-- A supersede keeps the last code and sequence, or leaves both absent (R114, R157). -/
theorem superseded_last (s : State) :
    ((superseded s).lastCode = s.lastCode ∧ (superseded s).lastSeq = s.lastSeq) ∨
      ((superseded s).lastCode = none ∧ (superseded s).lastSeq = none) := by
  have h1 : ∀ v : State, (supersedeOwed v).lastCode = v.lastCode ∧ (supersedeOwed v).lastSeq = v.lastSeq := by
    intro v
    unfold supersedeOwed
    cases v.trunk.owed <;> exact ⟨rfl, rfl⟩
  have h2 : ∀ v : State, (supersedeRecord v).lastCode = v.lastCode ∧ (supersedeRecord v).lastSeq = v.lastSeq := by
    intro v
    unfold supersedeRecord
    cases liveTransparent v with
    | none => exact ⟨rfl, rfl⟩
    | some i =>
      dsimp only
      split <;> exact ⟨rfl, rfl⟩
  have h3 : ∀ v : State, ((settlePending v).lastCode = v.lastCode ∧ (settlePending v).lastSeq = v.lastSeq) ∨
      ((settlePending v).lastCode = none ∧ (settlePending v).lastSeq = none) := by
    intro v
    unfold settlePending
    cases v.trunk.pendingSetting with
    | none => exact Or.inl ⟨rfl, rfl⟩
    | some q =>
      cases q with
      | mgmtAddress a => exact Or.inr ⟨rfl, rfl⟩
      | trunkRate c =>
        dsimp only
        unfold applyRate truncateOpen
        rw [modifyPort_lastCode, modifyPort_lastSeq]
        cases ((modifyTrunk (fun t => { t with pendingSetting := none }) v).port .trunk).rx <;> exact Or.inl ⟨rfl, rfl⟩
  unfold superseded supersede
  rcases h3 (supersedeRecord (supersedeOwed (setRx .trunk .hunt s))) with h | h
  · refine Or.inl ⟨h.1.trans ?_, h.2.trans ?_⟩
    · rw [(h2 _).1, (h1 _).1]; rfl
    · rw [(h2 _).2, (h1 _).2]; rfl
  · exact Or.inr h

/-- A command that repeats nothing before its supersede is none after it, so a ready trunk executes it (R159). -/
theorem commandReady_of_not_replay {s : State} {code seq : Byte} (ht : trunkReady s = true)
    (h : isReplay s code seq = false) : commandReady code seq s = true := by
  have hr : isReplay (superseded s) code seq = false := by
    unfold isReplay at h ⊢
    rcases superseded_last s with ⟨h1, h2⟩ | ⟨h1, h2⟩
    · rw [h1, h2]; exact h
    · rw [h1]; rfl
  unfold commandReady
  rw [ht, hr]
  rfl

/-- A ready command frame is executed on the superseded part under its traces, and answered (R160). -/
theorem command_answered {s : State} {code seq : Byte} (hs : commandReady code seq s = true) {args : List Byte}
    (hl : args.length + 2 ≤ 60) : ∃ p : Traces, p.fits (superseded s) ∧ p.flags ||| receiptFlags = receiptFlags ∧
      p.claimed.isNone = storing .trunk s ∧
      heldFrame .trunkAssembly (p.over (superseded s)) =
        some (mkFrame (settledAddress s) (code :: seq :: args)) ∧
      exec (.trunkGoodFrame (settledAddress s) (code :: seq :: args)) s =
        .next (buildResponse code seq (runCommand code args (p.over (superseded s)))) := by
  unfold commandReady at hs
  rw [Bool.and_eq_true] at hs
  have hd : (code :: seq :: args).length ≤ 60 := by simp only [List.length_cons]; omega
  obtain ⟨p, hfit, -, hflags, hclaim, hheld, he⟩ := trunkGoodFrame_classified hs.1 (settledAddress s) hd
  refine ⟨p, hfit, hflags, hclaim, hheld, ?_⟩
  rw [he]
  have ha : settledAddress s = (p.over (superseded s)).params.mgmtAddress := (superseded_mgmtAddress s).symm
  have hr : isReplay (superseded s) code seq = false := by simpa using hs.2
  have hr : isReplay (p.over (superseded s)) code seq = false := hr
  unfold classify
  rw [if_pos ha]
  show Host.Outcome.next (if isReplay (p.over (superseded s)) code seq = true then _ else _) = _
  rw [hr]
  rfl

/-- A write to a holder's buffer leaves the free count. -/
theorem freeCount_writeBuffer {h : Holder} (chars : List Byte) (s : State) :
    freeCount (writeBuffer h chars s) = freeCount s := by
  unfold freeCount writeBuffer
  have e : ∀ f : Buffer → Buffer, (mapTable f s.buffers).toList = s.buffers.toList.map f := fun _ => rfl
  dsimp only
  rw [e, List.countP_map]
  congr 1
  funext c
  by_cases hc : c.holder = h <;> simp [hc]

/-- The summary depends on the flags, the enables, the active bank, the completion list, the branches and the free count
alone (R150). -/
theorem statusSummary_congr {s t : State} (hf : t.flags = s.flags) (hp : t.params = s.params)
    (hb : t.activeBank = s.activeBank) (hc : t.completions = s.completions) (hx : t.branches = s.branches)
    (hn : freeCount t = freeCount s) : statusSummary t = statusSummary s := by
  unfold statusSummary attention someBranch
  rw [hf, hp, hb, hc, hx, hn]

/-- The frame of a response stands in the last-response memory (R157, R161). -/
theorem heldFrame_takeResponseBuffer (s : State) :
    heldFrame .lastResponse (takeResponseBuffer s) = heldFrame .trunkAssembly s := by
  unfold takeResponseBuffer
  rw [heldFrame_handOver_to (by simp) _ (heldFrame_returnBuffer_same (by simp) s),
    heldFrame_returnBuffer_other (by simp) (by simp)]

/-- A built response answers its command, if the command's buffer is held and its results fit a frame (R160, R161). -/
theorem buildResponse_answered {s : State} {code seq : Byte} {r : Reply}
    (hm : r.state.params.mgmtAddress = settledAddress s) (hheld : (heldFrame .trunkAssembly r.state).isSome = true)
    (hlen : r.data.length + 4 ≤ 60) : Answered s code seq r.result r.data (buildResponse code seq r) := by
  obtain ⟨c, hc⟩ := Option.isSome_iff_exists.mp hheld
  have hsum : statusSummary (buildResponse code seq r) = statusSummary (takeResponseBuffer r.state) :=
    statusSummary_congr rfl rfl rfl rfl rfl (freeCount_writeBuffer _ _)
  have hfr : heldFrame .lastResponse (buildResponse code seq r) =
      some (mkFrame (settledAddress s) (responseData code seq r.result r.data (takeResponseBuffer r.state))) := by
    show heldFrame .lastResponse (writeBuffer .lastResponse _ (takeResponseBuffer r.state)) = _
    rw [heldFrame_writeBuffer_same, heldFrame_takeResponseBuffer, hc, Option.map_some]
    have : (takeResponseBuffer r.state).params.mgmtAddress = settledAddress s := hm
    rw [this]
  have hl : (responseData code seq r.result r.data (takeResponseBuffer r.state)).length ≤ 60 := by
    unfold responseData
    simp only [List.length_append, List.length_cons, List.length_nil]
    omega
  have htx : (buildResponse code seq r).trunk.port.tx =
      .lead (frameToSend .lastResponse (buildResponse code seq r)) := rfl
  unfold Answered
  rw [hsum]
  refine ⟨hfr, rfl, ?_, rfl, rfl⟩
  rw [htx]
  unfold frameToSend
  rw [hfr]
  dsimp only [Option.getD_some]
  rw [frameAddress_mkFrame, frameData_mkFrame _ hl]
  rfl

/-- A built response leaves what every holder holds that is neither the command's buffer nor the last-response memory. -/
theorem heldFrame_buildResponse_other {h : Holder} (hf : h ≠ .free) (ht : h ≠ .trunkAssembly) (hl : h ≠ .lastResponse)
    (code seq : Byte) (r : Reply) : heldFrame h (buildResponse code seq r) = heldFrame h r.state := by
  show heldFrame h (writeBuffer .lastResponse _ (takeResponseBuffer r.state)) = _
  unfold takeResponseBuffer
  rw [heldFrame_writeBuffer_other hl, heldFrame_handOver_other ht hl, heldFrame_returnBuffer_other hf hl]

/-- The traces of a frame leave what every holder holds but the trunk's receive buffer. -/
theorem Traces.over_heldFrame {p : Traces} {v : State} (hv : p.fits v) {h : Holder} (hf : h ≠ .free)
    (ht : h ≠ .trunkAssembly) : heldFrame h (p.over v) = heldFrame h v := by
  have hold : ∀ i : Fin Config.bufferCount,
      ((p.over v).buffers[i].holder == h) = (v.buffers[i].holder == h) := by
    intro i
    have hvi := hv i
    rw [p.over_buffers]
    generalize v.buffers[i] = c at hvi ⊢
    by_cases hc : p.claimed = some i
    · simp [hc, hvi hc, ht.symm, hf.symm]
    · by_cases ha : c.holder = .trunkAssembly
      · simp [ha]
      · simp [hc, ha]
  rw [heldFrame_eq_lowest, heldFrame_eq_lowest, funext hold]
  refine Option.map_congr fun i hi => ?_
  have hh : v.buffers[i].holder = h := by simpa using (lowestIndex_eq_some.mp hi).1
  rw [p.over_buffers, if_neg]
  rintro (hc | ha)
  · exact hf (hh.symm.trans (hv i hc))
  · exact ht (hh.symm.trans ha)

/-! ### What building a response leaves -/

@[simp] theorem buildResponse_inReset (code seq : Byte) (r : Reply) :
    (buildResponse code seq r).inReset = r.state.inReset := by
  simp [buildResponse, oweReply, enterLead, takeResponseBuffer]
@[simp] theorem buildResponse_strapA (code seq : Byte) (r : Reply) :
    (buildResponse code seq r).strapA = r.state.strapA := by
  simp [buildResponse, oweReply, enterLead, takeResponseBuffer]
@[simp] theorem buildResponse_strapR (code seq : Byte) (r : Reply) :
    (buildResponse code seq r).strapR = r.state.strapR := by
  simp [buildResponse, oweReply, enterLead, takeResponseBuffer]
@[simp] theorem buildResponse_params (code seq : Byte) (r : Reply) :
    (buildResponse code seq r).params = r.state.params := by
  simp [buildResponse, oweReply, enterLead, takeResponseBuffer]
@[simp] theorem buildResponse_branches (code seq : Byte) (r : Reply) :
    (buildResponse code seq r).branches = r.state.branches := by
  simp [buildResponse, oweReply, enterLead, takeResponseBuffer]
@[simp] theorem buildResponse_bankA (code seq : Byte) (r : Reply) :
    (buildResponse code seq r).bankA = r.state.bankA := by
  simp [buildResponse, oweReply, enterLead, takeResponseBuffer]
@[simp] theorem buildResponse_bankB (code seq : Byte) (r : Reply) :
    (buildResponse code seq r).bankB = r.state.bankB := by
  simp [buildResponse, oweReply, enterLead, takeResponseBuffer]
@[simp] theorem buildResponse_activeBank (code seq : Byte) (r : Reply) :
    (buildResponse code seq r).activeBank = r.state.activeBank := by
  simp [buildResponse, oweReply, enterLead, takeResponseBuffer]
@[simp] theorem buildResponse_records (code seq : Byte) (r : Reply) :
    (buildResponse code seq r).records = r.state.records := by
  simp [buildResponse, oweReply, enterLead, takeResponseBuffer]
@[simp] theorem buildResponse_tagCounter (code seq : Byte) (r : Reply) :
    (buildResponse code seq r).tagCounter = r.state.tagCounter := by
  simp [buildResponse, oweReply, enterLead, takeResponseBuffer]
@[simp] theorem buildResponse_completions (code seq : Byte) (r : Reply) :
    (buildResponse code seq r).completions = r.state.completions := by
  simp [buildResponse, oweReply, enterLead, takeResponseBuffer]
@[simp] theorem buildResponse_slots (code seq : Byte) (r : Reply) :
    (buildResponse code seq r).slots = r.state.slots := by
  simp [buildResponse, oweReply, enterLead, takeResponseBuffer]
@[simp] theorem buildResponse_flags (code seq : Byte) (r : Reply) :
    (buildResponse code seq r).flags = r.state.flags := by
  simp [buildResponse, oweReply, enterLead, takeResponseBuffer]
@[simp] theorem buildResponse_pending (code seq : Byte) (r : Reply) :
    (buildResponse code seq r).pending = r.state.pending := by
  simp [buildResponse, oweReply, enterLead, takeResponseBuffer]
@[simp] theorem buildResponse_counters (code seq : Byte) (r : Reply) :
    (buildResponse code seq r).trunk.counters = r.state.trunk.counters := rfl
@[simp] theorem buildResponse_pendingSetting (code seq : Byte) (r : Reply) :
    (buildResponse code seq r).trunk.pendingSetting = r.state.trunk.pendingSetting := rfl
@[simp] theorem buildResponse_rate (code seq : Byte) (r : Reply) :
    (buildResponse code seq r).trunk.port.rate = r.state.trunk.port.rate := rfl
@[simp] theorem buildResponse_guard (code seq : Byte) (r : Reply) :
    (buildResponse code seq r).trunk.port.guard = r.state.trunk.port.guard := rfl
@[simp] theorem buildResponse_charTimeout (code seq : Byte) (r : Reply) :
    (buildResponse code seq r).trunk.port.charTimeout = r.state.trunk.port.charTimeout := rfl

/-! ### What the traces of a frame leave -/

@[simp] theorem Traces.over_inReset (p : Traces) (v : State) : (p.over v).inReset = v.inReset := rfl
@[simp] theorem Traces.over_strapA (p : Traces) (v : State) : (p.over v).strapA = v.strapA := rfl
@[simp] theorem Traces.over_strapR (p : Traces) (v : State) : (p.over v).strapR = v.strapR := rfl
@[simp] theorem Traces.over_params (p : Traces) (v : State) : (p.over v).params = v.params := rfl
@[simp] theorem Traces.over_branches (p : Traces) (v : State) : (p.over v).branches = v.branches := rfl
@[simp] theorem Traces.over_bankA (p : Traces) (v : State) : (p.over v).bankA = v.bankA := rfl
@[simp] theorem Traces.over_bankB (p : Traces) (v : State) : (p.over v).bankB = v.bankB := rfl
@[simp] theorem Traces.over_activeBank (p : Traces) (v : State) : (p.over v).activeBank = v.activeBank := rfl
@[simp] theorem Traces.over_records (p : Traces) (v : State) : (p.over v).records = v.records := rfl
@[simp] theorem Traces.over_tagCounter (p : Traces) (v : State) : (p.over v).tagCounter = v.tagCounter := rfl
@[simp] theorem Traces.over_completions (p : Traces) (v : State) : (p.over v).completions = v.completions := rfl
@[simp] theorem Traces.over_slots (p : Traces) (v : State) : (p.over v).slots = v.slots := rfl
@[simp] theorem Traces.over_pending (p : Traces) (v : State) : (p.over v).pending = v.pending := rfl
@[simp] theorem Traces.over_flags (p : Traces) (v : State) : (p.over v).flags = v.flags ||| p.flags := rfl
@[simp] theorem Traces.over_counters (p : Traces) (v : State) :
    (p.over v).trunk.counters = v.trunk.counters := rfl
@[simp] theorem Traces.over_pendingSetting (p : Traces) (v : State) :
    (p.over v).trunk.pendingSetting = v.trunk.pendingSetting := rfl
@[simp] theorem Traces.over_rate (p : Traces) (v : State) : (p.over v).trunk.port.rate = v.trunk.port.rate := rfl
@[simp] theorem Traces.over_guard (p : Traces) (v : State) : (p.over v).trunk.port.guard = v.trunk.port.guard := rfl
@[simp] theorem Traces.over_charTimeout (p : Traces) (v : State) :
    (p.over v).trunk.port.charTimeout = v.trunk.port.charTimeout := rfl

/-- A command that is answered without an effect changes nothing but the answer (R160, R163). -/
theorem answeredOnly {s : State} {code seq : Byte} {p : Traces} (hfit : p.fits (superseded s))
    (hflags : p.flags ||| receiptFlags = receiptFlags)
    (hheld : (heldFrame .trunkAssembly (p.over (superseded s))).isSome = true) (result : ResultCode) {data : List Byte}
    (hlen : data.length + 4 ≤ 60) :
    AnsweredOnly s code seq result data
      (buildResponse code seq { result := result, data := data, state := p.over (superseded s) }) := by
  have hk := supersede_kept (v := setRx .trunk .hunt s) rfl
  change _ ∧ (superseded s).flags = s.flags ∧ (superseded s).trunk.pendingSetting = none ∧
    (superseded s).trunk.port.guard = s.trunk.port.guard ∧
    (superseded s).trunk.port.charTimeout = s.trunk.port.charTimeout at hk
  obtain ⟨-, hkf, hkp, hkg, hkc⟩ := hk
  have hparams := superseded_params s
  have hmg := superseded_mgmtAddress s
  unfold AnsweredOnly CommandKept SameBut
  generalize superseded s = v at *
  refine ⟨buildResponse_answered hmg hheld hlen, ⟨by simp, ?_⟩, fun _ => by simpa using hparams,
    fun _ => ?_, fun _ h hh => ?_, fun _ =>
      ⟨by simp, by simpa using hkp, by simp, by simpa using hkg, by simpa using hkc⟩⟩
  · intro q hq hn
    cases q <;> first | (simp [samePart]; done) | simp at hn
  · rw [buildResponse_flags, Traces.over_flags, hkf, BitVec.or_assoc, hflags]
  · have hx : h ≠ .free ∧ h ≠ .trunkAssembly ∧ h ≠ .lastResponse := by
      unfold exchangeHolders at hh
      simp only [List.mem_append, List.mem_map] at hh
      rcases hh with ((⟨_, -, rfl⟩ | ⟨_, -, rfl⟩) | ⟨_, -, rfl⟩) | ⟨_, -, rfl⟩ <;> simp
    rw [heldFrame_buildResponse_other hx.1 hx.2.1 hx.2.2]
    exact Traces.over_heldFrame hfit hx.1 hx.2.1

end Sys2Proof.Machine
end

