-- ==== Sys2Proof/Laws/Exchange.lean ====
section
/-!
SUPPORT. How far the operations of the exchanges reach: what any of them may change, said once in a form that composes.
-/

namespace Sys2Proof.Machine

/-! ### Frames -/

/-- Nothing has changed. -/
theorem SameBut.refl (except : List Part) (s : State) : SameBut except s s := by
  refine ⟨rfl, fun p _ _ => ?_⟩
  cases p <;> first | rfl | exact ⟨rfl, rfl, rfl⟩ | exact ⟨rfl, rfl⟩

/-- Frames compose. -/
theorem SameBut.trans {except : List Part} {s t u : State} (h1 : SameBut except s t) (h2 : SameBut except t u) :
    SameBut except s u := by
  refine ⟨h2.1.trans h1.1, fun p hp hn => ?_⟩
  have a := h1.2 p hp hn
  have b := h2.2 p hp hn
  cases p <;> first
    | exact b.trans a
    | exact ⟨b.1.trans a.1, b.2.1.trans a.2.1, b.2.2.trans a.2.2⟩
    | exact ⟨b.1.trans a.1, b.2.trans a.2⟩

/-- A frame that excepts more says less. -/
theorem SameBut.mono {e f : List Part} (h : ∀ p ∈ e, p ∈ f) {s t : State} (hs : SameBut e s t) : SameBut f s t :=
  ⟨hs.1, fun p hp hn => hs.2 p hp fun he => hn (h p he)⟩

/-- The pieces of the state that an exchange may touch. -/
def exchangeParts : List Part :=
  [.trunk, .records, .completions, .slots, .buffers, .flags] ++ branchParts

/-- Nothing but the pieces that an exchange may touch has changed. -/
def ExchangeKept (s t : State) : Prop :=
  t = { s with
    trunk := t.trunk, branches := t.branches, records := t.records, completions := t.completions, slots := t.slots
    buffers := t.buffers, flags := t.flags }

/-- An exchange that did nothing. -/
theorem ExchangeKept.refl (s : State) : ExchangeKept s s := rfl

/-- One operation of an exchange after another. -/
theorem ExchangeKept.trans {s t u : State} (h1 : ExchangeKept s t) (h2 : ExchangeKept t u) : ExchangeKept s u := by
  unfold ExchangeKept at *
  rw [h2, h1]

/-- The frame of an exchange. -/
theorem ExchangeKept.sameBut {s t : State} (h : ExchangeKept s t) : SameBut exchangeParts s t := by
  unfold ExchangeKept at h
  rw [h]
  refine ⟨rfl, fun p _ hn => ?_⟩
  cases p with
  | branch b =>
    exfalso
    apply hn
    revert b
    decide
  | trunk | records | completions | slots | buffers | flags => exact absurd (by decide) hn
  | pins => exact ⟨rfl, rfl, rfl⟩
  | lastCommand => exact ⟨rfl, rfl⟩
  | params | bankA | bankB | activeBank | tagCounter => rfl

/-- An exchange leaves the reset line as it is. -/
theorem ExchangeKept.inReset {s t : State} (h : ExchangeKept s t) : t.inReset = s.inReset := by rw [h]

/-- An exchange leaves the parameters. -/
theorem ExchangeKept.params {s t : State} (h : ExchangeKept s t) : t.params = s.params := by rw [h]

/-- An exchange leaves the queue of commands. -/
theorem ExchangeKept.pending {s t : State} (h : ExchangeKept s t) : t.pending = s.pending := by rw [h]

/-! ### The operations -/

/-- A return stays within an exchange (R126). -/
theorem returnBuffer_kept (h : Holder) (s : State) : ExchangeKept s (returnBuffer h s) := rfl

/-- A change of a record stays within an exchange. -/
theorem modifyRecord_kept (i : RecordIndex) (f : Record → Record) (s : State) : ExchangeKept s (modifyRecord i f s) :=
  rfl

/-- Freeing a record stays within an exchange. -/
theorem freeRecord_kept (i : RecordIndex) (s : State) : ExchangeKept s (freeRecord i s) := by
  unfold freeRecord
  dsimp only
  have h1 := (returnBuffer_kept (.request i) s).trans (returnBuffer_kept (.answer i) _)
  generalize returnBuffer (.answer i) (returnBuffer (.request i) s) = t at h1
  have h2 : ExchangeKept t (leaveQueues i t) := rfl
  have h3 := h1.trans h2
  generalize leaveQueues i t = u at h3
  have h4 : ExchangeKept u { u with completions := u.completions.filter fun j => j != i } := rfl
  have h5 := (h3.trans h4).trans (modifyRecord_kept i (fun _ => .free) _)
  generalize modifyRecord i (fun _ => .free) { u with completions := u.completions.filter fun j => j != i } = v at h5
  have h6 : ExchangeKept v (endIdleStalls v) := rfl
  exact h5.trans h6

/-- Leaving a GROUP record's sets stays within an exchange (R62). -/
theorem groupLeave_kept (b : Branch) (i : RecordIndex) (s : State) : ExchangeKept s (groupLeave b i s) := by
  unfold groupLeave
  dsimp only
  split
  · exact (modifyRecord_kept i _ s).trans (freeRecord_kept i _)
  · exact modifyRecord_kept i _ s

/-- Noting an outcome sets at most a flag (R56). -/
theorem noteOutcome_kept (o : ExchangeOutcome) (s : State) : ExchangeKept s (noteOutcome o s) := by
  cases o <;> rfl

/-- A hand-over stays within an exchange (R125). -/
theorem handOver_kept (h g : Holder) (s : State) : ExchangeKept s (handOver h g s) := rfl

/-- A write to a buffer stays within an exchange. -/
theorem writeBuffer_kept (h : Holder) (chars : List Byte) (s : State) : ExchangeKept s (writeBuffer h chars s) := rfl

/-- Owing a reply stays within an exchange (R102). -/
theorem oweReply_kept (k : OwedReply) (h : Holder) (s : State) : ExchangeKept s (oweReply k h s) := rfl

/-- Dropping an answer that came late stays within an exchange (R59, R72). -/
theorem dropLateAnswer_kept (b : Branch) (o : ExchangeOutcome) (s : State) : ExchangeKept s (dropLateAnswer b o s) := by
  unfold dropLateAnswer
  split
  · exact returnBuffer_kept _ s
  · exact ExchangeKept.refl s

/-- Answering the master stays within an exchange (R57). -/
theorem answerTransparent_kept (i : RecordIndex) (b : Branch) (s : State) : ExchangeKept s (answerTransparent i b s) :=
  ((handOver_kept _ _ s).trans (writeBuffer_kept _ _ _)).trans
    (((handOver_kept _ _ _).trans (oweReply_kept _ _ _)).trans (freeRecord_kept i _))

/-- A proxy status frame stays within an exchange (R112). -/
theorem oweProxy_kept (h : Holder) (a reason : Byte) (s : State) : ExchangeKept s (oweProxy h a reason s) :=
  ((writeBuffer_kept _ _ s).trans (handOver_kept _ _ _)).trans (oweReply_kept _ _ _)

/-- Failing a TRANSPARENT record stays within an exchange (R58). -/
theorem failTransparent_kept (i : RecordIndex) (o : ExchangeOutcome) (s : State) :
    ExchangeKept s (failTransparent i o s) := by
  unfold failTransparent
  dsimp only
  split
  · exact (oweProxy_kept _ _ _ s).trans (freeRecord_kept i _)
  · exact ExchangeKept.trans (t := setOwed .nothing s) rfl (freeRecord_kept i _)

/-- Settling a TRANSPARENT record stays within an exchange (R57, R58, R59). -/
theorem settleTransparent_kept (i : RecordIndex) (b : Branch) (o : ExchangeOutcome) (s : State) :
    ExchangeKept s (settleTransparent i b o s) := by
  unfold settleTransparent
  split
  · exact (dropLateAnswer_kept b o s).trans (freeRecord_kept i _)
  · split
    · exact answerTransparent_kept i b s
    · exact failTransparent_kept i o s

/-- Ending a DEFERRED record stays within an exchange (R60). -/
theorem endDeferred_kept (i : RecordIndex) (b : Branch) (o : ExchangeOutcome) (s : State) :
    ExchangeKept s (endDeferred i b o s) := by
  unfold endDeferred
  dsimp only
  refine ExchangeKept.trans (t := if o = .answered then
      handOver (.branchAnswer b) (.answer i) (returnBuffer (.request i) s) else returnBuffer (.request i) s) ?_ ?_
  · split
    · exact (returnBuffer_kept _ s).trans (handOver_kept _ _ _)
    · exact returnBuffer_kept _ s
  · generalize (if o = .answered then
      handOver (.branchAnswer b) (.answer i) (returnBuffer (.request i) s) else returnBuffer (.request i) s) = t
    rfl

/-- Settling a DEFERRED record stays within an exchange (R60, R72). -/
theorem settleDeferred_kept (i : RecordIndex) (b : Branch) (o : ExchangeOutcome) (s : State) :
    ExchangeKept s (settleDeferred i b o s) := by
  unfold settleDeferred
  split
  · exact (dropLateAnswer_kept b o s).trans (freeRecord_kept i _)
  · exact endDeferred_kept i b o s

/-- The end of a slot's poll stays within an exchange (R135). -/
theorem pollEnds_kept (k : SlotIndex) (b : Branch) (answered : Bool) (s : State) :
    ExchangeKept s (pollEnds k b answered s) := by
  unfold pollEnds
  cases answered with
  | true =>
    show ExchangeKept s (slotLeavePoll k (replaceSnapshot k b s))
    unfold slotLeavePoll
    split <;> rfl
  | false =>
    show ExchangeKept s (slotLeavePoll k (slotMiss k s))
    unfold slotLeavePoll
    split <;> rfl

/-- Settling a CYCLIC record stays within an exchange (R61). -/
theorem settleCyclic_kept (i : RecordIndex) (b : Branch) (o : ExchangeOutcome) (s : State) :
    ExchangeKept s (settleCyclic i b o s) := by
  unfold settleCyclic
  split
  · exact freeRecord_kept i s
  · exact (pollEnds_kept _ b _ s).trans (freeRecord_kept i _)

/-- Fixing an outcome stays within an exchange (R54, R56). -/
theorem fixOutcome_kept (i : RecordIndex) (b : Branch) (o : ExchangeOutcome) (s : State) :
    ExchangeKept s (fixOutcome i b o s) := by
  unfold fixOutcome
  split
  · exact (noteOutcome_kept o s).trans (settleTransparent_kept i b o _)
  · exact (noteOutcome_kept o s).trans (settleDeferred_kept i b o _)
  · exact (noteOutcome_kept o s).trans (settleCyclic_kept i b o _)
  · rfl
  · rfl

/-- Settling or retrying on an attempt's result stays within an exchange (R54, R55). -/
theorem settleAttempt_kept (i : RecordIndex) (b : Branch) (o : ExchangeOutcome) (s : State) :
    ExchangeKept s (settleAttempt i b o s) := by
  unfold settleAttempt
  dsimp only
  split
  · exact fixOutcome_kept i b o s
  · rfl

/-- A port under a new rate stays within an exchange (R22). -/
theorem applyRate_kept (p : Port) (code : Nat) (s : State) : ExchangeKept s (applyRate p code s) := by
  unfold applyRate truncateOpen
  cases p <;> cases (State.port s _).rx <;> rfl

/-- A held rate that is applied stays within an exchange (R188). -/
theorem applyPendingRate_kept (b : Branch) (s : State) : ExchangeKept s (applyPendingRate b s) := by
  unfold applyPendingRate
  split
  · rfl
  · exact ExchangeKept.trans (t := modifyBranch b (fun x => { x with pendingRate := none }) s) rfl
      (applyRate_kept _ _ _)

/-- Entering IDLE stays within an exchange (R89). -/
theorem enterIdle_kept (b : Branch) (s : State) : ExchangeKept s (enterIdle b s) :=
  (applyPendingRate_kept b s).trans rfl

/-- Settling one record of a branch that leaves service stays within an exchange (R63). -/
theorem settleBranchOff_kept (b : Branch) (s : State) (i : RecordIndex) : ExchangeKept s (settleBranchOff b s i) := by
  unfold settleBranchOff
  split
  · exact groupLeave_kept b i s
  · exact fixOutcome_kept i b .branchOff s

/-- A fold of operations of an exchange stays within one. -/
theorem foldl_kept {α : Type} {f : State → α → State} (hf : ∀ s a, ExchangeKept s (f s a)) (l : List α) (s : State) :
    ExchangeKept s (l.foldl f s) := by
  induction l generalizing s with
  | nil => rfl
  | cons a l ih => exact (hf s a).trans (ih (f s a))

/-- Settling a branch's work stays within an exchange (R63). -/
theorem settleBranchWork_kept (b : Branch) (s : State) : ExchangeKept s (settleBranchWork b s) := by
  unfold settleBranchWork
  dsimp only
  refine ExchangeKept.trans (t := match s.branches[b].onLine with
    | some i => settleBranchOff b s i
    | none => s) ?_ ?_
  · split
    · exact settleBranchOff_kept b s _
    · rfl
  · exact (foldl_kept (settleBranchOff_kept b) _ _).trans rfl

/-- Leaving service stays within an exchange (R92, R94). -/
theorem leaveService_kept (b : Branch) (s : State) : ExchangeKept s (leaveService b s) :=
  ((settleBranchWork_kept b s).trans (applyPendingRate_kept b _)).trans rfl

/-- Entering FAULT stays within an exchange (R94). -/
theorem enterFault_kept (b : Branch) (s : State) : ExchangeKept s (enterFault b s) :=
  (leaveService_kept b s).trans rfl

/-- The end of an attempt stays within an exchange (R54, R86, R87). -/
theorem attemptEnds_kept (b : Branch) (o : ExchangeOutcome) (s : State) : ExchangeKept s (attemptEnds b o s) := by
  unfold attemptEnds
  dsimp only
  split
  · exact ExchangeKept.trans (t := modifyBranch b (fun x => { x with windowTimer := none }) s) rfl (enterIdle_kept b _)
  · refine ExchangeKept.trans ?_ (enterIdle_kept b _)
    refine ExchangeKept.trans ?_ (t := settleAttempt _ b o _) rfl
    refine ExchangeKept.trans ?_ (settleAttempt_kept _ b o _)
    split <;> rfl

/-! ### Slots behind a RESTART -/

/-- A slot that a RESTART has left is left as it is by another (R146). -/
@[simp] theorem restartSlot_restartSlot (x : Slot) : restartSlot (restartSlot x) = restartSlot x := by
  cases x with
  | mk state config countdown seq age misses overruns => cases state <;> rfl

/-- All that it takes for an expiry to fall together with a RESTART (R180). -/
theorem justRestarted_iff (k : SlotIndex) (s : State) :
    justRestarted k s = true ↔ (s.lastCode = some (commandByte .restart) ∧ s.trunk.owed = .response ∧
      s.trunk.port.tx.leading = true ∧ s.trunk.port.counters.framesRxGood = 0) ∧
      s.slots[k].state = .armed ∧ s.slots[k] = restartSlot s.slots[k] := by
  simp only [justRestarted, restartResponseWaits, Bool.and_eq_true, beq_iff_eq, and_assoc]

/-- While no such RESTART waits in LEAD, a reported expiry is one (R133). -/
theorem slotExpiryTaken_of_owed (k : SlotIndex) (s : State) (h : s.trunk.owed ≠ .response) :
    slotExpiryTaken k s = slotExpire k s := by
  rw [slotExpiryTaken, if_neg]
  intro hr
  exact h ((justRestarted_iff k s).1 hr).1.2.1

end Sys2Proof.Machine
end

