-- ==== Sys2Proof/Laws/PerInstr.lean ====
section
/-!
SUPPORT. Statements about every constructor of `Instr`, one lemma each. FrameFits: a command that is sent as a frame is
well formed exactly when its DATA fits one (section 1.3, R162).
-/

namespace Sys2Proof.Laws

open Sys2Proof.Machine

/-- The DATA of the frame a management row is sent in, or of the frame TRUNK_GOOD_FRAME names (section 10.2). -/
def commandData : Instr → Option (List Byte)
  | .trunkGoodFrame _ data => some data
  | .identify seq => some (commandByte .identify :: seq :: [])
  | .getParam seq index => some (commandByte .getParam :: seq :: [index])
  | .setParam seq index value => some (commandByte .setParam :: seq :: (index :: bytesOfWord value))
  | .readEntry seq bank index clear => some (commandByte .readEntry :: seq :: [bank, index, clear])
  | .writeEntry seq bank index entry => some (commandByte .writeEntry :: seq :: (bank :: index :: entry.toList))
  | .clearEntry seq bank index => some (commandByte .clearEntry :: seq :: [bank, index])
  | .copyBank seq => some (commandByte .copyBank :: seq :: [])
  | .swapBanks seq => some (commandByte .swapBanks :: seq :: [])
  | .submit seq address data => some (commandByte .submit :: seq :: (address :: data))
  | .collect seq tag offset => some (commandByte .collect :: seq :: [tag, offset])
  | .collectNext seq offset => some (commandByte .collectNext :: seq :: [offset])
  | .cancel seq tag => some (commandByte .cancel :: seq :: [tag])
  | .listPending seq => some (commandByte .listPending :: seq :: [])
  | .pollSet seq slot branch lineAddress period template =>
    some (commandByte .pollSet :: seq :: ([slot, branch, lineAddress] ++ bytesOfWord period ++ template))
  | .pollSetUnset seq slot => some (commandByte .pollSet :: seq :: [slot])
  | .pollStart seq slot delay => some (commandByte .pollStart :: seq :: (slot :: bytesOfWord delay))
  | .pollStop seq slot => some (commandByte .pollStop :: seq :: [slot])
  | .pollRead seq slot => some (commandByte .pollRead :: seq :: [slot])
  | .readSnapshot seq slot offset => some (commandByte .readSnapshot :: seq :: [slot, offset])
  | .readEvents seq => some (commandByte .readEvents :: seq :: [])
  | .clearEvents seq mask => some (commandByte .clearEvents :: seq :: (bytesOfWord mask))
  | .readCounters seq port clear => some (commandByte .readCounters :: seq :: [port, clear])
  | .branchControlQuery seq branch => some (commandByte .branchControl :: seq :: [branch, 0x00#8])
  | .branchControlDisable seq branch => some (commandByte .branchControl :: seq :: [branch, 0x02#8])
  | .branchControlEnable seq branch => some (commandByte .branchControl :: seq :: [branch, 0x01#8])
  | .restart seq => some (commandByte .restart :: seq :: [])
  | .resetAsserted | .resetRelease _ _ | .receiverSynchronised _ | .addressCharacter _ _ | .dataCharacter _ _
  | .framingError _ | .lineBreak _ | .characterTimeout _ | .guardMet _ | .arbitration _ | .branchSendComplete _
  | .branchContention _ | .responseWindowExpiry _ | .answerEnd _ _ | .quarantineExpiry _ | .holdExpiry _
  | .slotExpiry _ | .trunkReplySent | .trunkContention | .startBit _ _ | .breakEnd _ => none

/-- A command that is sent as a frame is well formed exactly when its DATA fits one. -/
def FrameFits.Statement (i : Instr) : Prop := ∀ d, commandData i = some d → (i.wellFormed = true ↔ d.length ≤ 60)

theorem FrameFits.resetAsserted : FrameFits.Statement .resetAsserted := by
  intro d h
  exact absurd h (by simp [commandData])

theorem FrameFits.resetRelease (strapA : BitVec 3) (strapR : BitVec 2) :
    FrameFits.Statement (.resetRelease strapA strapR) := by
  intro d h
  exact absurd h (by simp [commandData])

theorem FrameFits.receiverSynchronised (p : Port) : FrameFits.Statement (.receiverSynchronised p) := by
  intro d h
  exact absurd h (by simp [commandData])

theorem FrameFits.addressCharacter (p : Port) (c : Byte) : FrameFits.Statement (.addressCharacter p c) := by
  intro d h
  exact absurd h (by simp [commandData])

theorem FrameFits.dataCharacter (p : Port) (c : Byte) : FrameFits.Statement (.dataCharacter p c) := by
  intro d h
  exact absurd h (by simp [commandData])

theorem FrameFits.framingError (p : Port) : FrameFits.Statement (.framingError p) := by
  intro d h
  exact absurd h (by simp [commandData])

theorem FrameFits.lineBreak (p : Port) : FrameFits.Statement (.lineBreak p) := by
  intro d h
  exact absurd h (by simp [commandData])

theorem FrameFits.characterTimeout (p : Port) : FrameFits.Statement (.characterTimeout p) := by
  intro d h
  exact absurd h (by simp [commandData])

theorem FrameFits.guardMet (p : Port) : FrameFits.Statement (.guardMet p) := by
  intro d h
  exact absurd h (by simp [commandData])

theorem FrameFits.trunkGoodFrame (address : Byte) (data : List Byte) :
    FrameFits.Statement (.trunkGoodFrame address data) := by
  intro d h
  obtain rfl : data = d := Option.some.inj h
  simp [Instr.wellFormed, fitsFrame]

theorem FrameFits.identify (seq : Byte) : FrameFits.Statement (.identify seq) := by
  intro d h
  rw [← Option.some.inj h]
  simp [Instr.wellFormed]

theorem FrameFits.getParam (seq index : Byte) : FrameFits.Statement (.getParam seq index) := by
  intro d h
  rw [← Option.some.inj h]
  simp [Instr.wellFormed]

theorem FrameFits.setParam (seq index : Byte) (value : Word) : FrameFits.Statement (.setParam seq index value) := by
  intro d h
  rw [← Option.some.inj h]
  simp [Instr.wellFormed, bytesOfWord]

theorem FrameFits.readEntry (seq bank index clear : Byte) : FrameFits.Statement (.readEntry seq bank index clear) := by
  intro d h
  rw [← Option.some.inj h]
  simp [Instr.wellFormed]

theorem FrameFits.writeEntry (seq bank index : Byte) (entry : Vector Byte 9) :
    FrameFits.Statement (.writeEntry seq bank index entry) := by
  intro d h
  rw [← Option.some.inj h]
  simp [Instr.wellFormed]

theorem FrameFits.clearEntry (seq bank index : Byte) : FrameFits.Statement (.clearEntry seq bank index) := by
  intro d h
  rw [← Option.some.inj h]
  simp [Instr.wellFormed]

theorem FrameFits.copyBank (seq : Byte) : FrameFits.Statement (.copyBank seq) := by
  intro d h
  rw [← Option.some.inj h]
  simp [Instr.wellFormed]

theorem FrameFits.swapBanks (seq : Byte) : FrameFits.Statement (.swapBanks seq) := by
  intro d h
  rw [← Option.some.inj h]
  simp [Instr.wellFormed]

theorem FrameFits.submit (seq address : Byte) (data : List Byte) : FrameFits.Statement (.submit seq address data) := by
  intro d h
  rw [← Option.some.inj h]
  simp [Instr.wellFormed, Instr.submitFits]
  have : Config.maxData = 60 := rfl
  omega

theorem FrameFits.collect (seq tag offset : Byte) : FrameFits.Statement (.collect seq tag offset) := by
  intro d h
  rw [← Option.some.inj h]
  simp [Instr.wellFormed]

theorem FrameFits.collectNext (seq offset : Byte) : FrameFits.Statement (.collectNext seq offset) := by
  intro d h
  rw [← Option.some.inj h]
  simp [Instr.wellFormed]

theorem FrameFits.cancel (seq tag : Byte) : FrameFits.Statement (.cancel seq tag) := by
  intro d h
  rw [← Option.some.inj h]
  simp [Instr.wellFormed]

theorem FrameFits.listPending (seq : Byte) : FrameFits.Statement (.listPending seq) := by
  intro d h
  rw [← Option.some.inj h]
  simp [Instr.wellFormed]

theorem FrameFits.pollSet (seq slot branch lineAddress : Byte) (period : Word) (template : List Byte) :
    FrameFits.Statement (.pollSet seq slot branch lineAddress period template) := by
  intro d h
  rw [← Option.some.inj h]
  simp [Instr.wellFormed, Instr.templateFits, bytesOfWord]
  have : Config.maxData = 60 := rfl
  omega

theorem FrameFits.pollSetUnset (seq slot : Byte) : FrameFits.Statement (.pollSetUnset seq slot) := by
  intro d h
  rw [← Option.some.inj h]
  simp [Instr.wellFormed]

theorem FrameFits.pollStart (seq slot : Byte) (delay : Word) : FrameFits.Statement (.pollStart seq slot delay) := by
  intro d h
  rw [← Option.some.inj h]
  simp [Instr.wellFormed, bytesOfWord]

theorem FrameFits.pollStop (seq slot : Byte) : FrameFits.Statement (.pollStop seq slot) := by
  intro d h
  rw [← Option.some.inj h]
  simp [Instr.wellFormed]

theorem FrameFits.pollRead (seq slot : Byte) : FrameFits.Statement (.pollRead seq slot) := by
  intro d h
  rw [← Option.some.inj h]
  simp [Instr.wellFormed]

theorem FrameFits.readSnapshot (seq slot offset : Byte) : FrameFits.Statement (.readSnapshot seq slot offset) := by
  intro d h
  rw [← Option.some.inj h]
  simp [Instr.wellFormed]

theorem FrameFits.readEvents (seq : Byte) : FrameFits.Statement (.readEvents seq) := by
  intro d h
  rw [← Option.some.inj h]
  simp [Instr.wellFormed]

theorem FrameFits.clearEvents (seq : Byte) (mask : Word) : FrameFits.Statement (.clearEvents seq mask) := by
  intro d h
  rw [← Option.some.inj h]
  simp [Instr.wellFormed, bytesOfWord]

theorem FrameFits.readCounters (seq port clear : Byte) : FrameFits.Statement (.readCounters seq port clear) := by
  intro d h
  rw [← Option.some.inj h]
  simp [Instr.wellFormed]

theorem FrameFits.branchControlQuery (seq branch : Byte) : FrameFits.Statement (.branchControlQuery seq branch) := by
  intro d h
  rw [← Option.some.inj h]
  simp [Instr.wellFormed]

theorem FrameFits.branchControlDisable (seq branch : Byte) :
    FrameFits.Statement (.branchControlDisable seq branch) := by
  intro d h
  rw [← Option.some.inj h]
  simp [Instr.wellFormed]

theorem FrameFits.branchControlEnable (seq branch : Byte) : FrameFits.Statement (.branchControlEnable seq branch) := by
  intro d h
  rw [← Option.some.inj h]
  simp [Instr.wellFormed]

theorem FrameFits.restart (seq : Byte) : FrameFits.Statement (.restart seq) := by
  intro d h
  rw [← Option.some.inj h]
  simp [Instr.wellFormed]

theorem FrameFits.arbitration (b : Branch) : FrameFits.Statement (.arbitration b) := by
  intro d h
  exact absurd h (by simp [commandData])

theorem FrameFits.branchSendComplete (b : Branch) : FrameFits.Statement (.branchSendComplete b) := by
  intro d h
  exact absurd h (by simp [commandData])

theorem FrameFits.branchContention (b : Branch) : FrameFits.Statement (.branchContention b) := by
  intro d h
  exact absurd h (by simp [commandData])

theorem FrameFits.responseWindowExpiry (b : Branch) : FrameFits.Statement (.responseWindowExpiry b) := by
  intro d h
  exact absurd h (by simp [commandData])

theorem FrameFits.answerEnd (b : Branch) (report : AnswerReport) : FrameFits.Statement (.answerEnd b report) := by
  intro d h
  exact absurd h (by simp [commandData])

theorem FrameFits.quarantineExpiry (b : Branch) : FrameFits.Statement (.quarantineExpiry b) := by
  intro d h
  exact absurd h (by simp [commandData])

theorem FrameFits.holdExpiry (r : RecordIndex) : FrameFits.Statement (.holdExpiry r) := by
  intro d h
  exact absurd h (by simp [commandData])

theorem FrameFits.slotExpiry (k : SlotIndex) : FrameFits.Statement (.slotExpiry k) := by
  intro d h
  exact absurd h (by simp [commandData])

theorem FrameFits.trunkReplySent : FrameFits.Statement .trunkReplySent := by
  intro d h
  exact absurd h (by simp [commandData])

theorem FrameFits.trunkContention : FrameFits.Statement .trunkContention := by
  intro d h
  exact absurd h (by simp [commandData])

theorem FrameFits.startBit (p : Port) (confirmed : Bool) : FrameFits.Statement (.startBit p confirmed) := by
  intro d h
  exact absurd h (by simp [commandData])

theorem FrameFits.breakEnd (p : Port) : FrameFits.Statement (.breakEnd p) := by
  intro d h
  exact absurd h (by simp [commandData])

/-- Every management row and TRUNK_GOOD_FRAME do what the frame that carries their DATA does. -/
theorem exec_commandData {i : Instr} {d : List Byte} (h : commandData i = some d)
    (hi : ∀ a data, i ≠ .trunkGoodFrame a data) (s : State) :
    exec i s = exec (.trunkGoodFrame (settledAddress s) d) s := by
  cases i with
  | trunkGoodFrame a data => exact absurd rfl (hi a data)
  | identify | getParam | setParam | readEntry | writeEntry | clearEntry | copyBank | swapBanks | submit
  | collect | collectNext | cancel | listPending | pollSet | pollSetUnset | pollStart | pollStop | pollRead
  | readSnapshot | readEvents | clearEvents | readCounters | branchControlQuery | branchControlDisable
  | branchControlEnable | restart =>
    rw [← Option.some.inj h]; rfl
  | resetAsserted | resetRelease | receiverSynchronised | addressCharacter | dataCharacter | framingError
  | lineBreak | characterTimeout | guardMet | arbitration | branchSendComplete | branchContention
  | responseWindowExpiry | answerEnd | quarantineExpiry | holdExpiry | slotExpiry | trunkReplySent
  | trunkContention | startBit | breakEnd =>
    simp [commandData] at h

end Sys2Proof.Laws
end

