-- ==== Sys2Proof/Tests/Slice0.lean ====
section
/-!
SUPPORT. Tests of the model: one step each, with expected values worked out from the manual, the smoke test of
WellFormed, and a witness for every statement of Certificates/Slice0 that has hypotheses.
-/

-- One test at a time: each evaluation by the kernel takes a thread with a stack of its own.
set_option Elab.async false

namespace Sys2Proof.Tests

open Sys2Proof.Machine

/-! ### States to test on -/

/-- The part after reset with every receiver synchronised. -/
def ready : State :=
  { State.reset with
    trunk := { State.reset.trunk with port := { State.reset.trunk.port with synchronised := true } }
    branches := mapTable (fun x => { x with port := { x.port with synchronised := true } }) State.reset.branches }

/-- A STATION entry for one address on B1, PASS, one retry, NOTIFY, rewritten to 21h. -/
def stationEntry : RouteEntry :=
  { valid := true, kind := .station, pattern := 0x11, mask := 0xFF, branches := 0b0010#4, mode := .pass
    rewrite := some 0x21, retries := 1, notify := true, hits := 0 }

/-- A GROUP entry for F1h on B0 and B2. -/
def groupEntry : RouteEntry :=
  { valid := true, kind := .group, pattern := 0xF1, mask := 0xFF, branches := 0b0101#4, mode := .pass, rewrite := none
    retries := 0, notify := false, hits := 0 }

/-- Entry 0 for station 11h, entry 1 for group F1h. -/
def routed : State := modifyEntry .a 1 (fun _ => groupEntry) (modifyEntry .a 0 (fun _ => stationEntry) ready)

/-- A DEFERRED record of B0. -/
def deferred : Record :=
  { Record.free with
    kind := some .deferred, state := .queued, tag := some 0x05, trunkAddress := some 0x31, lineAddress := 0x21
    branch := some 0, retriesLeft := 1 }

/-- A TRANSPARENT record of B0 with NOTIFY. -/
def transparent : Record :=
  { Record.free with
    kind := some .transparent, state := .queued, trunkAddress := some 0x11, lineAddress := 0x21, branch := some 0
    retriesLeft := 0, notify := true }

/-- A GROUP record that waits for B0 alone. -/
def group : Record :=
  { Record.free with kind := some .group, state := .delivering, lineAddress := 0xF1, pendingSet := 0b0001#4 }

/-- A buffer with a holder and a frame. -/
def holding (i : Fin Config.bufferCount) (h : Holder) (chars : List Byte) (s : State) : State :=
  { s with buffers := updateAt s.buffers i fun _ => { holder := h, chars := chars } }

/-- Record 3 is this one, with its request in buffer 7, first in the queue of B0. -/
def queued (r : Record) : State :=
  enqueueTail 0 3 (holding 7 (.request 3) (mkFrame 0x31 [0xAA#8]) (modifyRecord 3 (fun _ => r) ready))

/-- Record 3 is this one and on line on B0, which is in a given state with its answer buffer claimed; a TRANSPARENT
record that is not ABANDONED is the one the owed reply waits for. -/
def online (r : Record) (status : BranchStatus) (tx : TxState) (rx : RxState) : State :=
  setOwed (if r.kind = some .transparent ∧ r.abandoned = false then .pendingAnswer 3 else .nothing)
    (modifyBranch 0 (fun x => { x with
      status := status, onLine := some 3, port := { x.port with tx := tx, rx := rx } })
    (holding 8 (.branchAnswer 0) [0x21#8]
      (holding 7 (.request 3) (mkFrame 0x31 [0xAA#8]) (modifyRecord 3 (fun _ => { r with state := .onLine }) ready))))

/-- The frame that record 3 sends. -/
def frame3 : TxFrame := { address := 0x21, data := [0xAA#8] }

/-- The branch B0 awaits the answer of a record. -/
def awaiting (r : Record) : State :=
  modifyBranch 0 (fun x => { x with windowTimer := some { count := 0, limit := 100 } }) (online r .await .quiet .hunt)

/-- The branch B0 has heard the ADDRESS of an answer. -/
def receiving (r : Record) : State := online r .recv .quiet (.assemble { stored := true, got := [0x21#8] })

/-- The branch B0 sends the frame of a record. -/
def sending (r : Record) : State := online r .send (.send frame3 0) .hunt

/-- Slot 2 polls station 33h on B0 every 20 ms. -/
def poll (st : SlotState) (countdown : Nat) : Slot :=
  { state := st
    config := some { branch := 0, lineAddress := 0x33, template := [0x01#8, 0x02#8], period := 20 }
    countdown := countdown, overruns := 0, seq := 0xFF#8, age := none, misses := 0 }

/-- The part with slot 2 in a state. -/
def polled (st : SlotState) (countdown : Nat) : State := modifySlot 2 (fun _ => poll st countdown) ready

/-- An ENDED record 3 with a two-byte answer in buffer 9. -/
def collected : State :=
  let r := { deferred with
    state := .ended, attempts := 1, outcome := some .answered, hold := some { count := 0, limit := 5000 } }
  { holding 9 (.answer 3) (mkFrame 0x21 [0x0A#8, 0x0B#8]) (modifyRecord 3 (fun _ => r) ready) with completions := [3] }

/-- One command answers a next state of which a test holds. -/
def leads (i : Instr) (s : State) (p : State → Bool) : Bool :=
  match exec i s with
  | .next t => p t
  | .fault _ | .refused _ => false

/-- The DATA of the response that stands in the last-response memory. -/
def answerOf (s : State) : Option (List Byte) := (heldFrame .lastResponse s).map frameData

/-! ### Well-formed terms -/

theorem test_wellFormed_frame_60 : (Instr.trunkGoodFrame 0x11 (List.replicate 60 0)).wellFormed = true := by decide
theorem test_illFormed_frame_61 : (Instr.trunkGoodFrame 0x11 (List.replicate 61 0)).wellFormed = false := by decide
theorem test_illFormed_submit_58 : (Instr.submit 1 0x11 (List.replicate 58 0)).wellFormed = false := by decide
theorem test_illFormed_template_54 : (Instr.pollSet 1 0 0 0x11 20 (List.replicate 54 0)).wellFormed = false := by decide
theorem test_illFormed_answer_61 : (Instr.answerEnd 0 (.complete (List.replicate 61 0) 0)).wellFormed = false := by decide
theorem test_illFormed_count_60 : (Instr.answerEnd 0 (.malformed 60)).wellFormed = false := by decide
theorem test_wellFormed_count_61 : (Instr.answerEnd 0 (.malformed 61)).wellFormed = true := by decide
theorem test_illFormed_is_refused : exec (.answerEnd 0 (.malformed 60)) ready = .refused .notAFrame := by rfl
theorem test_no_words : decodeTableWord 8 0 = none := rfl

/-! ### Characters and frames -/

/-- R7: over 31h to 39h the register ends at 29B1h. -/
theorem test_crc_of_digits : crcOf [0x31, 0x32, 0x33, 0x34, 0x35, 0x36, 0x37, 0x38, 0x39] = 0x29B1#16 := by
  decide +kernel
/-- Section 10.1: the frame to station 01h with COUNT 0. -/
theorem test_frame_to_01h : mkFrame 0x01 [] = [0x01, 0x00, 0x2E, 0x3E] := by decide +kernel
/-- R1: the levels of an address character 81h. -/
theorem test_levels_of_81h : characterLevels 0x81 true =
    [false, true, false, false, false, false, false, false, true, true, true] := by decide

/-! ### One step of each command -/

theorem test_resetAsserted : leads .resetAsserted routed (fun t => t.inReset && t.bankA[0] == .empty) = true := by
  decide +kernel
theorem test_resetRelease : leads (.resetRelease 0b101 0b10) ready
    (fun t => t.params.mgmtAddress == 0xE5 && t.trunk.port.rate == 3 && !t.trunk.port.synchronised) = true := by
  decide +kernel
theorem test_receiverSynchronised :
    leads (.receiverSynchronised (.branch 2)) State.reset (fun t => receives t (.branch 2)) = true := by decide +kernel
theorem test_addressCharacter : leads (.addressCharacter .trunk 0x22) ready
    (fun t => freeCount t == 47 && heldFrame .trunkAssembly t == some [0x22]) = true := by decide +kernel
theorem test_addressCharacter_answers : leads (.addressCharacter (.branch 0) 0x21) (awaiting deferred)
    (fun t => t.branches[0].status == .recv && t.branches[0].windowTimer == none) = true := by decide +kernel
/-- R11, R87: COUNT 61 is malformed; the attempt is BAD_ANSWER and its record waits at the head of the queue. -/
theorem test_dataCharacter_count_61 : leads (.dataCharacter (.branch 0) 61) (receiving deferred)
    (fun t => t.branches[0].port.rx == .discard && t.branches[0].port.counters.truncated == 1 &&
      t.branches[0].status == .idle && t.branches[0].queue == [3] && t.branches[0].counters.badAnswers == 1) = true := by
  decide +kernel
theorem test_dataCharacter_count_60 : leads (.dataCharacter (.branch 0) 60) (receiving deferred)
    (fun t => t.branches[0].port.rx == .assemble { stored := true, got := [0x21, 60] }) = true := by decide +kernel
theorem test_framingError : leads (.framingError (.branch 0)) (receiving deferred)
    (fun t => t.branches[0].counters.badAnswers == 1 && t.branches[0].queue == [3] && flagSet .lineError t) = true := by
  decide +kernel
theorem test_lineBreak : leads (.lineBreak .trunk) ready
    (fun t => t.trunk.port.inBreak && t.flags == 0b1000#12) = true := by decide +kernel
theorem test_characterTimeout : leads (.characterTimeout (.branch 0)) (receiving { deferred with retriesLeft := 0 })
    (fun t => t.completions == [3] && t.records[3].outcome == some .badAnswer && flagSet .answerFail t) = true := by
  decide +kernel
theorem test_guardMet : leads (.guardMet (.branch 0)) (online deferred .lead (.lead frame3) .hunt)
    (fun t => t.driverEnabled (.branch 0) && t.branches[0].status == .send && t.branches[0].port.lineRest == 0 &&
      (List.range 11).map (t.txd (.branch 0)) ==
        [false, true, false, false, false, false, true, false, false, true, true]) = true := by decide +kernel
/-- Section 2.2: a PASS entry creates a TRANSPARENT record under the rewritten address, at the head of its queue. -/
theorem test_trunkGoodFrame_transparent : leads (.trunkGoodFrame 0x11 [0x55]) routed
    (fun t => t.records[0].lineAddress == 0x21 && t.branches[1].queue == [0] && t.trunk.owed == .pendingAnswer 0 &&
      t.bankA[0].hits == 1) = true := by decide +kernel
theorem test_trunkGoodFrame_unrouted : leads (.trunkGoodFrame 0x12 [0x55]) routed
    (fun t => t.trunk.counters.unrouted == 1 && t.flags == 1#12 && freeCount t == 48) = true := by decide +kernel
/-- Section 10.8: codes, straps, 4 branches, 48 buffers, 16 records, 24 entries, 8 slots. -/
theorem test_identify : leads (.identify 9) ready
    (fun t => answerOf t == some [0x01, 9, 0x00, 0x00, 0x4F, 0x04, 0x01, 0, 0, 4, 48, 16, 24, 8]) = true := by
  decide +kernel
theorem test_getParam : leads (.getParam 1 0x12) ready (fun t =>
    (answerOf t).map (fun d => d.take 3) == some [0x02, 1, 0x00]) = true := by decide +kernel
/-- Section 10.7: index 44h is the QUEUE_LIMIT of B2 and takes 1 to 8. -/
theorem test_setParam : leads (.setParam 1 0x44 7) ready (fun t => t.branches[2].queueLimit == 7 &&
    t.branches[1].queueLimit == 4 && answerOf t == some [0x03, 1, 0x00, 0, 0x44, 0, 7]) = true := by decide +kernel
theorem test_setParam_beyond : leads (.setParam 1 0x44 9) ready (fun t => t.branches[2].queueLimit == 4 &&
    answerOf t == some [0x03, 1, 0x12, 0]) = true := by decide +kernel
theorem test_readEntry : leads (.readEntry 1 0 0 1) routed (fun t => answerOf t ==
    some [0x08, 1, 0, 0, 0, 0, 1, 0x00, 0x11, 0xFF, 0x02, 0x00, 0x01, 0x21, 1, 1, 0, 0]) = true := by decide +kernel
theorem test_writeEntry : leads (.writeEntry 1 1 23 #v[0x01, 0xF0, 0xF0, 0x0F, 0, 0, 0x77, 0, 0]) ready
    (fun t => t.bankB[23] == { groupEntry with pattern := 0xF0, mask := 0xF0, branches := 0xF#4 }) = true := by
  decide +kernel
theorem test_clearEntry_active : leads (.clearEntry 1 0 0) routed
    (fun t => answerOf t == some [0x0A, 1, 0x13, 0] && t.bankA[0] == stationEntry) = true := by decide +kernel
theorem test_copyBank : leads (.copyBank 1) routed (fun t => t.bankB == routed.bankA) = true := by decide +kernel
/-- R44: the summary of the response already shows the new bank. -/
theorem test_swapBanks : leads (.swapBanks 1) ready (fun t => answerOf t == some [0x0C, 1, 0, 0x02, 0x01]) = true := by
  decide +kernel
theorem test_submit : leads (.submit 1 0x11 [0x77]) routed (fun t => answerOf t == some [0x10, 1, 0, 0, 0x01, 0x01] &&
    heldFrame (.request 0) t == some (mkFrame 0x11 [0x77]) && t.tagCounter == 2) = true := by decide +kernel
theorem test_submit_management_address : leads (.submit 1 0xE0 []) routed
    (fun t => answerOf t == some [0x10, 1, 0x12, 0] && t.trunk.counters.refused == 0) = true := by decide +kernel
/-- R68, R69: the whole answer is returned, so the record is freed. -/
theorem test_collect : leads (.collect 1 5 0) collected (fun t => t.records[3] == .free && t.completions == [] &&
    (answerOf t).map (fun d => d.drop 4) == some [0x00, 1, 2, 1, 0x0A, 0x0B]) = true := by decide +kernel
theorem test_collect_beyond : leads (.collect 1 5 3) collected
    (fun t => (answerOf t).map (fun d => d.drop 2) == some [0x12, 0x04] && t.completions == [3]) = true := by
  decide +kernel
theorem test_collectNext : leads (.collectNext 1 0) collected (fun t =>
    (answerOf t).map (fun d => d.drop 4) == some [5, 0x31, 0x00, 1, 2, 1, 0x0A, 0x0B]) = true := by decide +kernel
theorem test_cancel : leads (.cancel 1 5) (queued deferred) (fun t => answerOf t == some [0x13, 1, 0, 0, 0x01] &&
    t.branches[0].queue == [] && freeCount t == 47) = true := by decide +kernel
theorem test_listPending : leads (.listPending 1) (queued deferred)
    (fun t => answerOf t == some [0x14, 1, 0, 0, 1, 5, 0x01, 0]) = true := by decide +kernel
theorem test_pollSet : leads (.pollSet 1 2 0 0x33 20 [1, 2]) ready
    (fun t => t.slots[2] == { poll .stopped 0 with seq := 0 }) = true := by decide +kernel
theorem test_pollSet_period_9 : leads (.pollSet 1 2 0 0x33 9 []) ready
    (fun t => answerOf t == some [0x18, 1, 0x12, 0] && t.slots[2] == .unset) = true := by decide +kernel
theorem test_pollSetUnset : leads (.pollSetUnset 1 2) (polled .stopped 0) (fun t => t.slots[2] == .unset) = true := by
  decide +kernel
theorem test_pollStart : leads (.pollStart 1 2 0) (polled .stopped 0)
    (fun t => t.slots[2] == poll .due 20 && answerOf t == some [0x19, 1, 0, 0, 2, 3]) = true := by decide +kernel
theorem test_pollStop : leads (.pollStop 1 2) (polled .onLine 7)
    (fun t => t.slots[2] == poll .stopping 7 && answerOf t == some [0x1A, 1, 0, 0, 2, 5]) = true := by decide +kernel
theorem test_pollRead : leads (.pollRead 1 2) (polled .armed 7) (fun t => answerOf t ==
    some [0x1B, 1, 0, 0, 2, 2, 0, 0x33, 0, 20, 0, 7, 0, 0, 0, 0xFF, 0, 2, 1, 2]) = true := by decide +kernel
theorem test_readSnapshot : leads (.readSnapshot 1 2 0) (polled .armed 7)
    (fun t => answerOf t == some [0x1C, 1, 0x02, 0, 0xFF, 0]) = true := by decide +kernel
/-- R128: the command's buffer, which will hold the response, is the only one taken. -/
theorem test_readEvents : leads (.readEvents 1) { ready with flags := 0b101#12 }
    (fun t => answerOf t == some [0x20, 1, 0, 0, 0, 5, 0, 0, 47, 16, 0, 0]) = true := by decide +kernel
theorem test_clearEvents : leads (.clearEvents 1 4) { ready with flags := 0b101#12 }
    (fun t => t.flags == 1#12 && answerOf t == some [0x21, 1, 0, 0, 0, 1]) = true := by decide +kernel
theorem test_readCounters : leads (.readCounters 1 4 1) ready
    (fun t => (answerOf t).map (fun d => d.take 7) == some [0x22, 1, 0, 0, 4, 0, 1] &&
      t.trunk.port.counters.framesRxGood == 0) = true := by decide +kernel
theorem test_branchControlQuery : leads (.branchControlQuery 1 0) (queued deferred)
    (fun t => answerOf t == some [0x28, 1, 0, 0, 0, 1, 0, 0, 1, 1, 0xFF]) = true := by decide +kernel
/-- R63, R92: the queued record ends with BRANCH_OFF. -/
theorem test_branchControlDisable : leads (.branchControlDisable 1 0) (queued deferred)
    (fun t => t.branches[0].status == .off && t.records[3].outcome == some .branchOff && t.completions == [3] &&
      answerOf t == some [0x28, 1, 0, 0x14, 0, 0, 0, 0, 0, 0, 0xFF]) = true := by decide +kernel
theorem test_branchControlEnable :
    leads (.branchControlEnable 1 0) (modifyBranch 0 (fun x => { x with status := .fault, contentionRun := 3 }) ready)
      (fun t => t.branches[0].status == .idle && t.branches[0].contentionRun == 0) = true := by decide +kernel
theorem test_restart : leads (.restart 1) (queued deferred) (fun t => freeCount t == 47 && t.records[3] == .free &&
    answerOf t == some [0x2F, 1, 0, 0]) = true := by decide +kernel
theorem test_arbitration : leads (.arbitration 0) (queued deferred) (fun t => t.branches[0].status == .lead &&
    t.branches[0].port.tx == .lead frame3 && t.branches[0].lastServed == .queue && freeCount t == 46) = true := by
  decide +kernel
theorem test_branchSendComplete : leads (.branchSendComplete 0) (sending deferred)
    (fun t => t.branches[0].windowTimer == some { count := 0, limit := 100 } && t.records[3].attempts == 1) = true := by
  decide +kernel
theorem test_branchContention_third :
    leads (.branchContention 0) (modifyBranch 0 (fun x => { x with contentionRun := 2 }) (sending deferred))
      (fun t => t.branches[0].status == .fault && t.records[3].outcome == some .branchOff &&
        t.branches[0].quarantineTimer == none) = true := by decide +kernel
theorem test_responseWindowExpiry : leads (.responseWindowExpiry 0) (awaiting transparent)
    (fun t => heldFrame .owedReply t == some (mkFrame 0xE0 [0x7F, 0x11, 0x01]) && t.trunk.owed == .proxy &&
      t.records[3] == .free) = true := by decide +kernel
theorem test_answerEnd : leads (.answerEnd 0 (.complete [0x99] (crcOf (frameBody 0x21 [0x99])))) (receiving transparent)
    (fun t => heldFrame .owedReply t == some (mkFrame 0x11 [0x99]) && t.trunk.owed == .answer &&
      t.branches[0].counters.answers == 1) = true := by decide +kernel
theorem test_answerEnd_wrong_check : leads (.answerEnd 0 (.complete [] 0)) (receiving deferred)
    (fun t => t.branches[0].port.counters.checkErrors == 1 && t.records[3].retriesLeft == 0 &&
      t.records[3].state == .queued) = true := by decide +kernel
theorem test_quarantineExpiry : leads (.quarantineExpiry 0) (modifyBranch 0 (fun x => { x with
      status := .fault, contentionRun := 3, quarantineTimer := some { count := 0, limit := 100 } }) ready)
    (fun t => t.branches[0].status == .idle && t.branches[0].quarantineTimer == none) = true := by decide +kernel
theorem test_holdExpiry : leads (.holdExpiry 3) collected (fun t => t.records[3] == .free && freeCount t == 48 &&
    t.branches[0].counters.uncollected == 1 && t.flags == 0x800#12) = true := by decide +kernel
theorem test_slotExpiry : leads (.slotExpiry 2) (polled .armed 0) (fun t => t.slots[2] == poll .due 20) = true := by
  decide +kernel
theorem test_slotExpiry_overrun : leads (.slotExpiry 2) (polled .stopping 0)
    (fun t => t.slots[2] == { poll .stopping 20 with overruns := 1 } && t.flags == 0x200#12) = true := by decide +kernel

/-- The trunk sends a response: the command's buffer is the last-response memory. -/
def replying : State :=
  { holding 4 .lastResponse (mkFrame 0xE0 [0x0B, 1, 0, 0]) ready with
    trunk := { ready.trunk with
      owed := .response, pendingSetting := some (.mgmtAddress 0x44)
      port := { ready.trunk.port with tx := .send { address := 0xE0, data := [0x0B, 1, 0, 0] } 0 } }
    lastCode := some 0x0B, lastSeq := some 1 }

/-- R109, R114: the pending address comes into force at the end of its own response. -/
theorem test_trunkReplySent : leads .trunkReplySent replying (fun t => t.params.mgmtAddress == 0x44 &&
    t.trunk.owed == .nothing && t.lastCode == none && freeCount t == 48) = true := by decide +kernel
theorem test_trunkContention : leads .trunkContention replying (fun t => t.trunk.port.counters.contentions == 1 &&
    t.trunk.port.counters.framesTx == 0 && t.flags == 0x20#12 && t.trunk.counters.superseded == 0) = true := by
  decide +kernel
theorem test_startBit : leads (.startBit .trunk true) ready (fun t => t.trunk.port.charInProgress) = true := by
  decide +kernel
/-- R5: the port's own character holds line rest time at zero too. -/
theorem test_startBit_in_send : leads (.startBit (.branch 0) true)
    (modifyPort (.branch 0) (fun q => { q with lineRest := 704 }) (sending deferred))
    (fun t => t.branches[0].port.lineRest == 0 && t.branches[0].port.charInProgress) = true := by decide +kernel
theorem test_breakEnd : leads (.breakEnd .trunk) { ready with
      trunk := { ready.trunk with port := { ready.trunk.port with inBreak := true } } }
    (fun t => !t.trunk.port.inBreak && !t.trunk.port.synchronised) = true := by decide +kernel

/-! ### Witnesses: states and operands that meet the hypotheses of the statements of Certificates/Slice0

A witness that ends in `_k` belongs to the clause `k` of its statement. -/

/-- The pool with exactly `n` free buffers: the others hold answers of record 15. -/
def crowded (n : Nat) (s : State) : State :=
  { s with buffers := Vector.ofFn fun i => if i.val < n then .empty else { holder := .answer 15, chars := [0] } }

/-- The receiver of a port has an open frame. -/
def opened (p : Port) (stored : Bool) (got : List Byte) (s : State) : State :=
  setRx p (.assemble { stored := stored, got := got }) s

/-- The trunk has an open stored frame, with its buffer. -/
def storing1 (got : List Byte) : State := opened .trunk true got (holding 0 .trunkAssembly got ready)

/-- A branch in a given state, its port quiet. -/
def branchIn (b : Branch) (x : BranchStatus) (s : State) : State := modifyBranch b (fun y => { y with status := x }) s

/-- An entry of the active bank is another one. -/
def entered (j : Fin Config.entryCount) (e : RouteEntry) : State := modifyEntry .a j (fun _ => e) ready

/-- The first `n` records are in use, as live DEFERRED records of B3. -/
def tabled (n : Nat) (s : State) : State :=
  { s with records := Vector.ofFn fun i =>
      if i.val < n then { deferred with tag := some (BitVec.ofNat 8 (i.val + 1)), branch := some 3 } else .free }

/-- A transparent record on line whose trunk exchange is over. -/
def abandoned : Record := { transparent with abandoned := true }

/-- A CYCLIC record of slot 2. -/
def cyclic : Record :=
  { Record.free with kind := some .cyclic, state := .onLine, branch := some 0, slot := some 2, lineAddress := 0x33 }

theorem witness_StepRunsTheFrontCommand :
    { ready with pending := [.resetAsserted, .swapBanks 1] }.pending = [.resetAsserted, .swapBanks 1] := rfl

theorem witness_OnlyIllFormedTermsAreRefused :
    (Instr.answerEnd 0 (.complete (List.replicate 60 0) 0)).wellFormed = true ∧
      (Instr.answerEnd 0 (.complete (List.replicate 61 0) 0)).wellFormed = false := by decide

theorem witness_NothingHappensInReset : { ready with inReset := true }.inReset = true ∧
    (Instr.trunkGoodFrame 0xFF (List.replicate 60 0)).wellFormed = true ∧
    Instr.trunkGoodFrame 0xFF (List.replicate 60 0) ≠ .resetAsserted ∧
    ∀ a r, Instr.trunkGoodFrame 0xFF (List.replicate 60 0) ≠ .resetRelease a r :=
  ⟨rfl, by decide, by decide, fun _ _ h => Instr.noConfusion h⟩

theorem witness_ReceiverRowsActOnTheirPort_1 : hears State.reset (.branch 3) = true ∧
    (State.reset.port (.branch 3)).inBreak = false ∧ (State.reset.port (.branch 3)).synchronised = false := by
  decide +kernel
theorem witness_ReceiverRowsActOnTheirPort_2 :
    receives ready .trunk = true ∧ receives (sending deferred) (.branch 0) = true := by decide +kernel
theorem witness_ReceiverRowsActOnTheirPort_4 : let s := modifyPort .trunk (fun q => { q with inBreak := true }) ready
    hears s .trunk = true ∧ (s.port .trunk).inBreak = true := by decide +kernel

theorem witness_TrunkAddressCharacterClaims_1 : let s := crowded 1 ready
    receives s .trunk = true ∧ s.trunk.port.tx.sending = false ∧ s.trunk.port.rx = .hunt ∧ freeCount s = 1 := by
  decide +kernel
theorem witness_TrunkAddressCharacterClaims_2 : let s := setRx .trunk .discard (crowded 0 ready)
    receives s .trunk = true ∧ s.trunk.port.tx.sending = false ∧ s.trunk.port.rx = .discard ∧ freeCount s = 0 := by
  decide +kernel
theorem witness_TrunkAddressCharacterClaims_3 : let s := storing1 [0x11]
    receives s .trunk = true ∧ s.trunk.port.tx.sending = false ∧
      s.trunk.port.rx = .assemble { stored := true, got := [0x11] } := by decide +kernel
theorem witness_TrunkAddressCharacterClaims_4 : let s := opened .trunk false [0x11] (crowded 1 ready)
    receives s .trunk = true ∧ s.trunk.port.tx.sending = false ∧
      s.trunk.port.rx = .assemble { stored := false, got := [0x11] } ∧ freeCount s = 1 := by decide +kernel
theorem witness_TrunkAddressCharacterClaims_5 : let s := opened .trunk false [0x11] (crowded 0 ready)
    receives s .trunk = true ∧ s.trunk.port.tx.sending = false ∧
      s.trunk.port.rx = .assemble { stored := false, got := [0x11] } ∧ freeCount s = 0 := by decide +kernel

theorem witness_UnsolicitedAddressCharacter_1 : receives ready (.branch 0) = true ∧
    ready.branches[0].port.tx.sending = false ∧ ready.branches[0].status = .idle := by decide +kernel
theorem witness_UnsolicitedAddressCharacter_1_lead : let s := online deferred .lead (.lead frame3) .hunt
    receives s (.branch 0) = true ∧ s.branches[0].port.tx.sending = false ∧ s.branches[0].status = .lead := by
  decide +kernel
theorem witness_UnsolicitedAddressCharacter_2 : let s := branchIn 3 .fault ready
    receives s (.branch 3) = true ∧ s.branches[3].port.tx.sending = false ∧ s.branches[3].status = .fault := by
  decide +kernel

theorem witness_AnswerBeginsOnABranch : receives (awaiting deferred) (.branch 0) = true ∧
    (awaiting deferred).branches[0].port.tx.sending = false ∧ (awaiting deferred).branches[0].status = .await := by
  decide +kernel
theorem witness_AnswerBeginsOnABranch_again : receives (receiving deferred) (.branch 0) = true ∧
    (receiving deferred).branches[0].port.tx.sending = false ∧ (receiving deferred).branches[0].status = .recv := by
  decide +kernel

theorem witness_DataCharacterReceived_1 : let s := storing1 [0x11]
    receives s .trunk = true ∧ (s.port .trunk).tx.sending = false ∧
      (s.port .trunk).rx = .assemble { stored := true, got := [0x11] } ∧ (60#8).toNat ≤ 60 ∧
      ¬ (2 ≤ ([0x11#8] ++ [60#8]).length ∧ ([0x11#8] ++ [60#8]).length = 4 + frameCount ([0x11#8] ++ [60#8])) := by
  decide +kernel
theorem witness_DataCharacterReceived_2 : let s := setRx (.branch 1) .discard ready
    receives s (.branch 1) = true ∧ (s.port (.branch 1)).tx.sending = false ∧ (s.port (.branch 1)).rx = .discard := by
  decide +kernel
theorem witness_DataCharacterReceived_3 : let s := awaiting deferred
    receives s (.branch 0) = true ∧ (s.port (.branch 0)).tx.sending = false ∧ (s.port (.branch 0)).rx = .hunt ∧
      s.branches[0].status = .await := by decide +kernel

theorem witness_MalformedCountDiscardsTheFrame : let s := storing1 [0x11]
    receives s .trunk = true ∧ (s.port .trunk).tx.sending = false ∧
      (s.port .trunk).rx = .assemble { stored := true, got := [0x11] } ∧ 60 < (61#8).toNat := by decide +kernel
theorem witness_MalformedCountDiscardsTheFrame_followed : let s := opened (.branch 2) false [0x11] ready
    receives s (.branch 2) = true ∧ (s.port (.branch 2)).tx.sending = false ∧
      (s.port (.branch 2)).rx = .assemble { stored := false, got := [0x11] } ∧ 60 < (255#8).toNat := by
  decide +kernel

/-- Section 10.1: the frame 01h 00h 2Eh 3Eh lacks its last character. -/
theorem witness_FrameCompletesWithoutAnAction_1 : let s := storing1 [0x01, 0x00, 0x2E]
    receives s .trunk = true ∧ (s.port .trunk).tx.sending = false ∧
      (s.port .trunk).rx = .assemble { stored := true, got := [0x01, 0x00, 0x2E] } ∧
      frameComplete ([0x01, 0x00, 0x2E] ++ [0x3F#8]) = true ∧
      checkMatches ([0x01, 0x00, 0x2E] ++ [0x3F#8]) = false := by decide +kernel
theorem witness_FrameCompletesWithoutAnAction_2 : let s := opened (.branch 0) false [0x01, 0x00, 0x2E] ready
    receives s (.branch 0) = true ∧ (s.port (.branch 0)).tx.sending = false ∧
      (s.port (.branch 0)).rx = .assemble { stored := false, got := [0x01, 0x00, 0x2E] } ∧
      frameComplete ([0x01, 0x00, 0x2E] ++ [0x3E#8]) = true ∧
      checkMatches ([0x01, 0x00, 0x2E] ++ [0x3E#8]) = true := by decide +kernel

theorem witness_LineErrorsCutTheOpenFrame_1_2_4 : let s := storing1 [0x11]
    storesAnswer .trunk s = false ∧ receives s .trunk = true ∧ hears s .trunk = true ∧
      (s.port .trunk).tx.sending = false ∧ (s.port .trunk).charInProgress = false ∧ (s.port .trunk).rx ≠ .hunt ∧
      (s.port .trunk).inBreak = false := by decide +kernel
theorem witness_LineErrorsCutTheOpenFrame_branch : let s := opened (.branch 1) false [0x11] ready
    storesAnswer (.branch 1) s = false ∧ receives s (.branch 1) = true ∧ hears s (.branch 1) = true ∧
      (s.port (.branch 1)).tx.sending = false ∧ (s.port (.branch 1)).charInProgress = false ∧
      (s.port (.branch 1)).rx ≠ .hunt ∧ (s.port (.branch 1)).inBreak = false := by decide +kernel
theorem witness_LineErrorsCutTheOpenFrame_3 : storesAnswer (.branch 0) ready = false ∧
    (ready.port (.branch 0)).rx = .hunt := by decide +kernel
theorem witness_LineErrorsCutTheOpenFrame_5 : let s := modifyPort .trunk (fun q => { q with inBreak := true }) ready
    storesAnswer .trunk s = false ∧ (s.port .trunk).inBreak = true := by decide +kernel

theorem witness_GuardMetEntersSend_1 : let s := online deferred .lead (.lead frame3) .discard
    (s.port (.branch 0)).tx = .lead frame3 ∧ receives s (.branch 0) = true ∧
      (s.port (.branch 0)).charInProgress = false := by decide +kernel
theorem witness_GuardMetEntersSend_1_trunk : let s := enterLead .trunk frame3 ready
    (s.port .trunk).tx = .lead frame3 ∧ receives s .trunk = true ∧ (s.port .trunk).charInProgress = false := by
  decide +kernel
theorem witness_GuardMetEntersSend_2 :
    let s := modifyPort .trunk (fun q => { q with charInProgress := true }) (enterLead .trunk frame3 ready)
    (s.port .trunk).tx = .lead frame3 ∧ (s.port .trunk).charInProgress = true := by decide +kernel

theorem witness_EchoIsCompared_first : let s := sending deferred
    hears s (.branch 0) = true ∧ (s.port (.branch 0)).tx = .send frame3 0 ∧
      (mkFrame 0x21 [0xAA])[0]? = some 0x21#8 ∧ (mkFrame 0x21 [0xAA])[0]? ≠ some 0x22#8 ∧
      0 + 1 < (mkFrame 0x21 [0xAA]).length ∧ (s.port (.branch 0)).inBreak = false := by decide +kernel
theorem witness_EchoIsCompared_last :
    let s := modifyPort .trunk (fun q => { q with tx := .send { address := 1, data := [] } 3 }) ready
    hears s .trunk = true ∧ (s.port .trunk).tx = .send { address := 1, data := [] } 3 ∧
      (mkFrame 1 [])[3]? = some 0x3E#8 ∧ 3 + 1 = (mkFrame 1 []).length := by decide +kernel

theorem witness_CharactersMakeTheGoodFrame : (List.replicate 60 0x55#8).length ≤ 60 ∧ receives ready .trunk = true ∧
    ready.trunk.port.tx.sending = false ∧
    opensWith .trunk (mkFrame 0x11 (List.replicate 60 0x55)) ready = false := by decide +kernel
theorem witness_CharactersMakeTheGoodFrame_other_open : let s := storing1 [0x12]
    receives s .trunk = true ∧ s.trunk.port.tx.sending = false ∧ opensWith .trunk (mkFrame 0x11 []) s = false := by
  decide +kernel

theorem witness_AnswerEndIsItsCharacters : let s := receiving transparent
    receives s (.branch 0) = true ∧ s.branches[0].port.tx.sending = false ∧ s.branches[0].status = .recv ∧
      s.branches[0].port.rx = .assemble { stored := true, got := [0x21] } ∧ 60 < (61#8).toNat ∧
      s.branches[0].port.charInProgress = false := by decide +kernel

theorem witness_TrunkReplyEnds : replying.inReset = false ∧ replying.trunk.port.tx.sending = true := by decide +kernel

theorem witness_SupersedeByAFollowedFrame : let s := crowded 0 (queued transparent)
    receives s .trunk = true ∧ s.trunk.port.tx.sending = false ∧ s.trunk.port.rx = .hunt ∧ freeCount s = 0 ∧
      liveTransparent s = some 3 ∧ s.records[3].state = .queued := by decide +kernel
theorem witness_SupersedeByAFollowedFrame_on_line : let s := crowded 0 (awaiting transparent)
    receives s .trunk = true ∧ s.trunk.port.tx.sending = false ∧ s.trunk.port.rx = .hunt ∧ freeCount s = 0 ∧
      liveTransparent s = some 3 ∧ s.records[3].state ≠ .queued := by decide +kernel
theorem witness_SupersedeByAFollowedFrame_pending :
    let s := crowded 0 { ready with
      trunk := { ready.trunk with pendingSetting := some (.trunkRate 6), port := { ready.trunk.port with rx := .discard } } }
    receives s .trunk = true ∧ s.trunk.port.tx.sending = false ∧ s.trunk.port.rx = .discard ∧ freeCount s = 0 ∧
      s.trunk.pendingSetting = some (.trunkRate 6) := by decide +kernel

theorem witness_VoidFrameDiscarded : trunkReady (crowded 1 routed) = true ∧
    isStationAddress (settledAddress (crowded 1 routed)) = true := by decide +kernel

theorem witness_UnroutedFrameDiscarded_miss : trunkReady routed = true ∧
    isStationAddress (settledAddress routed) = true ∧ isStationAddress 0xEF = true ∧ 0xEF#8 ≠ settledAddress routed ∧
    lookup routed 0xEF = none := by decide +kernel
theorem witness_UnroutedFrameDiscarded_blocked : let s := entered 23 { groupEntry with mode := .block }
    trunkReady s = true ∧ isStationAddress (settledAddress s) = true ∧ isGroupAddress 0xF1 = true ∧
      0xF1#8 ≠ settledAddress s ∧ lookup s 0xF1 = some 23 ∧ (activeEntry s 23).mode ≠ .pass := by decide +kernel
theorem witness_UnroutedFrameDiscarded_void : let s := entered 0 { stationEntry with rewrite := some 0 }
    trunkReady s = true ∧ isStationAddress (settledAddress s) = true ∧ isStationAddress 0x11 = true ∧
      0x11#8 ≠ settledAddress s ∧ lookup s 0x11 = some 0 ∧ outgoing (activeEntry s 0) 0x11 = 0x00#8 := by
  decide +kernel

theorem witness_TransparentFrameAccepted : let s := tabled 15 (crowded 1 routed)
    trunkReady s = true ∧ isStationAddress (settledAddress s) = true ∧ isStationAddress 0x11 = true ∧
      0x11#8 ≠ settledAddress s ∧ lookup s 0x11 = some 0 ∧ (activeEntry s 0).mode = .pass ∧
      outgoing (activeEntry s 0) 0x11 ≠ 0x00#8 ∧ inService s (stationBranch (activeEntry s 0)) = true ∧
      lowestFreeRecord (superseded s) = some 15 := by decide +kernel

theorem witness_TransparentFrameRefused_off : let s := branchIn 1 .off routed
    trunkReady s = true ∧ isStationAddress (settledAddress s) = true ∧ isStationAddress 0x11 = true ∧
      0x11#8 ≠ settledAddress s ∧ lookup s 0x11 = some 0 ∧ (activeEntry s 0).mode = .pass ∧
      outgoing (activeEntry s 0) 0x11 ≠ 0x00#8 ∧ inService s (stationBranch (activeEntry s 0)) = false ∧
      (activeEntry s 0).notify = true ∧ storing .trunk s = false ∧ heldFrame .trunkAssembly s = none ∧
      OwedAgrees s := by unfold OwedAgrees; decide +kernel
theorem witness_TransparentFrameRefused_full : let s := tabled 16 (entered 0 { stationEntry with notify := false })
    trunkReady s = true ∧ isStationAddress (settledAddress s) = true ∧ isStationAddress 0x11 = true ∧
      0x11#8 ≠ settledAddress s ∧ lookup s 0x11 = some 0 ∧ (activeEntry s 0).mode = .pass ∧
      outgoing (activeEntry s 0) 0x11 ≠ 0x00#8 ∧ inService s (stationBranch (activeEntry s 0)) = true ∧
      freeRecords (superseded s) = 0 ∧ (activeEntry s 0).notify = false ∧ OwedAgrees s := by
  unfold OwedAgrees; decide +kernel

theorem witness_GroupFrameDelivered_1 : trunkReady routed = true ∧ isStationAddress (settledAddress routed) = true ∧
    isGroupAddress 0xF1 = true ∧ lookup routed 0xF1 = some 1 ∧ (activeEntry routed 1).mode = .pass ∧
    outgoing (activeEntry routed 1) 0xF1 = 0xF1#8 ∧ (activeEntry routed 1).branches = 0b0101#4 ∧
    (inSet 0b0101#4 2 && inService routed 2) = true ∧ lowestFreeRecord (superseded routed) = some 0 := by decide +kernel
theorem witness_GroupFrameDelivered_2 : let s := branchIn 0 .off (branchIn 2 .fault routed)
    trunkReady s = true ∧ isStationAddress (settledAddress s) = true ∧ lookup s 0xF1 = some 1 ∧
      (∀ b : Branch, (inSet 0b0101#4 b && inService s b) = false) := by decide +kernel
theorem witness_GroupFrameDelivered_3 : let s := tabled 16 ready
    trunkReady s = true ∧ isStationAddress (settledAddress s) = true ∧ (inSet 0xF#4 3 && inService s 3) = true ∧
      freeRecords (superseded s) = 0 := by decide +kernel

theorem witness_LookupMatchesAndRewrites : lookup routed 0x11 = some 0 ∧ lookup routed 0xEF = none ∧
    entryMatches groupEntry 0xF1 = true ∧ entryMatches { groupEntry with mask := 0, kind := .station } 0xF1 = false ∧
    stationEntry.rewrite = some 0x21 ∧ groupEntry.rewrite = none := by decide +kernel

/-- The answer to SWAP_BANKS with sequence 1 stands in the last-response memory. -/
def answered : State :=
  { holding 4 .lastResponse (mkFrame 0xE0 [0x0C, 1, 0, 0, 1]) ready with lastCode := some 0x0C, lastSeq := some 1 }

theorem witness_CommandReplayed : (List.replicate 58 0#8).length + 2 ≤ 60 ∧ trunkReady answered = true ∧
    (superseded answered).lastCode = some 0x0C ∧ (superseded answered).lastSeq = some 1 ∧ 1#8 ≠ 0x00#8 ∧
    heldFrame .lastResponse (superseded answered) = some (mkFrame 0xE0 [0x0C, 1, 0, 0, 1]) := by decide +kernel

theorem witness_CommandRowsAreTheirFrames : receives State.reset .trunk = false ∧
    replying.trunk.port.tx.sending = true ∧ (List.replicate 60 0#8).length ≤ 60 := by decide +kernel

theorem witness_EnvelopeIsChecked_1 : [0x01#8].length < 2 ∧ trunkReady ready = true := by decide +kernel
theorem witness_EnvelopeIsChecked_2 : (List.replicate 58 0#8).length + 2 ≤ 60 ∧ commandReady 0x00 0 ready = true ∧
    ∀ c : CommandCode, commandByte c ≠ 0x00#8 :=
  ⟨by decide, by decide +kernel, fun c => by cases c <;> decide⟩
theorem witness_EnvelopeIsChecked_3 : commandReady 0x01 0 (crowded 1 ready) = true ∧
    commandByte .identify = 0x01#8 ∧ allowedLength .identify 1 = false ∧ allowedLength .submit 0 = false ∧
    allowedLength .pollSet 4 = false := by decide +kernel

/-- Every command row is executed in a part that has just synchronised, with any sequence number but the last. -/
theorem witness_commands_ready : ∀ c : CommandCode, commandReady (commandByte c) 0xFF (crowded 1 ready) = true :=
  fun c => by cases c <;> decide +kernel
/-- R114: a repeat behind an address change is executed, since the settlement empties the last-response memory. -/
theorem witness_commands_ready_settled :
    let s := modifyTrunk (fun t => { t with pendingSetting := some (.mgmtAddress 0x44) }) answered
    commandReady 0x0C 1 s = true ∧ isReplay s 0x0C 1 = true := by decide +kernel

theorem witness_GetParamReads : paramOf 0x05 = none ∧ paramOf 0x55 = some (.quarantine 3) ∧ paramOf 0x56 = none := by
  decide

theorem witness_SetParamWrites : paramInRange .mgmtAddress 0xF0 = false ∧ paramInRange .mgmtAddress 0xEF = true ∧
    paramInRange (.rate .trunk) 6 = true ∧ paramInRange (.queueLimit 0) 1 = true ∧
    deferredCount (tabled 16 ready) 3 = 16 ∧ BranchesAgree ready := by
  unfold BranchesAgree; decide +kernel
theorem witness_SetParamWrites_branch_rate : let s := opened (.branch 3) false [0x11] (branchIn 3 .fault ready)
    commandReady 0x03 1 s = true ∧ paramOf 0x50 = some (.rate (.branch 3)) ∧
      paramInRange (.rate (.branch 3)) 6 = true ∧ s.branches[3].status.onLine = false ∧
      s.branches[3].port.rx = .assemble { stored := false, got := [0x11] } ∧
      (awaiting deferred).branches[0].status.onLine = true := by decide +kernel

theorem witness_ReadEntryReads : ¬ (2 ≤ (1#8).toNat ∨ 24 ≤ (23#8).toNat ∨ 2 ≤ (1#8).toNat) ∧ bankCode .b = 1#8 ∧
    (2 ≤ (2#8).toNat ∨ 24 ≤ (24#8).toNat) := by decide

/-- What checks 3 to 6 of WRITE_ENTRY ask of the nine bytes of an entry. -/
abbrev entryPasses (e : Vector Byte 9) : Prop :=
  e[0].toNat ≤ 1 ∧ e[4].toNat ≤ 2 ∧ ¬ (e[4] = 0x01#8 ∧ e[0] = 0x01#8) ∧ e[5].toNat ≤ 1 ∧
    (if e[0] = 0x00#8 then e[3] = 0x01#8 ∨ e[3] = 0x02#8 ∨ e[3] = 0x04#8 ∨ e[3] = 0x08#8
      else 1 ≤ e[3].toNat ∧ e[3].toNat ≤ 15) ∧
    e[7].toNat ≤ (if e[0] = 0x00#8 then 3 else 0) ∧
    (e[8] = 0x00#8 ∨ (e[8] = 0x01#8 ∧ e[0] = 0x00#8 ∧ e[4] = 0x00#8))

theorem witness_WriteEntryWrites : bankCode .b ≠ bankCode ready.activeBank ∧
    entryPasses #v[0x01, 0xF0, 0xF0, 0x0F, 0x02, 0, 0x77, 0, 0] ∧
    entryPasses #v[0x00, 0x10, 0xF0, 0x08, 0, 1, 0x77, 3, 1] ∧
    ¬ entryPasses #v[0x01, 0xF0, 0xF0, 0x10, 0, 0, 0, 0, 0] := by decide +kernel

theorem witness_ClearEntryClears : bankCode .b ≠ bankCode ready.activeBank ∧ (23#8).toNat < 24 := by decide +kernel

theorem witness_SubmitChecksAndCreates : let s := tabled 14 (crowded 4 routed)
    (List.replicate 57 0#8).length ≤ 57 ∧ commandReady 0x10 1 s = true ∧ isStationAddress 0x11 = true ∧
      0x11#8 ≠ settledAddress s ∧ lookup s 0x11 = some 0 ∧ (activeEntry s 0).mode ≠ .block ∧
      outgoing (activeEntry s 0) 0x11 ≠ 0x00#8 ∧ inService s 1 = true ∧
      ¬ s.branches[1].queueLimit ≤ deferredCount s 1 ∧ ¬ freeRecords (superseded s) < 2 ∧
      ¬ freeCount (superseded s) - 1 ≤ s.params.trunkReserve := by decide +kernel
theorem witness_SubmitChecksAndCreates_refused : commandReady 0x10 1 (tabled 15 (crowded 3 routed)) = true ∧
    freeRecords (superseded (tabled 15 (crowded 3 routed))) < 2 ∧
    freeCount (superseded (crowded 3 routed)) - 1 ≤ (crowded 3 routed).params.trunkReserve ∧
    lookup routed 0x12 = none := by decide +kernel

theorem witness_IssuedTagIsUnheld : (tabled 16 { ready with tagCounter := 0xFF }).tagCounter ≠ 0x00#8 ∧
    tagHeld (tabled 16 { ready with tagCounter := 1 }) 1 = true := by decide +kernel

/-- An ENDED record 3 with an answer of a given number of bytes. -/
def collectedOf (n : Nat) : State :=
  let r := { deferred with
    state := .ended, attempts := 1, outcome := some .answered, hold := some { count := 0, limit := 5000 } }
  { holding 9 (.answer 3) (mkFrame 0x21 (List.replicate n 0x0A)) (modifyRecord 3 (fun _ => r) ready) with
    completions := [3] }

theorem witness_CollectReadsAndFrees_tag : commandReady 0x11 1 ready = true ∧ recordOfTag ready 5 = none ∧
    recordOfTag (queued deferred) 5 = some 3 ∧ (queued deferred).records[3].state ≠ .ended := by decide +kernel
theorem witness_CollectReadsAndFrees_ended : let s := collectedOf 60
    commandReady 0x11 1 s = true ∧ recordOfTag s 5 = some 3 ∧ s.records[3].state = .ended ∧
      (answerData s 3).length < (61#8).toNat ∧ (12#8).toNat + (((answerData s 3).drop 12).take 48).length = 60 ∧
      (11#8).toNat + (((answerData s 3).drop 11).take 48).length ≠ 60 := by decide +kernel
theorem witness_CollectReadsAndFrees_next :
    let s := modifyRecord 4 (fun _ => { transparent with state := .onLine }) (collectedOf 48)
    commandReady 0x12 1 s = true ∧ liveTransparent s = some 4 ∧ (superseded s).completions = [3] ∧
      (answerData (superseded s) 3).length ≤ 48 ∧ ¬ (answerData (superseded (collectedOf 49)) 3).length ≤ 48 ∧
      (superseded ready).completions = [] := by decide +kernel

theorem witness_CancelActsByState : commandReady 0x13 1 (queued deferred) = true ∧
    recordOfTag (queued deferred) 5 = some 3 ∧ (queued deferred).records[3].state = .queued ∧
    recordOfTag (awaiting deferred) 5 = some 3 ∧ (awaiting deferred).records[3].state = .onLine ∧
    recordOfTag collected 5 = some 3 ∧ collected.records[3].state = .ended ∧ recordOfTag ready 5 = none := by
  decide +kernel

theorem witness_PollSetConfigures : (List.replicate 53 0#8).length ≤ 53 ∧
    (polled .stopped 0).slots[2].state.running = false ∧ (polled .stopping 1).slots[2].state.running = true ∧
    isStationAddress 0xEF = true ∧ ¬ ((10#16).toNat < 10 ∨ 60000 < (60000#16).toNat) ∧
    ¬ 16 < (List.replicate 16 0#8).length := by decide +kernel

theorem witness_PollStartArms : let s := polled .stopped 0
    commandReady 0x19 1 s = true ∧ s.slots[2].state = .stopped ∧ s.slots[2].config.isSome = true ∧
      ¬ 20 < (20#16).toNat ∧ 20 < (21#16).toNat ∧ inService s 0 = true ∧
      inService (branchIn 0 .off s) 0 = false := by decide +kernel

theorem witness_PollStopStops : (polled .armed 1).slots[2].state = .armed ∧ (polled .due 1).slots[2].state = .due ∧
    (polled .onLine 1).slots[2].state = .onLine ∧ commandReady 0x1A 1 (polled .due 1) = true := by decide +kernel

theorem witness_SlotReadsShowTheSlot : let s := holding 9 (.snapshot 2) (mkFrame 0x33 [1, 2]) (polled .armed 1)
    commandReady 0x1B 1 s = true ∧ commandReady 0x1C 1 s = true ∧ s.slots[2].config.isSome = true ∧
      heldFrame (.snapshot 2) s = some (mkFrame 0x33 [1, 2]) ∧
      ¬ (frameData (mkFrame 0x33 [1, 2])).length < (2#8).toNat ∧
      (frameData (mkFrame 0x33 [1, 2])).length < (3#8).toNat := by decide +kernel

theorem witness_EventsAreReadAndCleared : ¬ 4096 ≤ (0x0FFF#16).toNat ∧ 4096 ≤ (0x1000#16).toNat := by decide

theorem witness_CountersAreReadAndCleared : portOf 4 = some .trunk ∧ portOf 3 = some (.branch 3) ∧
    portOf 5 = none := by decide

/-- A deferred record waits in the queue of B0: the whole table agrees. -/
theorem tableAgrees_queued : TableAgrees (queued deferred) := by
  unfold TableAgrees QueuesAgree CompletionsAgree SlotsAgree
  exact ⟨by decide +kernel, by decide +kernel, by decide +kernel, by decide +kernel,
    buffersAgree_of_all (by decide +kernel) (by decide +kernel)⟩

theorem witness_BranchControlActs_settled : commandReady 0x28 1 (queued deferred) = true ∧
    BranchesAgree (queued deferred) ∧ inService (queued deferred) 0 = true ∧ OwedAgrees (queued deferred) ∧
    TableAgrees (queued deferred) := by
  refine ⟨by decide +kernel, ?_, by decide +kernel, ?_, tableAgrees_queued⟩
  · unfold BranchesAgree; decide +kernel
  · unfold OwedAgrees; decide +kernel
theorem witness_BranchControlActs : commandReady 0x28 1 (awaiting transparent) = true ∧
    BranchesAgree (awaiting transparent) ∧ inService (awaiting transparent) 0 = true ∧
    BranchesAgree (branchIn 0 .fault ready) ∧ inService (branchIn 0 .fault ready) 0 = false := by
  unfold BranchesAgree; decide +kernel

theorem witness_RestartClearsTheTraffic : let s := awaiting transparent
    commandReady 0x2F 1 s = true ∧ storing .trunk s = false ∧ heldFrame .trunkAssembly s = none := by decide +kernel

theorem witness_ArbitrationGrants_1 : let s := crowded 3 (queued transparent)
    s.inReset = false ∧ s.branches[0].status = .idle ∧ transparentCandidate 0 s = some 3 ∧ gateOpen s = true := by
  decide +kernel
theorem witness_ArbitrationGrants_2 : let s := queued deferred
    s.inReset = false ∧ s.branches[0].status = .idle ∧ transparentReady 0 s = false ∧
      s.branches[0].lastServed = .poll ∧ queueReady 0 s = true ∧ queueCandidate 0 s = some 3 := by decide +kernel
theorem witness_ArbitrationGrants_2_group : let s := crowded 2 (queued group)
    s.inReset = false ∧ s.branches[0].status = .idle ∧ transparentReady 0 s = false ∧
      s.branches[0].lastServed = .poll ∧ queueReady 0 s = true ∧ queueCandidate 0 s = some 3 ∧
      s.records[3].kind = some .group := by decide +kernel
theorem witness_ArbitrationGrants_3 : let s := tabled 14 (polled .due 1)
    s.inReset = false ∧ s.branches[0].status = .idle ∧ transparentReady 0 s = false ∧ queueReady 0 s = false ∧
      pollReady 0 s = true := by decide +kernel

theorem witness_ArbitrationStalls : (queued deferred).inReset = false ∧
    (awaiting deferred).branches[0].status ≠ .idle ∧ ready.branches[0].status = .idle ∧ hasWork ready 0 = false := by
  decide +kernel
theorem witness_ArbitrationStalls_3 : let s := crowded 2 (queued deferred)
    s.inReset = false ∧ s.branches[0].status = .idle ∧ hasWork s 0 = true ∧ transparentReady 0 s = false ∧
      queueReady 0 s = false ∧ pollReady 0 s = false := by decide +kernel

theorem witness_BranchSendCompletes_1 : let s := sending deferred
    s.inReset = false ∧ s.branches[0].port.tx.sending = true ∧ s.branches[0].onLine = some 3 ∧
      isStationKind s.records[3] = true := by decide +kernel
theorem witness_BranchSendCompletes_2 :
    let s : State := modifyRecord 3 (fun r => { r with pendingSet := 0#4, sendingSet := 1#4 }) (sending group)
    s.inReset = false ∧ s.branches[0].port.tx.sending = true ∧ s.branches[0].onLine = some 3 ∧
      s.records[3].kind = some .group := by decide +kernel

theorem witness_BranchContentionEnds_1 :
    let s := modifyBranch 0 (fun x => { x with contentionRun := 1 }) (sending transparent)
    s.inReset = false ∧ s.branches[0].port.tx.sending = true ∧ s.branches[0].onLine = some 3 ∧ OwedAgrees s ∧
      s.branches[0].contentionRun < 2 ∧ isStationKind s.records[3] = true := by unfold OwedAgrees; decide +kernel
theorem witness_BranchContentionEnds_1_group :
    let s := modifyRecord 3 (fun r => { r with pendingSet := 0b1000#4, sendingSet := 1#4 }) (sending group)
    s.inReset = false ∧ s.branches[0].port.tx.sending = true ∧ s.branches[0].onLine = some 3 ∧ OwedAgrees s ∧
      s.branches[0].contentionRun < 2 ∧ s.records[3].kind = some .group ∧
      setWithout s.records[3].pendingSet 0 ≠ 0 := by unfold OwedAgrees; decide +kernel
theorem witness_BranchContentionEnds_1_emptied :
    let s := modifyRecord 3 (fun r => { r with pendingSet := 0#4, sendingSet := 1#4 }) (sending group)
    s.inReset = false ∧ s.branches[0].port.tx.sending = true ∧ s.branches[0].onLine = some 3 ∧ OwedAgrees s ∧
      s.branches[0].contentionRun < 2 ∧ s.records[3].kind = some .group ∧
      setWithout s.records[3].pendingSet 0 = 0 ∧ setWithout s.records[3].sendingSet 0 = 0 := by
  unfold OwedAgrees; decide +kernel
theorem witness_BranchContentionEnds_2 :
    let s := modifyBranch 0 (fun x => { x with contentionRun := 2 }) (sending deferred)
    s.inReset = false ∧ s.branches[0].port.tx.sending = true ∧ s.branches[0].onLine = some 3 ∧ OwedAgrees s ∧
      2 ≤ s.branches[0].contentionRun := by unfold OwedAgrees; decide +kernel

/-- B0 sends a deferred frame after two contentions, and a transparent record with NOTIFY waits behind it. -/
def lastStraw : State :=
  setOwed (.pendingAnswer 4) (enqueueTail 0 4 (holding 10 (.request 4) (mkFrame 0x11 [0xBB])
    (modifyRecord 4 (fun _ => transparent) (modifyBranch 0 (fun x => { x with contentionRun := 2 })
      (sending deferred)))))
theorem witness_BranchContentionEnds_2_settled :
    lastStraw.inReset = false ∧ lastStraw.branches[0].port.tx.sending = true ∧
      lastStraw.branches[0].onLine = some 3 ∧ OwedAgrees lastStraw ∧ 2 ≤ lastStraw.branches[0].contentionRun ∧
      TableAgrees lastStraw ∧ 4 ∈ workOf lastStraw 0 ∧ awaitedByTrunk lastStraw.records[4] = true := by
  unfold OwedAgrees TableAgrees QueuesAgree CompletionsAgree SlotsAgree
  exact ⟨by decide +kernel, by decide +kernel, by decide +kernel, by decide +kernel, by decide +kernel,
    ⟨by decide +kernel, by decide +kernel, by decide +kernel, by decide +kernel,
      buffersAgree_of_all (by decide +kernel) (by decide +kernel)⟩, by decide +kernel, by decide +kernel⟩

theorem witness_AttemptsFail_1 : OwedAgrees ready ∧ ready.inReset = false ∧ ready.branches[0].status ≠ .await := by
  unfold OwedAgrees; decide +kernel
theorem witness_AttemptsFail_2 : let s := awaiting transparent
    OwedAgrees s ∧ s.inReset = false ∧ s.branches[0].status = .await ∧ s.branches[0].onLine = some 3 ∧
      isStationKind s.records[3] = true := by unfold OwedAgrees; decide +kernel
theorem witness_AttemptsFail_3_check : let s := receiving deferred
    OwedAgrees s ∧ s.inReset = false ∧
      answerComing 0 3 (frameBody 0x21 [7] ++ bytesOfWord 0) s = true ∧ 0#16 ≠ crcOf (frameBody 0x21 [7]) := by unfold OwedAgrees; decide +kernel
theorem witness_AttemptsFail_3_responder :
    let s := online deferred .recv .quiet (.assemble { stored := true, got := [0x22] })
    OwedAgrees s ∧ s.inReset = false ∧ answerComing 0 3 (mkFrame 0x22 []) s = true ∧
      0x22#8 ≠ s.records[3].lineAddress := by unfold OwedAgrees; decide +kernel
theorem witness_AttemptsFail_4 : let s := receiving cyclic
    OwedAgrees s ∧ s.inReset = false ∧ answerOpen 0 3 s = true ∧ 60 < (61#8).toNat ∧
      s.branches[0].port.rx = .assemble { stored := true, got := [0x21] } := by
  unfold OwedAgrees; decide +kernel

theorem witness_AnswerIsDelivered_deferred : (List.replicate 60 0#8).length ≤ 60 ∧ OwedAgrees (receiving deferred) ∧
    answerComing 0 3 (mkFrame 0x21 (List.replicate 60 0)) (receiving deferred) = true ∧
    (receiving deferred).buffers[8].holder = .branchAnswer 0 := by unfold OwedAgrees; decide +kernel
theorem witness_AnswerIsDelivered_cancelled : let s := receiving { deferred with cancelPending := true }
    OwedAgrees s ∧ answerComing 0 3 (mkFrame 0x21 []) s = true := by unfold OwedAgrees; decide +kernel
theorem witness_AnswerIsDelivered_transparent : let s := receiving transparent
    OwedAgrees s ∧ answerComing 0 3 (mkFrame 0x21 [7]) s = true ∧ (heldFrame (.branchAnswer 0) s).isSome = true := by
  unfold OwedAgrees; decide +kernel
theorem witness_AnswerIsDelivered_abandoned : let s := receiving abandoned
    OwedAgrees s ∧ answerComing 0 3 (mkFrame 0x21 [7]) s = true ∧ s.records[3].abandoned = true := by
  unfold OwedAgrees; decide +kernel
theorem witness_AnswerIsDelivered_cyclic :
    let s := modifySlot 2 (fun _ => poll .stopping 1) (receiving { cyclic with lineAddress := 0x21 })
    OwedAgrees s ∧ answerComing 0 3 (mkFrame 0x21 [7]) s = true ∧ s.records[3].slot = some 2 := by
  unfold OwedAgrees; decide +kernel

theorem witness_TimersExpire : ready.inReset = false ∧ ready.records[3].state ≠ .ended ∧
    collected.records[3].state = .ended ∧ collected.records[3].branch = some 0 ∧
    ready.branches[0].quarantineTimer = none ∧ ready.slots[2].config = none := by decide +kernel
theorem witness_TimersExpire_4 : let s := modifyBranch 0 (fun x => { x with
      status := .fault, contentionRun := 3, quarantineTimer := some { count := 0, limit := 25500 } }) ready
    s.inReset = false ∧ s.branches[0].status = .fault ∧ s.branches[0].quarantineTimer.isSome = true ∧
      BranchesAgree s := by unfold BranchesAgree; decide +kernel
theorem witness_TimersExpire_6 : let s := polled .armed 0
    s.inReset = false ∧ s.slots[2].config.isSome = true ∧ s.slots[2].state.running = true ∧ inService s 0 = true ∧
      inService (branchIn 0 .fault s) 0 = false ∧ (polled .due 0).slots[2].state ≠ .armed ∧
      justRestarted 2 s = false ∧ justRestarted 2 (polled .armed 20) = false := by decide +kernel
/-- R180: the slot that a RESTART has just left. -/
theorem witness_TimersExpire_restarted : commandReady 0x2F 1 (polled .due 7) = true ∧
    leads (.restart 1) (polled .due 7) (fun t => justRestarted 2 t && !t.inReset) = true := by decide +kernel

/-- R133: once its response is answered by replay, a RESTART no longer takes an expiry with it. -/
theorem test_slotExpiry_behind_a_replay :
    (match runRows [.restart 1, .restart 1, .slotExpiry 2] (polled .due 7) with
      | .next t => t.slots[2].state == .due && t.trunk.port.tx.leading && t.trunk.counters.replays == 1
      | .fault _ | .refused _ => false) = true := by decide +kernel

theorem witness_IdleStepIsAMillisecond : (polled .armed 2).pending = [] ∧ (polled .armed 2).inReset = false ∧
    { ready with inReset := true }.inReset = true ∧ (polled .armed 2).slots[2].state = .armed ∧
    (polled .armed 2).slots[2].countdown = 0 + 2 ∧ (polled .due 2).slots[2].state = .due ∧
    (polled .stopping 2).slots[2].state = .stopping ∧ (polled .stopped 0).slots[2].state.running = false := by
  decide +kernel
theorem witness_IdleStepIsAMillisecond_armed : let s := polled .armed 1
    s.pending = [] ∧ s.inReset = false ∧ BranchesAgree s ∧ TableAgrees s ∧ s.slots[2].config.isSome = true ∧
      s.slots[2].countdown = 1 ∧ s.slots[2].state = .armed ∧ inService s 0 = true := by
  unfold BranchesAgree TableAgrees QueuesAgree CompletionsAgree SlotsAgree
  exact ⟨by decide +kernel, by decide +kernel, by decide +kernel, ⟨by decide +kernel, by decide +kernel,
    by decide +kernel, by decide +kernel, buffersAgree_of_all (by decide +kernel) (by decide +kernel)⟩,
    by decide +kernel⟩
theorem witness_IdleStepIsAMillisecond_skipped :
    let s := modifyBranch 0 (fun x => { x with status := .off, port := { x.port with synchronised := false } })
      (polled .armed 1)
    s.pending = [] ∧ s.inReset = false ∧ BranchesAgree s ∧ TableAgrees s ∧ s.slots[2].config.isSome = true ∧
      s.slots[2].countdown = 1 ∧ s.slots[2].state = .armed ∧ s.branches[0].status = .off := by
  unfold BranchesAgree TableAgrees QueuesAgree CompletionsAgree SlotsAgree
  exact ⟨by decide +kernel, by decide +kernel, by decide +kernel, ⟨by decide +kernel, by decide +kernel,
    by decide +kernel, by decide +kernel, buffersAgree_of_all (by decide +kernel) (by decide +kernel)⟩,
    by decide +kernel⟩
theorem witness_IdleStepIsAMillisecond_due : let s := polled .due 1
    s.pending = [] ∧ s.inReset = false ∧ BranchesAgree s ∧ TableAgrees s ∧ s.slots[2].config.isSome = true ∧
      s.slots[2].countdown = 1 ∧ s.slots[2].state = .due := by
  unfold BranchesAgree TableAgrees QueuesAgree CompletionsAgree SlotsAgree
  exact ⟨by decide +kernel, by decide +kernel, by decide +kernel, ⟨by decide +kernel, by decide +kernel,
    by decide +kernel, by decide +kernel, buffersAgree_of_all (by decide +kernel) (by decide +kernel)⟩,
    by decide +kernel⟩
theorem witness_IdleStepIsAMillisecond_branch :
    let s := modifyBranch 1 (fun x => { x with status := .fault, quarantineTimer := some { count := 98, limit := 100 } })
      (modifyBranch 0 (fun x => { x with windowTimer := some { count := 99, limit := 100 } }) (awaiting deferred))
    s.pending = [] ∧ s.inReset = false ∧ s.branches[0].status = .await ∧
      s.branches[0].windowTimer = some { count := 99, limit := 100 } ∧ ¬ 99 + 1 < 100 ∧
      (awaiting deferred).branches[0].windowTimer = some { count := 0, limit := 100 } ∧
      s.branches[1].status = .fault ∧ s.branches[1].quarantineTimer = some { count := 98, limit := 100 } := by
  decide +kernel
theorem witness_IdleStepIsAMillisecond_hold : collected.pending = [] ∧ collected.inReset = false ∧
    BranchesAgree collected ∧ TableAgrees collected ∧
    collected.records[3].hold = some { count := 0, limit := 5000 } := by
  unfold BranchesAgree TableAgrees QueuesAgree CompletionsAgree SlotsAgree
  exact ⟨by decide +kernel, by decide +kernel, by decide +kernel, ⟨by decide +kernel, by decide +kernel,
    by decide +kernel, by decide +kernel, buffersAgree_of_all (by decide +kernel) (by decide +kernel)⟩,
    by decide +kernel⟩
theorem witness_IdleStepIsAMillisecond_hold_expires :
    let s := modifyRecord 3 (fun r => { r with hold := some { count := 4999, limit := 5000 } }) collected
    s.pending = [] ∧ s.inReset = false ∧ BranchesAgree s ∧ TableAgrees s ∧
      s.records[3].hold = some { count := 4999, limit := 5000 } ∧ ¬ 4999 + 1 < 5000 := by
  unfold BranchesAgree TableAgrees QueuesAgree CompletionsAgree SlotsAgree
  exact ⟨by decide +kernel, by decide +kernel, by decide +kernel, ⟨by decide +kernel, by decide +kernel,
    by decide +kernel, by decide +kernel, buffersAgree_of_all (by decide +kernel) (by decide +kernel)⟩,
    by decide +kernel, by decide⟩

/-- A step whose front is not a row that may clear a flag. -/
theorem witness_FlagsAreOnlyCleared :
    let s : State := { queued deferred with pending := [.trunkGoodFrame 0xE0 [0x20, 1]] }
    (∃ t, step s = .next t) ∧ s.pending.head? ≠ some .resetAsserted ∧
      ∀ data : List Byte, s.pending.head? = some (.trunkGoodFrame 0xE0 data) → data.head? ≠ some 0x21#8 := by
  refine ⟨⟨_, rfl⟩, by decide, ?_⟩
  intro data h
  injection h with h
  injection h with _ h
  subst h
  decide

/-- A record on line and an answer half heard meet every invariant, and a step goes on from there. -/
theorem witness_StepKeepsTheBranches : BranchesAgree { receiving transparent with pending := [.restart 1] } := by
  unfold BranchesAgree; decide +kernel
theorem witness_StepKeepsTheBranches_2 : AssembliesBegun { receiving transparent with pending := [.restart 1] } := by
  intro p
  cases p with
  | trunk => decide +kernel
  | branch b => revert b; decide +kernel
theorem witness_StepKeepsTheValues : ParamsInRange (receiving transparent) ∧ PoolClean (receiving transparent) ∧
    (receiving transparent).tagCounter ≠ 0x00#8 ∧ BanksLawful routed ∧ CountersBounded (receiving transparent) := by
  unfold ParamsInRange BanksLawful CountersBounded; decide +kernel
theorem witness_StepKeepsTheOwedReply : let s := { receiving transparent with pending := [.restart 1] }
    OwedAgrees s ∧ BranchesAgree s ∧ TableAgrees s := by
  unfold OwedAgrees BranchesAgree TableAgrees QueuesAgree CompletionsAgree SlotsAgree
  exact ⟨by decide +kernel, by decide +kernel, ⟨by decide +kernel, by decide +kernel, by decide +kernel,
    by decide +kernel, buffersAgree_of_all (by decide +kernel) (by decide +kernel)⟩⟩
theorem witness_every_step_answers : (∃ t, step (receiving transparent) = .next t) ∧
    ∃ t, step { receiving transparent with pending := [.restart 1] } = .next t := ⟨⟨_, rfl⟩, ⟨_, rfl⟩⟩

end Sys2Proof.Tests
end

section
/-!
What the supersede of a whole trunk frame leaves of the part besides the trunk: the reach of its three steps, and that
nothing is owed after it (R64, R104, R114).
-/

namespace Sys2Proof.Machine

/-- The pieces of the state that a supersede may touch: those of an exchange, and what a settled address changes. -/
def supersedeParts : List Part := [.params, .lastCommand] ++ exchangeParts

/-- Step 1 of supersede stays within an exchange (R104). -/
theorem supersedeOwed_kept (s : State) : ExchangeKept s (supersedeOwed s) := by
  unfold supersedeOwed
  cases s.trunk.owed <;> rfl

/-- Step 2 of supersede stays within an exchange (R64). -/
theorem supersedeRecord_kept (s : State) : ExchangeKept s (supersedeRecord s) := by
  unfold supersedeRecord
  cases liveTransparent s with
  | none => rfl
  | some i =>
    dsimp only
    split
    · exact freeRecord_kept i s
    · exact modifyRecord_kept i _ s

/-- A settled address changes the parameters and the last-response memory. -/
theorem emptyLastResponse_sameBut (params : GlobalParams) (s : State) :
    SameBut supersedeParts s (emptyLastResponse { s with params := params }) := by
  refine ⟨rfl, fun q _ hq => ?_⟩
  cases q with
  | params | buffers | lastCommand => exact absurd (by decide) hq
  | pins => exact ⟨rfl, rfl, rfl⟩
  | trunk | branch | bankA | bankB | activeBank | records | tagCounter | completions | slots | flags => rfl

/-- An exchange reaches no further than a supersede. -/
theorem ExchangeKept.sameBut_supersede {s t : State} (h : ExchangeKept s t) : SameBut supersedeParts s t :=
  h.sameBut.mono fun _ hq => List.mem_append_right _ hq

/-- The settling point reaches no further than a supersede (R114). -/
theorem settlePending_sameBut (s : State) : SameBut supersedeParts s (settlePending s) := by
  have hsettled : ExchangeKept s (modifyTrunk (fun t => { t with pendingSetting := none }) s) := rfl
  unfold settlePending
  cases s.trunk.pendingSetting with
  | none => exact SameBut.refl _ s
  | some q =>
    cases q with
    | trunkRate code => exact (hsettled.trans (applyRate_kept .trunk code _)).sameBut_supersede
    | mgmtAddress a => exact hsettled.sameBut_supersede.trans (emptyLastResponse_sameBut _ _)

/-- What a supersede may change of the part (R104). -/
theorem superseded_sameBut (s : State) : SameBut supersedeParts s (superseded s) := by
  have hopen : ExchangeKept s (setRx .trunk .hunt s) := rfl
  exact ((hopen.trans (supersedeOwed_kept _)).trans (supersedeRecord_kept _)).sameBut_supersede.trans
    (settlePending_sameBut _)

@[simp] theorem superseded_bankA (s : State) : (superseded s).bankA = s.bankA :=
  (superseded_sameBut s).2 .bankA (by decide) (by decide)
@[simp] theorem superseded_bankB (s : State) : (superseded s).bankB = s.bankB :=
  (superseded_sameBut s).2 .bankB (by decide) (by decide)
@[simp] theorem superseded_activeBank (s : State) : (superseded s).activeBank = s.activeBank :=
  (superseded_sameBut s).2 .activeBank (by decide) (by decide)
@[simp] theorem superseded_bank (s : State) (k : Bank) : (superseded s).bank k = s.bank k := by
  cases k
  · exact superseded_bankA s
  · exact superseded_bankB s

/-- A supersede sets no flag, leaves no setting waiting, and keeps the timing of the trunk port. -/
theorem superseded_kept (s : State) : (superseded s).flags = s.flags ∧ (superseded s).trunk.pendingSetting = none ∧
    (superseded s).trunk.port.guard = s.trunk.port.guard ∧
    (superseded s).trunk.port.charTimeout = s.trunk.port.charTimeout :=
  (supersede_kept (v := setRx .trunk .hunt s) rfl).2

/-- Step 1 of supersede leaves nothing owed (R104). -/
theorem supersedeOwed_owed (s : State) : (supersedeOwed s).trunk.owed = .nothing := by
  unfold supersedeOwed
  cases h : s.trunk.owed with
  | nothing => exact h
  | pendingAnswer _ | answer | proxy | response => rfl

/-- Step 2 of supersede leaves the trunk as it is (R64). -/
theorem supersedeRecord_trunk (s : State) : (supersedeRecord s).trunk = s.trunk := by
  unfold supersedeRecord
  cases liveTransparent s with
  | none => rfl
  | some i =>
    dsimp only
    split
    · exact freeRecord_trunk i s
    · rfl

/-- Applying a rate to the trunk port leaves the owed reply. -/
theorem applyRate_trunk_owed (code : Nat) (s : State) : (applyRate .trunk code s).trunk.owed = s.trunk.owed := by
  unfold applyRate truncateOpen
  cases (s.port .trunk).rx <;> rfl

/-- The settling point leaves the owed reply (R114). -/
theorem settlePending_owed (s : State) : (settlePending s).trunk.owed = s.trunk.owed := by
  unfold settlePending
  cases s.trunk.pendingSetting with
  | none => rfl
  | some q =>
    cases q with
    | trunkRate code => exact applyRate_trunk_owed code _
    | mgmtAddress a => rfl

/-- Nothing is owed after a supersede (R104). -/
theorem superseded_owed (s : State) : (superseded s).trunk.owed = .nothing := by
  unfold superseded supersede
  rw [settlePending_owed, supersedeRecord_trunk, supersedeOwed_owed]

end Sys2Proof.Machine
end

section
/-!
The trunk port under the traces of a received frame, and a received frame that is discarded: what its discard makes of
the pool, the flags and the rest of the part (R12, R13, R32, R126).
-/

namespace Sys2Proof.Machine

/-- An address character on the trunk counts the frame it cuts short, and leaves the timeout of the port (R10, R13). -/
theorem receiveAddress_trunk_port (a : Byte) (s : State) :
    (receiveAddress .trunk a s).trunk.port.counters = truncatedOnce s.trunk.port ∧
      (receiveAddress .trunk a s).trunk.port.charTimeout = s.trunk.port.charTimeout := by
  have hclaim : ∀ t : State, (trunkClaim a t).trunk.port.counters = t.trunk.port.counters ∧
      (trunkClaim a t).trunk.port.charTimeout = t.trunk.port.charTimeout := by
    intro t
    unfold trunkClaim
    split
    · exact ⟨rfl, rfl⟩
    · simp [openFrame, setRx]
  have hrx : (characterEnds .trunk s).trunk.port.rx = s.trunk.port.rx := rfl
  unfold receiveAddress trunkFrameStarts truncatedOnce
  dsimp only
  rw [hrx]
  cases s.trunk.port.rx with
  | hunt | discard => exact hclaim _
  | assemble cut =>
    dsimp only
    split
    · exact ⟨rfl, rfl⟩
    · exact hclaim _

/-- The traces of an assembled frame, as the port shows them: `u` is the part when the frame's last character ends. -/
theorem Traces.over_port_of_assembled {p : Traces} {chars : List Byte} {u v : State}
    (h : setRx .trunk .hunt (storeChars .trunk true chars (characterEnds .trunk u)) = p.over v) :
    p.lineRest = 0 ∧ p.gapTimeout = u.trunk.port.charTimeout ∧ p.counters = u.trunk.port.counters := by
  have hport := congrArg (fun t : State => t.trunk.port) h
  exact ⟨(congrArg PortState.lineRest hport).symm, (congrArg PortState.gapTimeout hport).symm,
    (congrArg PortState.counters hport).symm⟩

/-- A ready trunk hands a whole frame that it has stored to the classifier once the frame has superseded (R104). -/
theorem trunkGoodFrame_assembled {s : State} (hs : trunkReady s = true) (a : Byte) {data : List Byte}
    (hd : data.length ≤ 60)
    (hstored : storing .trunk (if opensWith .trunk (mkFrame a data) s then s else receiveAddress .trunk a s) = true) :
    exec (.trunkGoodFrame a data) s = .next (classify a data (supersede (countGood .trunk
      (setRx .trunk .hunt (storeChars .trunk true (mkFrame a data) (characterEnds .trunk
        (if opensWith .trunk (mkFrame a data) s then s else receiveAddress .trunk a s))))))) := by
  have hheard : (receives s .trunk && !s.trunk.port.tx.sending) = true := by
    unfold trunkReady at hs
    exact ((Bool.and_eq_true _ _).mp hs).1
  show trunkFrame a data s = _
  unfold trunkFrame hearTrunkFrame
  rw [if_pos hd, if_pos hheard]
  dsimp only
  rw [hstored]
  unfold goodFrame trunkFrameGood
  rw [frameAddress_mkFrame, frameData_mkFrame a hd]
  rfl

/-- What TRUNK_GOOD_FRAME comes to on a ready trunk, with the trunk port said in full: the frame is classified on the
superseded part under its traces (R5, R12, R13, R104). -/
theorem trunkGoodFrame_received {s : State} (hs : trunkReady s = true) (a : Byte) {data : List Byte}
    (hd : data.length ≤ 60) : ∃ p : Traces, p.fits (superseded s) ∧ p.flags ||| receiptFlags = receiptFlags ∧
      (p.over (superseded s)).trunk.port = receivedPort (mkFrame a data) s ∧
      exec (.trunkGoodFrame a data) s = .next (classify a data (p.over (superseded s))) := by
  obtain ⟨hstored, p, hfit, -, hflags, -, -, hassembled⟩ := assembled_traces hs a (mkFrame a data)
  obtain ⟨hrest, hgap, hcounters⟩ := Traces.over_port_of_assembled hassembled
  let q : Traces := { p with counters := { p.counters with framesRxGood := countUp p.counters.framesRxGood } }
  have hsup := q.over_supersede (v := setRx .trunk .hunt s) hfit rfl
  refine ⟨q, hsup.2, hflags, ?_, ?_⟩
  · obtain ⟨hcounted, htimeout⟩ := receiveAddress_trunk_port a s
    have hport : (q.over (superseded s)).trunk.port = { (superseded s).trunk.port with
        lineRest := p.lineRest, charInProgress := false, gapTimeout := p.gapTimeout
        counters := { p.counters with framesRxGood := countUp p.counters.framesRxGood } } := rfl
    rw [hport, hrest, hgap, hcounters]
    unfold receivedPort
    split
    · rfl
    · rw [hcounted, htimeout]
  · rw [trunkGoodFrame_assembled hs a hd hstored, hassembled]
    show Host.Outcome.next (classify a data (supersede (q.over (setRx .trunk .hunt s)))) = _
    rw [hsup.1]
    rfl

/-- A table's count of places that meet a test, by index. -/
theorem countP_table {α : Type} {n : Nat} (q : α → Bool) (v : Vector α n) :
    v.toList.countP q = (List.finRange n).countP fun i => q v[i] := by
  have e : v.toList = (List.finRange n).map fun i => v[i] := List.ext_getElem (by simp) fun i h1 h2 => by simp
  rw [e, List.countP_map]
  rfl

/-- The pool once a received frame has been dropped: the frame's buffer, claimed or kept, is free, and the others stand
(R126). -/
theorem Traces.dropped_buffers (p : Traces) (v : State) (i : Fin Config.bufferCount) :
    (returnBuffer .trunkAssembly (p.over v)).buffers[i] =
      if p.claimed = some i ∨ v.buffers[i].holder = .trunkAssembly then Buffer.empty else v.buffers[i] := by
  rw [returnBuffer_buffers, p.over_buffers]
  split
  · exact if_pos rfl
  · rename_i hother
    exact if_neg fun h => hother (Or.inr h)

/-- Each buffer once a received frame has been dropped, as the supersede of the frame left it (R32). -/
theorem Traces.dropped_places {p : Traces} {v : State} (hv : p.fits v) (i : Fin Config.bufferCount) :
    if v.buffers[i].holder = .free ∨ v.buffers[i].holder = .trunkAssembly then
      (returnBuffer .trunkAssembly (p.over v)).buffers[i].holder = .free
    else (returnBuffer .trunkAssembly (p.over v)).buffers[i] = v.buffers[i] := by
  rw [p.dropped_buffers]
  by_cases hown : p.claimed = some i ∨ v.buffers[i].holder = .trunkAssembly
  · have hbefore : v.buffers[i].holder = .free ∨ v.buffers[i].holder = .trunkAssembly := hown.imp_left (hv i)
    rw [if_pos hbefore, if_pos hown]
    rfl
  · rw [if_neg hown]
    split
    · rename_i hbefore
      exact hbefore.resolve_right fun h => hown (Or.inr h)
    · rfl

/-- The free buffers once a received frame has been dropped: those free before, and the one the trunk held. -/
theorem Traces.dropped_freeCount {p : Traces} {v : State} (hv : p.fits v) :
    freeCount (returnBuffer .trunkAssembly (p.over v)) = freeCount v + heldCount .trunkAssembly v := by
  have hfree : ∀ i : Fin Config.bufferCount,
      ((returnBuffer .trunkAssembly (p.over v)).buffers[i].holder == .free) =
        (v.buffers[i].holder == .free || v.buffers[i].holder == .trunkAssembly) := by
    intro i
    have hplace := Traces.dropped_places hv i
    rw [Bool.eq_iff_iff, Bool.or_eq_true, beq_iff_eq, beq_iff_eq, beq_iff_eq]
    split at hplace
    · rename_i hbefore
      exact iff_of_true hplace hbefore
    · rename_i hbefore
      rw [hplace]
      exact iff_of_false (fun h => hbefore (Or.inl h)) hbefore
  unfold freeCount heldCount
  rw [← countP_either (by decide), countP_table, countP_table]
  exact congrArg (fun q => (List.finRange Config.bufferCount).countP q) (funext hfree)

/-- A holder that is neither the pool nor the trunk's reception keeps what it holds when a received frame is dropped. -/
theorem Traces.dropped_heldFrame {p : Traces} {v : State} (hv : p.fits v) {h : Holder} (hf : h ≠ .free)
    (ht : h ≠ .trunkAssembly) : heldFrame h (returnBuffer .trunkAssembly (p.over v)) = heldFrame h v := by
  rw [heldFrame_returnBuffer_other hf ht, Traces.over_heldFrame hv hf ht]

/-- An exchange or a snapshot holds neither free buffers nor the trunk's receive buffer. -/
theorem exchangeHolders_ne {h : Holder} (hh : h ∈ exchangeHolders) : h ≠ .free ∧ h ≠ .trunkAssembly := by
  unfold exchangeHolders at hh
  simp only [List.mem_append, List.mem_map] at hh
  obtain ((⟨_, -, rfl⟩ | ⟨_, -, rfl⟩) | ⟨_, -, rfl⟩) | ⟨_, -, rfl⟩ := hh <;> simp

/-- A flag that has been raised is set (R147). -/
theorem flagSet_raise_same (f : Flag) (s : State) : flagSet f (raise f s) = true := by
  have hown : (flagMask f).getLsbD (flagBit f) = true := by cases f <;> rfl
  unfold flagSet
  rw [raise_flags, BitVec.getLsbD_or, hown, Bool.or_true]

/-- The flags that reception sets do not tell apart, whatever else is set. -/
theorem flags_or_receipt {f : BitVec 12} (hf : f ||| receiptFlags = receiptFlags) (x m : BitVec 12) :
    x ||| f ||| m ||| receiptFlags = x ||| receiptFlags ||| m := by
  rw [BitVec.or_assoc _ m, BitVec.or_comm m, BitVec.or_assoc x, ← BitVec.or_assoc f, hf, ← BitVec.or_assoc]

/-- The trunk once a received frame has been discarded: the port as reception left it, UNROUTED counted (R32). -/
theorem Traces.discardUnrouted_trunk (p : Traces) (v : State) : (discardUnrouted (p.over v)).trunk =
    { v.trunk with
      port := (p.over v).trunk.port
      counters := { v.trunk.counters with unrouted := countUp v.trunk.counters.unrouted } } := rfl

/-- The discard of a frame sets UNROUTED (R32). -/
@[simp] theorem discardUnrouted_flags (s : State) : (discardUnrouted s).flags = s.flags ||| flagMask .unrouted := rfl

/-- The pieces of the state on which the reception of a frame leaves its traces (R118). -/
def receptionParts : List Part := [.trunk, .buffers, .flags]

/-- A change of the trunk, the pool and the flags alone. -/
theorem sameBut_reception {s t : State}
    (h : t = { s with trunk := t.trunk, buffers := t.buffers, flags := t.flags }) : SameBut receptionParts s t := by
  rw [h]
  refine ⟨rfl, fun q _ hq => ?_⟩
  cases q with
  | trunk | buffers | flags => exact absurd (by decide) hq
  | pins => exact ⟨rfl, rfl, rfl⟩
  | lastCommand => exact ⟨rfl, rfl⟩
  | params | branch | bankA | bankB | activeBank | records | tagCounter | completions | slots => rfl

/-- The traces of a frame lie on the trunk, the pool and the flags alone (R118). -/
theorem Traces.over_sameBut (p : Traces) (v : State) : SameBut receptionParts v (p.over v) := sameBut_reception rfl

/-- The discard of a frame touches the trunk, its flag and the frame's buffer alone (R32). -/
theorem discardUnrouted_sameBut (s : State) : SameBut receptionParts s (discardUnrouted s) := sameBut_reception rfl

/-- The discard of a received frame gives its buffer back, counts and flags UNROUTED, and leaves nothing owed (R32). -/
theorem discardUnrouted_dropped {s : State} {chars : List Byte} {p : Traces} (hfit : p.fits (superseded s))
    (hflags : p.flags ||| receiptFlags = receiptFlags)
    (hport : (p.over (superseded s)).trunk.port = receivedPort chars s) :
    FrameDropped chars
      { (superseded s).trunk.counters with unrouted := countUp (superseded s).trunk.counters.unrouted }
      (flagMask .unrouted) s (discardUnrouted (p.over (superseded s))) := by
  have howed := superseded_owed s
  have hclear := (superseded_kept s).1
  unfold FrameDropped memoryKept
  rw [← hport]
  generalize superseded s = v at *
  refine ⟨p.discardUnrouted_trunk v, howed, Traces.dropped_heldFrame hfit (by decide) (by decide),
    ⟨rfl, rfl, Traces.dropped_heldFrame hfit (by decide) (by decide)⟩, ?_, Traces.dropped_freeCount hfit,
    Traces.dropped_places hfit⟩
  rw [discardUnrouted_flags, Traces.over_flags, hclear, flags_or_receipt hflags]

/-- The discard of a received frame changes nothing but the trunk and the flags (R32). -/
theorem discardUnrouted_commandKept {s : State} {p : Traces} (hfit : p.fits (superseded s)) :
    CommandKept [.trunk, .flags] s (discardUnrouted (p.over (superseded s))) := by
  have hparams := superseded_params s
  unfold CommandKept exchangeFramesKept
  generalize superseded s = v at *
  have hkept := (p.over_sameBut v).trans (discardUnrouted_sameBut (p.over v))
  refine ⟨hkept.mono (by decide), fun _ => hparams, fun h => absurd (by decide) h, fun _ h hh => ?_,
    fun h => absurd (by decide) h⟩
  obtain ⟨hfree, htrunk⟩ := exchangeHolders_ne hh
  exact Traces.dropped_heldFrame hfit hfree htrunk

end Sys2Proof.Machine
end

section
/-!
Settlement of the statement about the void address (section 2.2).
-/

namespace Sys2Proof.Machine

/-- The void address is of no entry's class, so it is matched by none (R26, R32). -/
theorem entryMatches_void (e : RouteEntry) : entryMatches e voidAddress = false := by
  have hstation : isStationAddress voidAddress = false := by decide
  have hgroup : isGroupAddress voidAddress = false := by decide
  unfold entryMatches
  cases e.kind with
  | station => simp [hstation]
  | group => simp [hgroup]

/-- A frame to the void address is discarded whenever the management address is a station address (R32). -/
theorem classify_void {s : State} (hs : isStationAddress s.params.mgmtAddress = true) (data : List Byte) :
    classify voidAddress data s = discardUnrouted s := by
  have hne : voidAddress ≠ s.params.mgmtAddress := by
    intro h
    rw [← h] at hs
    exact absurd hs (by decide)
  unfold classify
  rw [if_neg hne, if_pos rfl]

/-- Settles O19: the frame is classified on the superseded part under its traces, where its discard is the one case that
the void address leaves. -/
theorem voidFrameDiscarded : Obligations.VoidFrameDiscarded := by
  refine ⟨fun data s hd hs hstation => ?_, entryMatches_void⟩
  obtain ⟨p, hfit, hflags, hport, hexec⟩ := trunkGoodFrame_received hs voidAddress hd
  have hmgmt : isStationAddress (p.over (superseded s)).params.mgmtAddress = true := by
    rw [Traces.over_params, superseded_mgmtAddress]
    exact hstation
  have hbankA := superseded_bankA s
  have hbankB := superseded_bankB s
  have hdropped := discardUnrouted_dropped hfit hflags hport
  have hkept := discardUnrouted_commandKept hfit
  rw [classify_void hmgmt] at hexec
  dsimp only
  generalize superseded s = v at *
  exact ⟨_, hexec, hdropped, flagSet_raise_same _ _, heldFrame_returnBuffer_same (by decide) (p.over v), hbankA, hbankB,
    hkept⟩

end Sys2Proof.Machine
end

section
/-!
Commands on a route bank: the bank and index arguments, what CLEAR_ENTRY and COPY_BANK come to, and that a bank written
by a command takes nothing from its answer (sections 2.4 and 10.5).
-/

namespace Sys2Proof.Machine

/-- A bank argument names the bank whose code it is (section 10.4). -/
theorem bankOf_eq_some {c : Byte} {k : Bank} : bankOf c = some k ↔ bankCode k = c := by
  unfold bankOf
  constructor
  · intro h
    split at h
    · rename_i hc
      obtain rfl := Option.some.inj h
      exact hc.symm
    · split at h
      · rename_i hc
        obtain rfl := Option.some.inj h
        exact hc.symm
      · exact absurd h (by simp)
  · rintro rfl
    cases k <;> rfl

/-- A bank argument above 1 names no bank (section 10.4). -/
theorem bankOf_eq_none {c : Byte} : bankOf c = none ↔ 2 ≤ c.toNat := by
  unfold bankOf
  split
  · rename_i hc
    simp [hc]
  · rename_i h0
    split
    · rename_i hc
      simp [hc]
    · rename_i h1
      refine iff_of_true rfl ?_
      bv_omega

/-- An index argument names the entry of that number (R183). -/
theorem entryIndexOf_eq_some {c : Byte} {j : Fin Config.entryCount} : entryIndexOf c = some j ↔ j.val = c.toNat := by
  unfold entryIndexOf indexOf
  split
  · rw [Option.some.injEq, Fin.ext_iff]
    exact eq_comm
  · rename_i h
    refine iff_of_false (by simp) fun e => h ?_
    rw [← e]
    exact j.isLt

/-- An index argument above 23 names no entry (R183). -/
theorem entryIndexOf_eq_none {c : Byte} : entryIndexOf c = none ↔ 24 ≤ c.toNat := by
  unfold entryIndexOf indexOf
  split
  · rename_i h
    exact iff_of_false (by simp) (Nat.not_le.mpr h)
  · rename_i h
    exact iff_of_true rfl (Nat.not_lt.mp h)

/-- CLEAR_ENTRY refuses a bank neither A nor B and an index above 23 (R42). -/
theorem cmdClearEntry_badArgument {bank index : Byte} (h : 2 ≤ bank.toNat ∨ 24 ≤ index.toNat) (s : State) :
    cmdClearEntry bank index s = refuse .badArgument s := by
  unfold cmdClearEntry
  rcases h with h | h
  · rw [bankOf_eq_none.mpr h]
  · rw [entryIndexOf_eq_none.mpr h]
    cases bankOf bank <;> rfl

/-- CLEAR_ENTRY of an entry that exists: refused for the active bank, else the entry is emptied (R42). -/
theorem cmdClearEntry_of_entry {bank index : Byte} {k : Bank} {j : Fin Config.entryCount} (hk : bankCode k = bank)
    (hj : j.val = index.toNat) (s : State) : cmdClearEntry bank index s =
      if k = s.activeBank then refuse .activeBank s else okay [bank, index] (modifyEntry k j (fun _ => .empty) s) := by
  unfold cmdClearEntry
  rw [bankOf_eq_some.mpr hk, entryIndexOf_eq_some.mpr hj]

/-- A bank is neither read nor changed by the building of a response. -/
theorem buildResponse_setBank (code seq : Byte) (r : ResultCode) (data : List Byte) (k : Bank)
    (v : Vector RouteEntry Config.entryCount) (s : State) :
    buildResponse code seq { result := r, data := data, state := setBank k v s } =
      setBank k v (buildResponse code seq { result := r, data := data, state := s }) := by
  cases k <;> rfl

/-- A response shows the same answer beside any contents of a bank: the summary does not depend on them (R150). -/
theorem Answered.setBank {s t : State} {code seq : Byte} {r : ResultCode} {results : List Byte}
    (h : Answered s code seq r results t) (k : Bank) (v : Vector RouteEntry Config.entryCount) :
    Answered s code seq r results (setBank k v t) := by
  cases k <;> exact h

/-- The replacing of a bank changes that bank alone. -/
theorem setBank_sameBut (k : Bank) (v : Vector RouteEntry Config.entryCount) (s : State) :
    SameBut [bankPart k] s (setBank k v s) := by
  refine ⟨setBank_pending k v s, fun q _ hq => ?_⟩
  cases k with
  | a =>
    cases q with
    | bankA => exact absurd (by decide) hq
    | pins => exact ⟨rfl, rfl, rfl⟩
    | lastCommand => exact ⟨rfl, rfl⟩
    | _ => rfl
  | b =>
    cases q with
    | bankB => exact absurd (by decide) hq
    | pins => exact ⟨rfl, rfl, rfl⟩
    | lastCommand => exact ⟨rfl, rfl⟩
    | _ => rfl

/-- A bank written besides an answer is the one more piece that the command changes. -/
theorem CommandKept.setBank {s t : State} (h : CommandKept [] s t) (k : Bank)
    (v : Vector RouteEntry Config.entryCount) : CommandKept [bankPart k] s (setBank k v t) := by
  obtain ⟨hsame, hparams, hflags, hframes, htrunk⟩ := h
  refine ⟨?_, fun _ => ?_, fun _ => ?_, fun _ => ?_, fun _ => ?_⟩
  · exact (hsame.mono fun q hq => List.mem_append_right [bankPart k] hq).trans
      ((setBank_sameBut k v t).mono fun q hq => List.mem_append_left _ hq)
  · rw [setBank_params]
    exact hparams (by simp)
  · rw [setBank_flags]
    exact hflags (by simp)
  · have hheld : ∀ h, heldFrame h (Machine.setBank k v t) = heldFrame h t := by
      intro h
      unfold heldFrame
      rw [setBank_buffers]
    intro h hh
    rw [hheld]
    exact hframes (by simp) h hh
  · rw [setBank_trunk]
    exact htrunk (by simp)

/-- A ready command is executed on a part `u` that has the route table as it stood, and an answer of it with no effect
leaves nothing but the answer (R104, R160). -/
theorem command_executed {s : State} {code seq : Byte} (hs : commandReady code seq s = true) {args : List Byte}
    (hl : args.length + 2 ≤ 60) : ∃ u : State, u.activeBank = s.activeBank ∧ (∀ k, u.bank k = s.bank k) ∧
      exec (.trunkGoodFrame (settledAddress s) (code :: seq :: args)) s =
        .next (buildResponse code seq (runCommand code args u)) ∧
      ∀ (r : ResultCode) (data : List Byte), data.length + 4 ≤ 60 →
        AnsweredOnly s code seq r data (buildResponse code seq { result := r, data := data, state := u }) := by
  obtain ⟨p, hfit, hflags, -, hheld, hexec⟩ := command_answered hs hl
  refine ⟨p.over (superseded s), superseded_activeBank s, fun k => ?_, hexec,
    fun r data hlen => answeredOnly hfit hflags (by rw [hheld]; rfl) r hlen⟩
  have hbank : (p.over (superseded s)).bank k = (superseded s).bank k := by cases k <;> rfl
  rw [hbank, superseded_bank]

/-- A command that writes a bank and answers OK has been answered and has changed that bank alone (R160, R161). -/
theorem answered_bankWritten {s u : State} {code seq : Byte} {data : List Byte}
    (h : AnsweredOnly s code seq .ok data (buildResponse code seq { result := .ok, data := data, state := u }))
    (k : Bank) (v : Vector RouteEntry Config.entryCount) :
    Answered s code seq .ok data (buildResponse code seq (okay data (setBank k v u))) ∧
      CommandKept [bankPart k] s (buildResponse code seq (okay data (setBank k v u))) := by
  unfold okay
  rw [buildResponse_setBank]
  exact ⟨h.1.setBank k v, h.2.setBank k v⟩

/-- The replacing of a bank leaves the other one. -/
theorem setBank_bank_of_ne {j k : Bank} (h : j ≠ k) (v : Vector RouteEntry Config.entryCount) (s : State) :
    (setBank k v s).bank j = s.bank j := by
  cases k with
  | a =>
    cases j with
    | a => exact absurd rfl h
    | b => rfl
  | b =>
    cases j with
    | a => rfl
    | b => exact absurd rfl h

/-- The other bank is another one. -/
theorem ne_otherBank (k : Bank) : k ≠ otherBank k := by cases k <;> decide

/-- A bank is left by the building of a response. -/
@[simp] theorem buildResponse_bank (code seq : Byte) (r : Reply) (k : Bank) :
    (buildResponse code seq r).bank k = r.state.bank k := by
  cases k
  · exact buildResponse_bankA code seq r
  · exact buildResponse_bankB code seq r

end Sys2Proof.Machine
end

section
/-!
Settlement of the statements about CLEAR_ENTRY and COPY_BANK (section 2.4).
-/

namespace Sys2Proof.Machine

/-- Settles O33, by the checks of CLEAR_ENTRY in order; what an accepted one makes of the bank is `modifyEntry`. -/
theorem clearEntryClears : Obligations.ClearEntryClears := by
  intro seq bank index s hs
  obtain ⟨u, hactive, hbank, hexec, hanswer⟩ := command_executed hs (args := [bank, index]) (by simp)
  have hrow : exec (.clearEntry seq bank index) s =
      .next (buildResponse 0x0A#8 seq (cmdClearEntry bank index u)) := hexec
  refine ⟨_, hrow, ?_⟩
  split
  · rename_i hbad
    rw [cmdClearEntry_badArgument hbad]
    exact hanswer .badArgument [] (by simp)
  · rename_i hgood
    obtain ⟨-, hindex⟩ := not_or.mp hgood
    split
    · rename_i hsame
      have hcheck := cmdClearEntry_of_entry (j := ⟨index.toNat, Nat.not_le.mp hindex⟩) hsame.symm rfl u
      rw [hcheck, if_pos hactive.symm]
      exact hanswer .activeBank [] (by simp)
    · rename_i hother
      intro k j hk hj
      have hinactive : k ≠ u.activeBank := fun e => hother (by rw [← hk, e, hactive])
      rw [cmdClearEntry_of_entry hk hj, if_neg hinactive]
      obtain ⟨hanswered, hkept⟩ := answered_bankWritten (hanswer .ok [bank, index] (by simp)) k
        (updateAt (u.bank k) j fun _ => .empty)
      refine ⟨hanswered, ?_, fun i hi => ?_, hkept⟩
      · rw [buildResponse_bank]
        exact (modifyEntry_bank k j j _ u).trans (if_pos rfl)
      · rw [buildResponse_bank, ← hbank]
        exact (modifyEntry_bank k j i _ u).trans (if_neg hi)

/-- Settles O34: the bank that COPY_BANK writes is the active one with its HITS zero, place by place. -/
theorem copyBankCopies : Obligations.CopyBankCopies := by
  intro seq s hs k
  obtain ⟨u, hactive, hbank, hexec, hanswer⟩ := command_executed hs (args := []) (by simp)
  have hrun : cmdCopyBank u = okay [bankCode k]
      (setBank k (mapTable (fun e => { e with hits := 0 }) (s.bank s.activeBank)) u) := by
    unfold cmdCopyBank
    rw [hactive, hbank]
  have hrow : exec (.copyBank seq) s = .next (buildResponse 0x0B#8 seq (cmdCopyBank u)) := hexec
  rw [hrun] at hrow
  obtain ⟨hanswered, hkept⟩ := answered_bankWritten (hanswer .ok [bankCode k] (by simp)) k
    (mapTable (fun e => { e with hits := 0 }) (s.bank s.activeBank))
  refine ⟨_, hrow, hanswered, fun j => ?_, ?_, ?_, hkept⟩
  · have hwritten := setBank_bank k (mapTable (fun e => { e with hits := 0 }) (s.bank s.activeBank)) u
    rw [buildResponse_bank]
    exact (congrArg (fun v => v[j]) hwritten).trans (mapTable_get _ _ j)
  · rw [buildResponse_bank]
    exact (setBank_bank_of_ne (ne_otherBank s.activeBank) _ u).trans (hbank _)
  · rw [buildResponse_activeBank]
    exact (setBank_activeBank k _ u).trans hactive

end Sys2Proof.Machine
end

section
/-!
What any operation of the part keeps, said once and in a form that composes: the waiting commands, the straps and the
flags that are set (R147), every value in its range (R48, R154, section 9.3), and every open frame with its address
character (R8). The operations follow in the order of the model's files.
-/

namespace Sys2Proof.Machine

-- The gate's memory limit counts every thread's arena, so the declarations are elaborated one after another.
set_option Elab.async false

/-! ### Values in range, block by block -/

/-- The five counters of a port are within 16 bits (R23). -/
def portCounted (c : PortCounters) : Prop :=
  c.framesRxGood ≤ Config.counterMax ∧ c.framesTx ≤ Config.counterMax ∧ c.checkErrors ≤ Config.counterMax ∧
    c.truncated ≤ Config.counterMax ∧ c.contentions ≤ Config.counterMax

/-- The trunk's own counters are within 16 bits (R117). -/
def trunkCounted (c : TrunkCounters) : Prop :=
  c.unrouted ≤ Config.counterMax ∧ c.refused ≤ Config.counterMax ∧ c.superseded ≤ Config.counterMax ∧
    c.replays ≤ Config.counterMax ∧ c.bufLost ≤ Config.counterMax ∧ c.mgmtMalformed ≤ Config.counterMax

/-- The nine counters of a branch are within 16 bits (R99). -/
def branchCounted (c : BranchCounters) : Prop :=
  c.answers ≤ Config.counterMax ∧ c.noAnswers ≤ Config.counterMax ∧ c.badAnswers ≤ Config.counterMax ∧
    c.wrongResponder ≤ Config.counterMax ∧ c.lateAnswers ≤ Config.counterMax ∧ c.unsolicited ≤ Config.counterMax ∧
    c.stalls ≤ Config.counterMax ∧ c.skips ≤ Config.counterMax ∧ c.uncollected ≤ Config.counterMax

/-- A port with its line parameters in range and its counters within 16 bits. -/
def portFine (q : PortState) : Prop := portInRange q = true ∧ portCounted q.counters

/-- The trunk controller with its values in range. -/
def trunkFine (t : Trunk) : Prop :=
  portFine t.port ∧ settingInRange t.pendingSetting = true ∧ trunkCounted t.counters

/-- The parameters of a branch that are not its port's are in range (section 4.6, R51). -/
def branchParamsFine (x : BranchState) : Prop :=
  1 ≤ x.responseWindow ∧ x.responseWindow ≤ 1000 ∧ 1 ≤ x.queueLimit ∧ x.queueLimit ≤ 8 ∧ x.quarantine ≤ 255

/-- A branch controller with its values in range. -/
def branchFine (x : BranchState) : Prop :=
  portFine x.port ∧ branchParamsFine x ∧ x.pendingRate.getD 0 ≤ 6 ∧ branchCounted x.counters

/-- The global parameters in range (section 9.3). -/
def paramsFine (p : GlobalParams) : Prop :=
  isStationAddress p.mgmtAddress = true ∧ 1 ≤ p.trunkReserve ∧ p.trunkReserve ≤ 8 ∧ 1 ≤ p.holdTime ∧
    p.holdTime ≤ 255 ∧ p.bufLowMark ≤ 47

/-- An entry with lawful fields and HITS within 16 bits. -/
def entryFine (e : RouteEntry) : Prop := e.hits ≤ Config.counterMax ∧ entryLawful e = true

/-- A slot with its counts within their widths (R137). -/
def slotFine (x : Slot) : Prop :=
  x.overruns ≤ Config.counterMax ∧ x.misses ≤ Config.missesMax ∧ x.age.getD 0 ≤ Config.counterMax

/-- Every value of the part in range, block by block. -/
structure ValuesFine (s : State) : Prop where
  params : paramsFine s.params
  trunk : trunkFine s.trunk
  branches : ∀ b : Branch, branchFine s.branches[b]
  bankA : ∀ j : Fin Config.entryCount, entryFine s.bankA[j]
  bankB : ∀ j : Fin Config.entryCount, entryFine s.bankB[j]
  slots : ∀ k : SlotIndex, slotFine s.slots[k]
  tag : s.tagCounter ≠ 0x00#8
  pool : PoolClean s

/-- The trunk group is within 16 bits when its two parts are. -/
theorem allCounted_trunk {p : PortCounters} {t : TrunkCounters} :
    allCounted (trunkCounterList p t) = true ↔ portCounted p ∧ trunkCounted t := by
  simp [allCounted, trunkCounterList, portCounted, trunkCounted, and_assoc]

/-- A branch group is within 16 bits when its two parts are. -/
theorem allCounted_branch {p : PortCounters} {c : BranchCounters} :
    allCounted (branchCounterList p c) = true ↔ portCounted p ∧ branchCounted c := by
  simp [allCounted, branchCounterList, portCounted, branchCounted, and_assoc]

/-- The parameters of a branch in range, field by field. -/
theorem branchInRange_iff {x : BranchState} : branchInRange x = true ↔
    portInRange x.port = true ∧ branchParamsFine x ∧ x.pendingRate.getD 0 ≤ 6 := by
  simp [branchInRange, branchParamsFine, and_assoc]

/-- What holds of the trunk and of every branch holds of the five groups of counters that READ_COUNTERS names. -/
theorem forall_groups {P : Port → Prop} :
    (∀ p ∈ [Port.trunk, .branch 0, .branch 1, .branch 2, .branch 3], P p) ↔ P .trunk ∧ ∀ b : Branch, P (.branch b) := by
  constructor
  · intro h
    refine ⟨h _ (by simp), fun b => h _ ?_⟩
    revert b
    decide
  · rintro ⟨ht, hb⟩ p -
    cases p with
    | trunk => exact ht
    | branch b => exact hb b

/-- The values of the part are in range exactly when those of each block are. -/
theorem valuesInRange_iff {s : State} : ValuesInRange s ↔ ValuesFine s := by
  unfold ValuesInRange ParamsInRange CountersBounded BanksLawful
  rw [forall_groups]
  constructor
  · rintro ⟨⟨hm, hr1, hr2, hh1, hh2, hl, htp, hts, hb⟩, ⟨⟨hct, hcb⟩, hhits, hslots⟩, htag, hpool, hlaw⟩
    obtain ⟨htc1, htc2⟩ := allCounted_trunk.mp hct
    refine ⟨⟨hm, hr1, hr2, hh1, hh2, hl⟩, ⟨⟨htp, htc1⟩, hts, htc2⟩, fun b => ?_, fun j => ⟨(hhits j).1, (hlaw j).1⟩,
      fun j => ⟨(hhits j).2, (hlaw j).2⟩, hslots, htag, hpool⟩
    obtain ⟨hp, hq, hrate⟩ := branchInRange_iff.mp (hb b)
    obtain ⟨hc1, hc2⟩ := allCounted_branch.mp (hcb b)
    exact ⟨⟨hp, hc1⟩, hq, hrate, hc2⟩
  · rintro ⟨⟨hm, hr1, hr2, hh1, hh2, hl⟩, ⟨⟨htp, htc1⟩, hts, htc2⟩, hb, hA, hB, hslots, htag, hpool⟩
    refine ⟨⟨hm, hr1, hr2, hh1, hh2, hl, htp, hts, fun b => ?_⟩, ⟨⟨allCounted_trunk.mpr ⟨htc1, htc2⟩, fun b => ?_⟩,
      fun j => ⟨(hA j).1, (hB j).1⟩, hslots⟩, htag, hpool, fun j => ⟨(hA j).2, (hB j).2⟩⟩
    · obtain ⟨⟨hp, -⟩, hq, hrate, -⟩ := hb b
      exact branchInRange_iff.mpr ⟨hp, hq, hrate⟩
    · obtain ⟨⟨-, hc1⟩, -, -, hc2⟩ := hb b
      exact allCounted_branch.mpr ⟨hc1, hc2⟩

/-- A counter that has counted is within 16 bits (R23, R154). -/
theorem countUp_le {n : Nat} (h : n ≤ Config.counterMax) : countUp n ≤ Config.counterMax := by
  unfold countUp
  split <;> omega

/-- A slot's MISSES that has counted is within 8 bits (R137). -/
theorem missUp_le {n : Nat} (h : n ≤ Config.missesMax) : missUp n ≤ Config.missesMax := by
  unfold missUp
  split <;> omega

/-! ### What is kept -/

/-- What any operation of the part keeps; the flags that are set stay set where `m` says so (R147, R153). -/
structure Keeps (m : Prop) (s t : State) : Prop where
  pending : t.pending = s.pending
  strapA : t.strapA = s.strapA
  strapR : t.strapR = s.strapR
  flags : m → s.flags &&& t.flags = s.flags
  values : ValuesFine s → ValuesFine t
  begun : AssembliesBegun s → AssembliesBegun t

variable {m : Prop}

/-- Flags kept by one operation and by the next are kept by both. -/
theorem flags_kept_trans {x y z : BitVec 12} (h1 : x &&& y = x) (h2 : y &&& z = y) : x &&& z = x := by
  rw [← h1, BitVec.and_assoc, h2]

theorem Keeps.refl (s : State) : Keeps m s s := ⟨rfl, rfl, rfl, fun _ => BitVec.and_self, id, id⟩

theorem Keeps.trans {s t u : State} (h1 : Keeps m s t) (h2 : Keeps m t u) : Keeps m s u :=
  ⟨h2.pending.trans h1.pending, h2.strapA.trans h1.strapA, h2.strapR.trans h1.strapR,
    fun hm => flags_kept_trans (h1.flags hm) (h2.flags hm), h2.values ∘ h1.values, h2.begun ∘ h1.begun⟩

/-- A fold of operations keeps what each of them keeps. -/
theorem Keeps.foldl {α : Type} {f : State → α → State} (hf : ∀ s a, Keeps m s (f s a)) (l : List α) (s : State) :
    Keeps m s (l.foldl f s) := by
  induction l generalizing s with
  | nil => exact .refl s
  | cons a l ih => exact (hf s a).trans (ih (f s a))

/-- What holds of the ports of the trunk and of every branch holds of every port. -/
theorem assembliesBegun_iff {s : State} : AssembliesBegun s ↔
    assemblyBegun s.trunk.port = true ∧ ∀ b : Branch, assemblyBegun s.branches[b].port = true := by
  constructor
  · exact fun h => ⟨h .trunk, fun b => h (.branch b)⟩
  · rintro ⟨ht, hb⟩ p
    cases p with
    | trunk => exact ht
    | branch b => exact hb b

/-! ### The basic updates -/

/-- Records, completions, the active bank and the last command have no range. -/
theorem keeps_of_unranged {s t : State} (h : t = { s with
    records := t.records, completions := t.completions, activeBank := t.activeBank, lastCode := t.lastCode
    lastSeq := t.lastSeq }) : Keeps m s t := by
  rw [h]
  exact ⟨rfl, rfl, rfl, fun _ => BitVec.and_self,
    fun ⟨h1, h2, h3, h4, h5, h6, h7, h8⟩ => ⟨h1, h2, h3, h4, h5, h6, h7, h8⟩, id⟩

theorem modifyBranch_keeps (b : Branch) {f : BranchState → BranchState} (s : State)
    (hf : ∀ x, branchFine x → branchFine (f x) := by intro _ h; exact h)
    (hb : ∀ x, assemblyBegun x.port = true → assemblyBegun (f x).port = true := by intro _ h; exact h) :
    Keeps m s (modifyBranch b f s) := by
  refine ⟨rfl, rfl, rfl, fun _ => BitVec.and_self,
    fun ⟨h1, h2, h3, h4, h5, h6, h7, h8⟩ => ⟨h1, h2, fun d => ?_, h4, h5, h6, h7, h8⟩,
    fun h => assembliesBegun_iff.mpr ⟨(assembliesBegun_iff.mp h).1, fun d => ?_⟩⟩
  · rw [modifyBranch_branches]
    split
    · exact hf _ (h3 d)
    · exact h3 d
  · rw [modifyBranch_branches]
    split
    · exact hb _ ((assembliesBegun_iff.mp h).2 d)
    · exact (assembliesBegun_iff.mp h).2 d

theorem mapBranches_keeps {f : Branch → BranchState → BranchState} (s : State)
    (hf : ∀ b x, branchFine x → branchFine (f b x))
    (hb : ∀ b x, assemblyBegun x.port = true → assemblyBegun (f b x).port = true) : Keeps m s (mapBranches f s) := by
  refine ⟨rfl, rfl, rfl, fun _ => BitVec.and_self,
    fun ⟨h1, h2, h3, h4, h5, h6, h7, h8⟩ => ⟨h1, h2, fun d => ?_, h4, h5, h6, h7, h8⟩,
    fun h => assembliesBegun_iff.mpr ⟨(assembliesBegun_iff.mp h).1, fun d => ?_⟩⟩
  · rw [mapBranches_branches]
    exact hf d _ (h3 d)
  · rw [mapBranches_branches]
    exact hb d _ ((assembliesBegun_iff.mp h).2 d)

theorem modifyTrunk_keeps {f : Trunk → Trunk} (s : State)
    (hf : ∀ x, trunkFine x → trunkFine (f x) := by intro _ h; exact h)
    (hb : ∀ x, assemblyBegun x.port = true → assemblyBegun (f x).port = true := by intro _ h; exact h) :
    Keeps m s (modifyTrunk f s) :=
  ⟨rfl, rfl, rfl, fun _ => BitVec.and_self,
    fun ⟨h1, h2, h3, h4, h5, h6, h7, h8⟩ => ⟨h1, hf _ h2, h3, h4, h5, h6, h7, h8⟩,
    fun h => assembliesBegun_iff.mpr ⟨hb _ (assembliesBegun_iff.mp h).1, (assembliesBegun_iff.mp h).2⟩⟩

theorem modifyRecord_keeps (i : RecordIndex) (f : Record → Record) (s : State) : Keeps m s (modifyRecord i f s) :=
  keeps_of_unranged rfl

/-- A change of the slots keeps what each slot's change keeps. -/
theorem slots_keeps {s : State} {v : Vector Slot Config.slotCount}
    (hv : ∀ k : SlotIndex, slotFine s.slots[k] → slotFine v[k]) : Keeps m s { s with slots := v } :=
  ⟨rfl, rfl, rfl, fun _ => BitVec.and_self,
    fun ⟨h1, h2, h3, h4, h5, h6, h7, h8⟩ => ⟨h1, h2, h3, h4, h5, fun k => hv k (h6 k), h7, h8⟩, id⟩

theorem modifySlot_keeps (k : SlotIndex) {f : Slot → Slot} (s : State)
    (hf : ∀ x, slotFine x → slotFine (f x) := by intro _ h; exact h) : Keeps m s (modifySlot k f s) := by
  refine slots_keeps fun j hj => ?_
  rw [updateAt_get]
  split
  · exact hf _ hj
  · exact hj

theorem modifyPort_keeps (p : Port) {f : PortState → PortState} (s : State)
    (hf : ∀ q, portFine q → portFine (f q) := by intro _ h; exact h)
    (hb : ∀ q, assemblyBegun q = true → assemblyBegun (f q) = true := by intro _ h; exact h) :
    Keeps m s (modifyPort p f s) := by
  cases p with
  | trunk =>
    exact modifyTrunk_keeps (f := fun x => { x with port := f x.port }) s
      (fun _ ⟨h1, h2, h3⟩ => ⟨hf _ h1, h2, h3⟩) fun x => hb x.port
  | branch b =>
    exact modifyBranch_keeps b (f := fun x => { x with port := f x.port }) s
      (fun _ ⟨h1, h2, h3, h4⟩ => ⟨hf _ h1, h2, h3, h4⟩) fun x => hb x.port

/-- A change of a port that leaves its receive side leaves every open frame its address character. -/
theorem modifyPort_begun (p : Port) {f : PortState → PortState} (s : State)
    (hb : ∀ q, assemblyBegun q = true → assemblyBegun (f q) = true) (hs : AssembliesBegun s) :
    AssembliesBegun (modifyPort p f s) := by
  intro r
  by_cases hr : r = p
  · subst hr
    rw [modifyPort_port]
    exact hb _ (hs r)
  · rw [modifyPort_other _ _ hr]
    exact hs r

theorem modifyPortCounters_keeps (p : Port) {f : PortCounters → PortCounters} (s : State)
    (hf : ∀ c, portCounted c → portCounted (f c)) : Keeps m s (modifyPortCounters p f s) :=
  modifyPort_keeps p s fun _ ⟨h1, h2⟩ => ⟨h1, hf _ h2⟩

theorem modifyTrunkCounters_keeps {f : TrunkCounters → TrunkCounters} (s : State)
    (hf : ∀ c, trunkCounted c → trunkCounted (f c)) : Keeps m s (modifyTrunkCounters f s) :=
  modifyTrunk_keeps s fun _ ⟨h1, h2, h3⟩ => ⟨h1, h2, hf _ h3⟩

theorem modifyBranchCounters_keeps (b : Branch) {f : BranchCounters → BranchCounters} (s : State)
    (hf : ∀ c, branchCounted c → branchCounted (f c)) : Keeps m s (modifyBranchCounters b f s) :=
  modifyBranch_keeps b s fun _ ⟨h1, h2, h3, h4⟩ => ⟨h1, h2, h3, hf _ h4⟩

/-- The entries of a bank of fine values are fine. -/
theorem ValuesFine.bank {s : State} (h : ValuesFine s) (k : Bank) (j : Fin Config.entryCount) :
    entryFine (s.bank k)[j] := by
  cases k with
  | a => exact h.bankA j
  | b => exact h.bankB j

theorem setBank_keeps (k : Bank) {v : Vector RouteEntry Config.entryCount} (s : State)
    (hv : (∀ k (j : Fin Config.entryCount), entryFine (s.bank k)[j]) → ∀ j : Fin Config.entryCount, entryFine v[j]) :
    Keeps m s (setBank k v s) := by
  cases k with
  | a =>
    exact ⟨rfl, rfl, rfl, fun _ => BitVec.and_self, fun h => { h with bankA := hv h.bank }, id⟩
  | b =>
    exact ⟨rfl, rfl, rfl, fun _ => BitVec.and_self, fun h => { h with bankB := hv h.bank }, id⟩

theorem modifyEntry_keeps (k : Bank) (j : Fin Config.entryCount) {f : RouteEntry → RouteEntry} (s : State)
    (hf : ∀ e, entryFine e → entryFine (f e)) : Keeps m s (modifyEntry k j f s) := by
  refine setBank_keeps k s fun h i => ?_
  rw [updateAt_get]
  split
  · exact hf _ (h k i)
  · exact h k i

theorem raise_keeps (f : Flag) (s : State) : Keeps m s (raise f s) := by
  refine ⟨rfl, rfl, rfl, fun _ => ?_, fun ⟨h1, h2, h3, h4, h5, h6, h7, h8⟩ => ⟨h1, h2, h3, h4, h5, h6, h7, h8⟩, id⟩
  rw [raise_flags]
  ext i hi
  simp only [BitVec.getElem_and, BitVec.getElem_or]
  cases s.flags[i] <;> rfl

/-- A change of the pool keeps what the pool's form keeps. -/
theorem buffers_keeps {s t : State} (ht : t = { s with buffers := t.buffers }) (h : PoolClean s → PoolClean t) :
    Keeps m s t := by
  refine ⟨?_, ?_, ?_, fun _ => ?_, fun ⟨h1, h2, h3, h4, h5, h6, h7, h8⟩ => ?_, fun hs => ?_⟩
  any_goals rw [ht]
  · exact BitVec.and_self
  · exact ⟨h1, h2, h3, h4, h5, h6, h7, by have := h h8; rw [ht] at this; exact this⟩
  · exact hs

theorem returnBuffer_keeps (h : Holder) (s : State) : Keeps m s (returnBuffer h s) :=
  buffers_keeps rfl fun hs => hs.returnBuffer h

theorem handOver_keeps (h : Holder) {g : Holder} (s : State) (hg : g ≠ .free := by simp) :
    Keeps m s (handOver h g s) := buffers_keeps rfl fun hs => hs.handOver h hg

theorem writeBuffer_keeps {h : Holder} (chars : List Byte) (s : State) (hh : h ≠ .free := by simp) :
    Keeps m s (writeBuffer h chars s) := buffers_keeps rfl fun hs => hs.writeBuffer hh chars

theorem claimBuffer_keeps {h : Holder} (chars : List Byte) (s : State) (hh : h ≠ .free := by simp) :
    Keeps m s (claimBuffer h chars s) := by
  unfold claimBuffer
  cases hl : lowestFreeBuffer s with
  | none => exact .refl s
  | some i =>
    have hclaim : Keeps m s { s with buffers := updateAt s.buffers i fun _ => { holder := h, chars := chars } } := by
      refine buffers_keeps rfl fun hs j => ?_
      rw [updateAt_get]
      split
      · exact fun hf => absurd hf hh
      · exact hs j
    dsimp only
    split
    · exact hclaim.trans (raise_keeps _ _)
    · exact hclaim

/-! ### The shared operations -/

theorem endIdleStalls_keeps (s : State) : Keeps m s (endIdleStalls s) := by
  refine mapBranches_keeps s (fun b x h => ?_) fun b x h => ?_ <;> split <;> exact h

theorem leaveQueues_keeps (i : RecordIndex) (s : State) : Keeps m s (leaveQueues i s) :=
  mapBranches_keeps s (fun _ _ h => h) fun _ _ h => h

theorem freeRecord_keeps (i : RecordIndex) (s : State) : Keeps m s (freeRecord i s) :=
  ((returnBuffer_keeps _ s).trans (returnBuffer_keeps _ _)).trans <| (leaveQueues_keeps i _).trans <|
    (keeps_of_unranged (t := { leaveQueues i (returnBuffer (.answer i) (returnBuffer (.request i) s)) with
      completions := s.completions.filter fun j => j != i }) rfl).trans <|
    (modifyRecord_keeps i _ _).trans (endIdleStalls_keeps _)

theorem groupLeave_keeps (b : Branch) (i : RecordIndex) (s : State) : Keeps m s (groupLeave b i s) := by
  unfold groupLeave
  dsimp only
  split
  · exact (modifyRecord_keeps i _ s).trans (freeRecord_keeps i _)
  · exact modifyRecord_keeps i _ s

theorem characterEnds_keeps (p : Port) (s : State) : Keeps m s (characterEnds p s) := modifyPort_keeps p s

theorem setRx_keeps (p : Port) {x : RxState} (s : State)
    (hx : ∀ q : PortState, assemblyBegun { q with rx := x } = true) :
    Keeps m s (setRx p x s) := modifyPort_keeps p s (hb := fun q _ => hx q)

theorem countTruncated_keeps (p : Port) (s : State) : Keeps m s (countTruncated p s) :=
  (modifyPortCounters_keeps p s (by rintro _ ⟨h1, h2, h3, h4, h5⟩; exact ⟨h1, h2, h3, countUp_le h4, h5⟩)).trans
  (raise_keeps _ _)

theorem returnAssembly_keeps (p : Port) (s : State) : Keeps m s (returnAssembly p s) := by
  cases p with
  | trunk => exact returnBuffer_keeps _ s
  | branch b => exact .refl s

theorem truncateOpen_keeps (p : Port) (s : State) : Keeps m s (truncateOpen p s) := by
  unfold truncateOpen
  split
  · exact .refl s
  · exact setRx_keeps p s fun _ => rfl
  · exact ((setRx_keeps p s fun _ => rfl).trans (countTruncated_keeps p _)).trans (returnAssembly_keeps p _)

theorem enterLead_keeps (p : Port) (f : TxFrame) (s : State) : Keeps m s (enterLead p f s) := modifyPort_keeps p s

theorem abortPort_keeps (p : Port) (s : State) : Keeps m s (abortPort p s) :=
  modifyPort_keeps p s (hb := fun _ _ => rfl)

/-- A port under a RATE code is fine when the code is one. -/
theorem portFine_rate {q : PortState} {code : Nat} (hc : code ≤ 6) (sync busy : Bool) (h : portFine q) :
    portFine { q with rate := code, synchronised := sync, charInProgress := busy } := by
  obtain ⟨hr, hc'⟩ := h
  refine ⟨?_, hc'⟩
  unfold portInRange at hr ⊢
  simp only [Bool.and_eq_true, decide_eq_true_eq] at hr ⊢
  obtain ⟨⟨⟨-, hg⟩, h1⟩, h7⟩ := hr
  exact ⟨⟨⟨hc, hg⟩, h1⟩, h7⟩

/-- A new RATE, behind operations that keep, keeps, the code being one of the seven if the values were in range. -/
theorem Keeps.applyRate {s t : State} (h : Keeps m s t) (p : Port) {code : Nat} (hc : ValuesFine s → code ≤ 6) :
    Keeps m s (applyRate p code t) := by
  have hcut := h.trans (truncateOpen_keeps p t)
  refine ⟨?_, ?_, ?_, fun hm => ?_, fun hs => ?_, fun hs => ?_⟩
  · exact (modifyPort_pending p _ _).trans hcut.pending
  · exact (modifyPort_strapA p _ _).trans hcut.strapA
  · exact (modifyPort_strapR p _ _).trans hcut.strapR
  · rw [Machine.applyRate, modifyPort_flags]
    exact hcut.flags hm
  · exact (modifyPort_keeps (m := m) p _ fun q hq => portFine_rate (hc hs) false false hq).values (hcut.values hs)
  · exact modifyPort_begun p _ (fun _ h => h) (hcut.begun hs)

end Sys2Proof.Machine
end

section
/-!
The operations of the trunk controller, the scheduler, the exchanges and the branch controllers keep the waiting
commands, the straps, the flags, the ranges and the open frames.
-/

namespace Sys2Proof.Machine

-- The gate's memory limit counts every thread's arena, so the declarations are elaborated one after another.
set_option Elab.async false

variable {m : Prop}

/-! ### The trunk controller -/

theorem setOwed_keeps (kind : OwedReply) (s : State) : Keeps m s (setOwed kind s) := modifyTrunk_keeps s

theorem oweReply_keeps (kind : OwedReply) (h : Holder) (s : State) : Keeps m s (oweReply kind h s) :=
  (setOwed_keeps kind s).trans (enterLead_keeps _ _ _)

theorem oweProxy_keeps {h : Holder} (a reason : Byte) (s : State) (hh : h ≠ .free := by simp) :
    Keeps m s (oweProxy h a reason s) :=
  ((writeBuffer_keeps _ s hh).trans (handOver_keeps h _)).trans (oweReply_keeps _ _ _)

theorem emptyLastResponse_keeps (s : State) : Keeps m s (emptyLastResponse s) :=
  (returnBuffer_keeps .lastResponse s).trans (keeps_of_unranged rfl)

/-- A pending setting that has been taken off is none out of range. -/
theorem clearSetting_keeps (s : State) : Keeps m s (modifyTrunk (fun t => { t with pendingSetting := none }) s) :=
  modifyTrunk_keeps s fun _ ⟨h1, _, h3⟩ => ⟨h1, rfl, h3⟩

/-- The management address behind operations that keep, in range if the values were. -/
theorem Keeps.mgmtAddress {s t : State} (h : Keeps m s t) {a : Byte}
    (ha : ValuesFine s → isStationAddress a = true) :
    Keeps m s { t with params := { t.params with mgmtAddress := a } } := by
  refine ⟨h.pending, h.strapA, h.strapR, h.flags, fun hs => ?_, h.begun⟩
  obtain ⟨⟨-, hp⟩, h2, h3, h4, h5, h6, h7, h8⟩ := h.values hs
  exact ⟨⟨ha hs, hp⟩, h2, h3, h4, h5, h6, h7, h8⟩

theorem settlePending_keeps (s : State) : Keeps m s (settlePending s) := by
  unfold settlePending
  split
  · exact .refl s
  · rename_i code hcode
    refine (clearSetting_keeps s).applyRate .trunk fun hs => ?_
    have h := hs.trunk.2.1
    rw [hcode] at h
    exact of_decide_eq_true h
  · rename_i a ha
    refine ((clearSetting_keeps s).mgmtAddress fun hs => ?_).trans (emptyLastResponse_keeps _)
    have h := hs.trunk.2.1
    rw [ha] at h
    exact h

theorem finishOwed_keeps (s : State) : Keeps m s (finishOwed s) :=
  (returnBuffer_keeps _ s).trans (setOwed_keeps _ _)

theorem countSuperseded_keeps (s : State) :
    Keeps m s (modifyTrunkCounters (fun c => { c with superseded := countUp c.superseded }) s) :=
  modifyTrunkCounters_keeps s fun _ ⟨h1, h2, h3, h4, h5, h6⟩ => ⟨h1, h2, countUp_le h3, h4, h5, h6⟩

theorem supersedeOwed_keeps (s : State) : Keeps m s (supersedeOwed s) := by
  unfold supersedeOwed
  split
  · exact .refl s
  · exact (setOwed_keeps _ s).trans (countSuperseded_keeps _)
  all_goals exact ((abortPort_keeps .trunk s).trans (finishOwed_keeps _)).trans (countSuperseded_keeps _)

theorem supersedeRecord_keeps (s : State) : Keeps m s (supersedeRecord s) := by
  unfold supersedeRecord
  split
  · exact .refl s
  · split
    · exact freeRecord_keeps _ s
    · exact modifyRecord_keeps _ _ s

theorem supersede_keeps (s : State) : Keeps m s (supersede s) :=
  ((supersedeOwed_keeps s).trans (supersedeRecord_keeps _)).trans (settlePending_keeps _)

theorem transmissionComplete_keeps (p : Port) (s : State) : Keeps m s (transmissionComplete p s) :=
  modifyPort_keeps p s (by rintro _ ⟨h0, h1, h2, h3, h4, h5⟩; exact ⟨h0, h1, countUp_le h2, h3, h4, h5⟩)
    fun _ _ => rfl

theorem transmissionContended_keeps (p : Port) (s : State) : Keeps m s (transmissionContended p s) :=
  (modifyPort_keeps p s (by rintro _ ⟨h0, h1, h2, h3, h4, h5⟩; exact ⟨h0, h1, h2, h3, h4, countUp_le h5⟩)
    (by exact fun _ _ => rfl)).trans (raise_keeps _ _)

theorem trunkSent_keeps (s : State) : Keeps m s (trunkSent s) :=
  ((transmissionComplete_keeps .trunk s).trans (finishOwed_keeps _)).trans (settlePending_keeps _)

theorem trunkContended_keeps (s : State) : Keeps m s (trunkContended s) :=
  ((transmissionContended_keeps .trunk s).trans (finishOwed_keeps _)).trans (settlePending_keeps _)

/-! ### The poll scheduler -/

theorem slotMiss_keeps (k : SlotIndex) (s : State) : Keeps m s (slotMiss k s) :=
  modifySlot_keeps k s fun _ ⟨h1, h2, h3⟩ => ⟨h1, missUp_le h2, h3⟩

theorem slotSkip_keeps (k : SlotIndex) (b : Branch) (s : State) : Keeps m s (slotSkip k b s) :=
  (slotMiss_keeps k s).trans (modifyBranchCounters_keeps b _ fun _ ⟨h1, h2, h3, h4, h5, h6, h7, h8, h9⟩ =>
    ⟨h1, h2, h3, h4, h5, h6, h7, countUp_le h8, h9⟩)

theorem slotOverrun_keeps (k : SlotIndex) (s : State) : Keeps m s (slotOverrun k s) :=
  (modifySlot_keeps k s (by rintro _ ⟨h1, h2, h3⟩; exact ⟨countUp_le h1, h2, h3⟩)).trans (raise_keeps _ _)

theorem slotExpire_keeps (k : SlotIndex) (s : State) : Keeps m s (slotExpire k s) := by
  unfold slotExpire
  split
  · exact .refl s
  · rename_i c _
    have hload : Keeps m s (modifySlot k (fun x => { x with countdown := c.period }) s) := modifySlot_keeps k s
    dsimp only
    split
    · exact .refl s
    · exact .refl s
    · split
      · exact hload.trans (modifySlot_keeps k _)
      · exact hload.trans (slotSkip_keeps k _ _)
    all_goals exact hload.trans (slotOverrun_keeps k _)

theorem slotExpiryTaken_keeps (k : SlotIndex) (s : State) : Keeps m s (slotExpiryTaken k s) := by
  unfold slotExpiryTaken
  split
  · exact .refl s
  · exact slotExpire_keeps k s

theorem slotLeavePoll_keeps (k : SlotIndex) (s : State) : Keeps m s (slotLeavePoll k s) := by
  unfold slotLeavePoll
  split
  any_goals exact modifySlot_keeps k s
  all_goals exact .refl s

theorem replaceSnapshot_keeps (k : SlotIndex) (b : Branch) (s : State) : Keeps m s (replaceSnapshot k b s) :=
  ((returnBuffer_keeps _ s).trans (handOver_keeps _ _)).trans
    (modifySlot_keeps k _ fun _ ⟨h1, _, _⟩ => ⟨h1, Nat.zero_le _, Nat.zero_le _⟩)

theorem pollEnds_keeps (k : SlotIndex) (b : Branch) (answered : Bool) (s : State) :
    Keeps m s (pollEnds k b answered s) := by
  unfold pollEnds
  refine Keeps.trans ?_ (slotLeavePoll_keeps k _)
  split
  · exact replaceSnapshot_keeps k b s
  · exact slotMiss_keeps k s

theorem abandonDuePolls_keeps (b : Branch) (s : State) : Keeps m s (abandonDuePolls b s) := by
  refine slots_keeps fun k hk => ?_
  rw [tableOf_get]
  split
  · obtain ⟨h1, h2, h3⟩ := hk
    exact ⟨h1, missUp_le h2, h3⟩
  · exact hk

theorem discardSnapshot_keeps (k : SlotIndex) (s : State) : Keeps m s (discardSnapshot k s) :=
  (returnBuffer_keeps _ s).trans
    (modifySlot_keeps k _ fun _ _ => ⟨Nat.zero_le _, Nat.zero_le _, Nat.zero_le _⟩)

/-! ### The exchanges -/

theorem noteOutcome_keeps (o : ExchangeOutcome) (s : State) : Keeps m s (noteOutcome o s) := by
  cases o with
  | noAnswer | badAnswer => exact raise_keeps _ s
  | answered | contention | branchOff => exact .refl s

theorem dropLateAnswer_keeps (b : Branch) (o : ExchangeOutcome) (s : State) : Keeps m s (dropLateAnswer b o s) := by
  unfold dropLateAnswer
  split
  · exact returnBuffer_keeps _ s
  · exact .refl s

theorem answerTransparent_keeps (i : RecordIndex) (b : Branch) (s : State) : Keeps m s (answerTransparent i b s) :=
  ((handOver_keeps _ s).trans (writeBuffer_keeps _ _)).trans <|
    ((handOver_keeps _ _).trans (oweReply_keeps _ _ _)).trans (freeRecord_keeps i _)

theorem failTransparent_keeps (i : RecordIndex) (o : ExchangeOutcome) (s : State) :
    Keeps m s (failTransparent i o s) := by
  unfold failTransparent
  dsimp only
  refine Keeps.trans ?_ (freeRecord_keeps i _)
  split
  · exact oweProxy_keeps _ _ s
  · exact setOwed_keeps _ s

theorem settleTransparent_keeps (i : RecordIndex) (b : Branch) (o : ExchangeOutcome) (s : State) :
    Keeps m s (settleTransparent i b o s) := by
  unfold settleTransparent
  split
  · exact (dropLateAnswer_keeps b o s).trans (freeRecord_keeps i _)
  · split
    · exact answerTransparent_keeps i b s
    · exact failTransparent_keeps i o s

theorem endDeferred_keeps (i : RecordIndex) (b : Branch) (o : ExchangeOutcome) (s : State) :
    Keeps m s (endDeferred i b o s) := by
  unfold endDeferred
  dsimp only
  have hanswer : Keeps m s (if o = .answered then
      handOver (.branchAnswer b) (.answer i) (returnBuffer (.request i) s) else returnBuffer (.request i) s) := by
    split
    · exact (returnBuffer_keeps _ s).trans (handOver_keeps _ _)
    · exact returnBuffer_keeps _ s
  exact ((hanswer.trans (modifyRecord_keeps i _ _)).trans
    ((leaveQueues_keeps i _).trans (keeps_of_unranged rfl))).trans (raise_keeps _ _)

theorem settleDeferred_keeps (i : RecordIndex) (b : Branch) (o : ExchangeOutcome) (s : State) :
    Keeps m s (settleDeferred i b o s) := by
  unfold settleDeferred
  split
  · exact (dropLateAnswer_keeps b o s).trans (freeRecord_keeps i _)
  · exact endDeferred_keeps i b o s

theorem settleCyclic_keeps (i : RecordIndex) (b : Branch) (o : ExchangeOutcome) (s : State) :
    Keeps m s (settleCyclic i b o s) := by
  unfold settleCyclic
  split
  · exact freeRecord_keeps i s
  · exact (pollEnds_keeps _ b _ s).trans (freeRecord_keeps i _)

theorem fixOutcome_keeps (i : RecordIndex) (b : Branch) (o : ExchangeOutcome) (s : State) :
    Keeps m s (fixOutcome i b o s) := by
  unfold fixOutcome
  split
  · exact (noteOutcome_keeps o s).trans (settleTransparent_keeps i b o _)
  · exact (noteOutcome_keeps o s).trans (settleDeferred_keeps i b o _)
  · exact (noteOutcome_keeps o s).trans (settleCyclic_keeps i b o _)
  all_goals exact .refl s

theorem retryRecord_keeps (i : RecordIndex) (b : Branch) (s : State) : Keeps m s (retryRecord i b s) :=
  (modifyRecord_keeps i _ s).trans (modifyBranch_keeps b _)

theorem settleAttempt_keeps (i : RecordIndex) (b : Branch) (o : ExchangeOutcome) (s : State) :
    Keeps m s (settleAttempt i b o s) := by
  unfold settleAttempt
  dsimp only
  split
  · exact fixOutcome_keeps i b o s
  · exact retryRecord_keeps i b s

theorem countUncollected_keeps (b : Branch) (s : State) :
    Keeps m s (modifyBranchCounters b (fun c => { c with uncollected := countUp c.uncollected }) s) :=
  modifyBranchCounters_keeps b s fun _ ⟨h1, h2, h3, h4, h5, h6, h7, h8, h9⟩ =>
    ⟨h1, h2, h3, h4, h5, h6, h7, h8, countUp_le h9⟩

theorem holdExpire_keeps (i : RecordIndex) (s : State) : Keeps m s (holdExpire i s) := by
  unfold holdExpire
  split
  · dsimp only
    refine Keeps.trans ?_ ((raise_keeps _ _).trans (freeRecord_keeps i _))
    split
    · exact countUncollected_keeps _ s
    · exact .refl s
  · exact .refl s

/-! ### The branch controllers -/

theorem applyPendingRate_keeps (b : Branch) (s : State) : Keeps m s (applyPendingRate b s) := by
  unfold applyPendingRate
  split
  · exact .refl s
  · rename_i code hcode
    refine Keeps.applyRate (modifyBranch_keeps b (f := fun x => { x with pendingRate := none }) s
      fun _ ⟨h1, h2, _, h4⟩ => ⟨h1, h2, Nat.zero_le 6, h4⟩) (.branch b)
      fun hs => ?_
    have h := (hs.branches b).2.2.1
    rw [hcode] at h
    exact h

theorem setStatus_keeps (b : Branch) (x : BranchStatus) (s : State) : Keeps m s (setStatus b x s) :=
  modifyBranch_keeps b s

theorem enterIdle_keeps (b : Branch) (s : State) : Keeps m s (enterIdle b s) :=
  (applyPendingRate_keeps b s).trans (setStatus_keeps b _ _)

theorem settleBranchOff_keeps (b : Branch) (s : State) (i : RecordIndex) : Keeps m s (settleBranchOff b s i) := by
  unfold settleBranchOff
  split
  · exact groupLeave_keeps b i s
  · exact fixOutcome_keeps i b .branchOff s

theorem settleBranchWork_keeps (b : Branch) (s : State) : Keeps m s (settleBranchWork b s) := by
  unfold settleBranchWork
  dsimp only
  refine Keeps.trans ?_ ((Keeps.foldl (settleBranchOff_keeps b) _ _).trans (modifyBranch_keeps b _))
  split
  · exact settleBranchOff_keeps b s _
  · exact .refl s

theorem leaveService_keeps (b : Branch) (s : State) : Keeps m s (leaveService b s) :=
  ((settleBranchWork_keeps b s).trans (applyPendingRate_keeps b _)).trans
    ((abandonDuePolls_keeps b _).trans (modifyBranch_keeps b _))

theorem enterFault_keeps (b : Branch) (s : State) : Keeps m s (enterFault b s) :=
  ((leaveService_keeps b s).trans (raise_keeps _ _)).trans (modifyBranch_keeps b _)

theorem stopReceive_keeps (b : Branch) (s : State) : Keeps m s (stopReceive b s) :=
  modifyPort_keeps (.branch b) s (hb := fun _ _ => rfl)

theorem disableBranch_keeps (b : Branch) (s : State) : Keeps m s (disableBranch b s) := by
  have hstop : Keeps m s (modifyBranch b (fun x => { x with windowTimer := none }) (stopReceive b s)) :=
    (stopReceive_keeps b s).trans (modifyBranch_keeps b _)
  unfold disableBranch
  split
  · exact .refl s
  · exact (stopReceive_keeps b s).trans (modifyBranch_keeps b _)
  all_goals exact (hstop.trans (returnBuffer_keeps _ _)).trans ((leaveService_keeps b _).trans (setStatus_keeps b _ _))

theorem enableBranch_keeps (b : Branch) (s : State) : Keeps m s (enableBranch b s) := by
  unfold enableBranch
  split
  · exact ((stopReceive_keeps b s).trans (modifyBranch_keeps b _)).trans (enterIdle_keeps b _)
  · exact (modifyBranch_keeps b s).trans (enterIdle_keeps b _)
  all_goals exact .refl s

theorem quarantineExpire_keeps (b : Branch) (s : State) : Keeps m s (quarantineExpire b s) := by
  unfold quarantineExpire
  split
  · exact (modifyBranch_keeps b s).trans (enterIdle_keeps b _)
  · exact .refl s

theorem assign_keeps (b : Branch) (i : RecordIndex) (f : TxFrame) (s : State) : Keeps m s (assign b i f s) :=
  (modifyBranch_keeps b s).trans (enterLead_keeps _ _ _)

theorem setServed_keeps (b : Branch) (x : Served) (s : State) : Keeps m s (setServed b x s) := modifyBranch_keeps b s

theorem grantRecord_keeps (b : Branch) (i : RecordIndex) (s : State) : Keeps m s (grantRecord b i s) :=
  ((claimBuffer_keeps [] s).trans ((modifyBranch_keeps b _).trans (modifyRecord_keeps i _ _))).trans
    (assign_keeps b i _ _)

theorem grantGroup_keeps (b : Branch) (i : RecordIndex) (s : State) : Keeps m s (grantGroup b i s) :=
  ((modifyBranch_keeps b s).trans (modifyRecord_keeps i _ _)).trans (assign_keeps b i _ _)

theorem grantSlot_keeps (b : Branch) (k : SlotIndex) (s : State) : Keeps m s (grantSlot b k s) := by
  unfold grantSlot
  split
  · exact ((claimBuffer_keeps [] s).trans (modifyRecord_keeps _ _ _)).trans
      ((modifySlot_keeps k _).trans (assign_keeps b _ _ _))
  · exact .refl s

theorem tryQueueClass_keeps {b : Branch} {s t : State} (h : tryQueueClass b s = some t) : Keeps m s t := by
  unfold tryQueueClass at h
  split at h
  · simp at h
  · split at h
    · obtain rfl := Option.some.inj h
      exact (grantGroup_keeps b _ s).trans (setServed_keeps b _ _)
    · split at h
      · obtain rfl := Option.some.inj h
        exact (grantRecord_keeps b _ s).trans (setServed_keeps b _ _)
      · simp at h

theorem tryPollClass_keeps {b : Branch} {s t : State} (h : tryPollClass b s = some t) : Keeps m s t := by
  unfold tryPollClass at h
  split at h
  · simp at h
  · split at h
    · obtain rfl := Option.some.inj h
      exact (grantSlot_keeps b _ s).trans (setServed_keeps b _ _)
    · simp at h

theorem tryTransparent_keeps {b : Branch} {s t : State} (h : tryTransparent b s = some t) : Keeps m s t := by
  unfold tryTransparent at h
  split at h
  · simp at h
  · split at h
    · obtain rfl := Option.some.inj h
      exact grantRecord_keeps b _ s
    · simp at h

/-- A grant that the arbiter chooses is that of one of its three classes (R79). -/
theorem chooseGrant_cases {b : Branch} {s t : State} (h : chooseGrant b s = some t) :
    tryTransparent b s = some t ∨ tryQueueClass b s = some t ∨ tryPollClass b s = some t := by
  unfold chooseGrant at h
  split at h
  · rename_i u hu
    exact Or.inl (hu.trans h)
  · split at h <;> rcases Option.or_eq_some_iff.mp h with h | ⟨-, h⟩ <;> simp [h]

theorem chooseGrant_keeps {b : Branch} {s t : State} (h : chooseGrant b s = some t) : Keeps m s t := by
  rcases chooseGrant_cases h with h | h | h
  · exact tryTransparent_keeps h
  · exact tryQueueClass_keeps h
  · exact tryPollClass_keeps h

theorem stallBranch_keeps (b : Branch) (s : State) : Keeps m s (stallBranch b s) := by
  unfold stallBranch
  split
  · exact .refl s
  · exact modifyBranch_keeps b s fun _ ⟨h1, h2, h3, c1, c2, c3, c4, c5, c6, c7, c8, c9⟩ =>
      ⟨h1, h2, h3, c1, c2, c3, c4, c5, c6, countUp_le c7, c8, c9⟩

theorem arbitrate_keeps (b : Branch) (s : State) : Keeps m s (arbitrate b s) := by
  unfold arbitrate
  split
  · split
    · split
      · rename_i t ht
        exact chooseGrant_keeps ht
      · exact stallBranch_keeps b s
    · exact modifyBranch_keeps b s
  · exact .refl s

theorem countAttempt_keeps (i : RecordIndex) (s : State) : Keeps m s (countAttempt i s) := modifyRecord_keeps i _ s

theorem dropAssignment_keeps (b : Branch) (s : State) : Keeps m s (dropAssignment b s) := modifyBranch_keeps b s

theorem sendCompleted_keeps (b : Branch) (s : State) : Keeps m s (sendCompleted b s) := by
  unfold sendCompleted
  dsimp only
  refine Keeps.trans ((transmissionComplete_keeps (.branch b) s).trans
    (modifyBranch_keeps b (f := fun x => { x with contentionRun := 0 }) _)) ?_
  split
  · exact enterIdle_keeps b _
  · rename_i i _
    refine Keeps.trans (countAttempt_keeps i _) ?_
    split
    · exact modifyBranch_keeps b _
    · exact ((groupLeave_keeps b _ _).trans (dropAssignment_keeps b _)).trans (enterIdle_keeps b _)

/-- What contention does to the work that a branch has on line: a station record is settled or retried, a GROUP record
loses the branch, and the assignment is dropped (R84). -/
def contendedWork (b : Branch) (s : State) : State :=
  match s.branches[b].onLine with
  | none => s
  | some i =>
    let s := countAttempt i s
    if isStationKind s.records[i] then
      dropAssignment b (settleAttempt i b .contention (returnBuffer (.branchAnswer b) s))
    else dropAssignment b (groupLeave b i s)

/-- The branch at the end of its transmission in contention, the run counted (R84). -/
def contendedBranch (b : Branch) (s : State) : State :=
  modifyBranch b (fun x => { x with contentionRun := x.contentionRun + 1 }) (transmissionContended (.branch b) s)

/-- Contention on a branch, step by step: the port, the work, and FAULT or IDLE by the run (R84, R94). -/
theorem sendContended_eq (b : Branch) (s : State) : sendContended b s =
    if Config.faultRun ≤ (contendedWork b (contendedBranch b s)).branches[b].contentionRun then
      enterFault b (contendedWork b (contendedBranch b s))
    else enterIdle b (contendedWork b (contendedBranch b s)) := rfl

theorem contendedWork_keeps (b : Branch) (s : State) : Keeps m s (contendedWork b s) := by
  unfold contendedWork
  split
  · exact .refl s
  · rename_i i _
    refine Keeps.trans (countAttempt_keeps i _) ?_
    dsimp only
    split
    · exact ((returnBuffer_keeps _ _).trans (settleAttempt_keeps _ b _ _)).trans (dropAssignment_keeps b _)
    · exact (groupLeave_keeps b _ _).trans (dropAssignment_keeps b _)

theorem sendContended_keeps (b : Branch) (s : State) : Keeps m s (sendContended b s) := by
  have hwork : Keeps m s (contendedWork b (contendedBranch b s)) :=
    ((transmissionContended_keeps (.branch b) s).trans (modifyBranch_keeps b _)).trans (contendedWork_keeps b _)
  rw [sendContended_eq]
  split
  · exact hwork.trans (enterFault_keeps b _)
  · exact hwork.trans (enterIdle_keeps b _)

theorem countResult_keeps (b : Branch) (o : ExchangeOutcome) (late : Bool) (s : State) :
    Keeps m s (countResult b o late s) := by
  refine modifyBranchCounters_keeps b s fun _ ⟨h1, h2, h3, h4, h5, h6⟩ => ?_
  cases o with
  | answered =>
    cases late with
    | true => exact ⟨h1, h2, h3, h4, countUp_le h5, h6⟩
    | false => exact ⟨countUp_le h1, h2, h3, h4, h5, h6⟩
  | noAnswer => exact ⟨h1, countUp_le h2, h3, h4, h5, h6⟩
  | badAnswer => exact ⟨h1, h2, countUp_le h3, h4, h5, h6⟩
  | contention | branchOff => exact ⟨h1, h2, h3, h4, h5, h6⟩

theorem attemptEnds_keeps (b : Branch) (o : ExchangeOutcome) (s : State) : Keeps m s (attemptEnds b o s) := by
  unfold attemptEnds
  dsimp only
  refine Keeps.trans (modifyBranch_keeps b (f := fun x => { x with windowTimer := none }) s) ?_
  split
  · exact enterIdle_keeps b _
  · refine Keeps.trans ?_ (((settleAttempt_keeps _ b o _).trans (dropAssignment_keeps b _)).trans (enterIdle_keeps b _))
    split
    · exact countResult_keeps b o _ _
    · exact (countResult_keeps b o _ _).trans (returnBuffer_keeps _ _)

theorem answerGood_keeps (b : Branch) (a : Byte) (s : State) : Keeps m s (answerGood b a s) := by
  unfold answerGood
  split
  · exact enterIdle_keeps b s
  · split
    · exact attemptEnds_keeps b _ s
    · exact (modifyBranchCounters_keeps b s (by
        rintro _ ⟨h1, h2, h3, h4, h5⟩; exact ⟨h1, h2, h3, countUp_le h4, h5⟩)).trans (attemptEnds_keeps b _ _)

theorem windowExpire_keeps (b : Branch) (s : State) : Keeps m s (windowExpire b s) := by
  unfold windowExpire
  split
  · exact attemptEnds_keeps b _ s
  · exact .refl s

end Sys2Proof.Machine
end

section
/-!
The commands, the classifier, the line ports and the timebase keep the waiting commands, the straps, the flags, the
ranges and the open frames; only CLEAR_EVENTS clears a flag (R153).
-/

namespace Sys2Proof.Machine

-- The gate's memory limit counts every thread's arena, so the declarations are elaborated one after another.
set_option Elab.async false

variable {m : Prop}

/-! ### Routing -/

/-- An entry whose HITS has changed within 16 bits is fine when it was valid or empty before. -/
theorem entryFine_hits {e : RouteEntry} {n : Nat} (hn : n ≤ Config.counterMax) (hv : e.valid = true ∨ n = 0)
    (h : entryFine e) : entryFine { e with hits := n } := by
  refine ⟨hn, ?_⟩
  obtain ⟨-, hlaw⟩ := h
  unfold entryLawful at hlaw ⊢
  dsimp only
  split
  · rename_i hvalid
    rw [if_pos hvalid] at hlaw
    exact hlaw
  · rename_i hinvalid
    rw [if_neg hinvalid] at hlaw
    obtain rfl := hv.resolve_left hinvalid
    rw [eq_of_beq hlaw]
    rfl

/-- An entry that a lookup selects is valid (R26). -/
theorem valid_of_lookup {s : State} {a : Byte} {j : Fin Config.entryCount} (h : lookup s a = some j) :
    (activeEntry s j).valid = true := by
  have hmatch := (lookup_eq_some.mp h).1
  unfold entryMatches at hmatch
  simp only [Bool.and_eq_true] at hmatch
  exact hmatch.1.1

theorem hitEntry_keeps {j : Fin Config.entryCount} (s : State) (hj : (activeEntry s j).valid = true) :
    Keeps m s (hitEntry j s) := by
  refine setBank_keeps _ s fun h i => ?_
  rw [updateAt_get]
  split
  · rename_i hij
    subst hij
    exact entryFine_hits (countUp_le (h _ _).1) (Or.inl hj) (h _ _)
  · exact h _ i

theorem enqueueGroup_keeps (x : BranchSet) (i : RecordIndex) (s : State) : Keeps m s (enqueueGroup x i s) := by
  refine mapBranches_keeps s (fun b x h => ?_) fun b x h => ?_ <;> split <;> exact h

/-! ### The commands -/

/-- A stored parameter is in range when the value is in that of the parameter (section 9.3). -/
theorem storeParam_keeps {q : Param} {v : Word} (s : State) (hv : paramInRange q v = true) :
    Keeps m s (storeParam q v s) := by
  have hparams : ∀ p : GlobalParams, (paramsFine s.params → paramsFine p) → Keeps m s { s with params := p } :=
    fun p hp => ⟨rfl, rfl, rfl, fun _ => BitVec.and_self,
      fun ⟨h1, h2, h3, h4, h5, h6, h7, h8⟩ => ⟨hp h1, h2, h3, h4, h5, h6, h7, h8⟩, id⟩
  unfold paramInRange at hv
  unfold storeParam
  cases q with
  | mgmtAddress =>
    refine modifyTrunk_keeps s fun _ ⟨h1, _, h3⟩ => ⟨h1, ?_, h3⟩
    simp only [Bool.and_eq_true, decide_eq_true_eq] at hv
    have hlow : (lowByte v).toNat = v.toNat := by
      unfold lowByte
      rw [BitVec.extractLsb'_toNat]
      omega
    unfold settingInRange isStationAddress
    simp only [Bool.and_eq_true, decide_eq_true_eq, hlow]
    exact hv
  | trunkReserve =>
    simp only [Bool.and_eq_true, decide_eq_true_eq] at hv
    exact hparams _ fun ⟨h1, _, _, h4⟩ => ⟨h1, hv.1, hv.2, h4⟩
  | holdTime =>
    simp only [Bool.and_eq_true, decide_eq_true_eq] at hv
    exact hparams _ fun ⟨h1, h2, h3, _, _, h6⟩ => ⟨h1, h2, h3, hv.1, hv.2, h6⟩
  | bufLowMark => exact hparams _ fun ⟨h1, h2, h3, h4, h5, _⟩ => ⟨h1, h2, h3, h4, h5, of_decide_eq_true hv⟩
  | eventEnable => exact hparams _ id
  | rate p =>
    have hcode := of_decide_eq_true hv
    cases p with
    | trunk => exact modifyTrunk_keeps s fun _ ⟨h1, _, h3⟩ => ⟨h1, hv, h3⟩
    | branch b =>
      show Keeps m s (writeBranchRate b v.toNat s)
      unfold writeBranchRate
      split
      any_goals exact (Keeps.refl s).applyRate _ fun _ => hcode
      all_goals exact modifyBranch_keeps b s fun _ ⟨h1, h2, _, h4⟩ => ⟨h1, h2, hcode, h4⟩
  | guard p =>
    refine modifyPort_keeps p s fun q ⟨hq, hc⟩ => ⟨?_, hc⟩
    unfold portInRange at hq ⊢
    simp only [Bool.and_eq_true] at hq ⊢
    exact ⟨⟨⟨hq.1.1.1, hv⟩, hq.1.2⟩, hq.2⟩
  | charTimeout p =>
    rw [Bool.and_eq_true] at hv
    refine modifyPort_keeps p s fun q ⟨hq, hc⟩ => ⟨?_, hc⟩
    unfold portInRange at hq ⊢
    simp only [Bool.and_eq_true] at hq ⊢
    exact ⟨⟨hq.1.1, hv.1⟩, hv.2⟩
  | responseWindow b =>
    simp only [Bool.and_eq_true, decide_eq_true_eq] at hv
    exact modifyBranch_keeps b s fun _ ⟨h1, ⟨_, _, h2⟩, h3⟩ => ⟨h1, ⟨hv.1, hv.2, h2⟩, h3⟩
  | queueLimit b =>
    simp only [Bool.and_eq_true, decide_eq_true_eq] at hv
    exact modifyBranch_keeps b s fun _ ⟨h1, ⟨p1, p2, _, _, p5⟩, h3⟩ => ⟨h1, ⟨p1, p2, hv.1, hv.2, p5⟩, h3⟩
  | quarantine b =>
    exact modifyBranch_keeps b s fun _ ⟨h1, ⟨p1, p2, p3, p4, _⟩, h3⟩ =>
      ⟨h1, ⟨p1, p2, p3, p4, of_decide_eq_true hv⟩, h3⟩

theorem cmdSetParam_keeps (index : Byte) (v : Word) (s : State) : Keeps m s (cmdSetParam index v s).state := by
  unfold cmdSetParam
  split
  · exact .refl s
  · split
    · exact .refl s
    · rename_i hv
      split
      · exact .refl s
      · exact storeParam_keeps s (by simpa using hv)

/-- An entry whose HITS is cleared stays lawful. -/
theorem entryFine_cleared {e : RouteEntry} (h : entryFine e) : entryFine { e with hits := 0 } :=
  entryFine_hits (Nat.zero_le _) (Or.inr rfl) h

theorem cmdReadEntry_keeps (bank index clear : Byte) (s : State) :
    Keeps m s (cmdReadEntry bank index clear s).state := by
  unfold cmdReadEntry
  split
  · dsimp only [okay]
    split
    · exact modifyEntry_keeps _ _ s fun _ h => entryFine_cleared h
    · exact .refl s
  · exact .refl s

/-- A set of branches that E3 writes names one branch, or one at least, as E3 does (R183). -/
theorem branches_of_check4 : ∀ e3 : Byte, e3.toNat < 16 →
    (branchCountOf e3 = 1 → (e3.setWidth 4 = 1#4 ∨ e3.setWidth 4 = 2#4 ∨ e3.setWidth 4 = 4#4 ∨ e3.setWidth 4 = 8#4)) ∧
      (branchCountOf e3 ≠ 0 → e3.setWidth 4 ≠ 0#4) := by
  decide

/-- Nine bytes that pass the checks of R41 write a lawful entry. -/
theorem entryFine_of_valid {l : List Byte} (h : entryBytesValid l = true) : entryFine (entryOfBytes l) := by
  unfold entryBytesValid at h
  split at h
  · rename_i e0 e1 e2 e3 e4 e5 e6 e7 e8
    simp only [Bool.and_eq_true] at h
    obtain ⟨⟨⟨h3, h4⟩, h5⟩, h6⟩ := h
    unfold entryCheck3 at h3
    unfold entryCheck4 at h4
    unfold entryCheck5 at h5
    unfold entryCheck6 at h6
    simp only [Bool.and_eq_true, decide_eq_true_eq, Bool.not_eq_true', Bool.and_eq_false_iff, beq_eq_false_iff_ne,
      Bool.or_eq_true, beq_iff_eq] at h3 h4 h6
    obtain ⟨hone, hnone⟩ := branches_of_check4 e3 h4.1
    refine ⟨Nat.zero_le _, ?_⟩
    unfold entryLawful entryOfBytes
    by_cases hk : e0 = 0x00#8
    · rw [if_pos hk] at h4 h5
      have hset := hone (eq_of_beq h4.2)
      have hretries : e7.toNat ≤ 3 := of_decide_eq_true h5
      rcases h6 with h8 | ⟨⟨h8, -⟩, hpass⟩
      · simpa [hk, hretries, h8, or_assoc] using hset
      · simpa [hk, hretries, h8, hpass, or_assoc] using hset
    · rw [if_neg hk] at h4 h5
      have hset := hnone (by simpa using h4.2)
      have hgroup : e0 = 0x01#8 := by bv_omega
      have hdefer : e4 ≠ 0x01#8 := fun e => h3.1.2.elim (fun h => h e) fun h => h hgroup
      have hretries : e7 = 0x00#8 := eq_of_beq h5
      have hnotify : e8 = 0x00#8 := h6.resolve_right fun h => hk h.1.2
      simp only [hk, hdefer, hretries, hnotify]
      by_cases hp : e4 = 0x00#8 <;> simp [hp, hset]
  · simp at h

theorem cmdWriteEntry_keeps (bank index : Byte) (entry : List Byte) (s : State) :
    Keeps m s (cmdWriteEntry bank index entry s).state := by
  unfold cmdWriteEntry
  split
  · split
    · exact .refl s
    · split
      · rename_i hvalid
        exact modifyEntry_keeps _ _ s fun _ _ => entryFine_of_valid hvalid
      · exact .refl s
  · exact .refl s

theorem cmdClearEntry_keeps (bank index : Byte) (s : State) : Keeps m s (cmdClearEntry bank index s).state := by
  unfold cmdClearEntry
  split
  · split
    · exact .refl s
    · exact modifyEntry_keeps _ _ s fun _ _ => ⟨Nat.zero_le _, rfl⟩
  · exact .refl s

theorem cmdCopyBank_keeps (s : State) : Keeps m s (cmdCopyBank s).state := by
  refine setBank_keeps _ s fun h j => ?_
  rw [mapTable_get]
  exact entryFine_cleared (h _ j)

theorem refuseCounted_keeps (r : ResultCode) (s : State) : Keeps m s (refuseCounted r s).state :=
  (modifyTrunkCounters_keeps s (by
    rintro _ ⟨h1, h2, h3⟩; exact ⟨h1, countUp_le h2, h3⟩)).trans (raise_keeps _ _)

/-- The tag after a tag that is not 0 is not 0 (R48). -/
theorem nextTag_ne_zero {t : Byte} (h : t ≠ 0x00#8) : nextTag t ≠ 0x00#8 := by
  unfold nextTag
  split
  · decide
  · bv_omega

/-- A search for a free tag from one that is not 0 comes to one that is not 0 (R48). -/
theorem freeTagFrom_ne_zero (s : State) (fuel : Nat) {t : Byte} (h : t ≠ 0x00#8) : freeTagFrom s fuel t ≠ 0x00#8 := by
  induction fuel generalizing t with
  | zero => exact h
  | succ n ih =>
    unfold freeTagFrom
    split
    · exact ih (nextTag_ne_zero h)
    · exact h

theorem createDeferred_keeps (i : RecordIndex) (a : Byte) (data : List Byte) (e : RouteEntry) (s : State) :
    Keeps m s (createDeferred i a data e s) := by
  have hmade : Keeps m s (modifyRecord i
      (fun _ => deferredRecord (issuedTag s) a (outgoing e a) (stationBranch e) e.retries)
      (claimBuffer (.request i) (mkFrame a data) s)) := (claimBuffer_keeps _ s).trans (modifyRecord_keeps i _ _)
  refine Keeps.trans (t := { modifyRecord i
      (fun _ => deferredRecord (issuedTag s) a (outgoing e a) (stationBranch e) e.retries)
      (claimBuffer (.request i) (mkFrame a data) s) with tagCounter := nextTag (issuedTag s) })
    ⟨hmade.pending, hmade.strapA, hmade.strapR, hmade.flags, fun hs => ?_, hmade.begun⟩ (modifyBranch_keeps _ _)
  exact { hmade.values hs with
    tag := nextTag_ne_zero (freeTagFrom_ne_zero s 255 hs.tag), pool := (hmade.values hs).pool }

theorem submitThrough_keeps (a : Byte) (data : List Byte) (e : RouteEntry) (s : State) :
    Keeps m s (submitThrough a data e s).state := by
  unfold submitThrough
  dsimp only
  repeat' split
  any_goals exact refuseCounted_keeps _ s
  · exact .refl s
  · exact createDeferred_keeps _ a data e s

theorem cmdSubmit_keeps (a : Byte) (data : List Byte) (s : State) : Keeps m s (cmdSubmit a data s).state := by
  unfold cmdSubmit
  split
  · exact .refl s
  · split
    · exact refuseCounted_keeps _ s
    · rename_i j hj
      exact (hitEntry_keeps s (valid_of_lookup hj)).trans (submitThrough_keeps a data _ _)

/-- A record that a collection frees or leaves. -/
theorem collected_keeps (last : Bool) (i : RecordIndex) (s : State) :
    Keeps m s (if last then freeRecord i s else s) := by
  split
  · exact freeRecord_keeps i s
  · exact .refl s

theorem cmdCollect_keeps (tag offset : Byte) (s : State) : Keeps m s (cmdCollect tag offset s).state := by
  unfold cmdCollect
  split
  · exact .refl s
  · dsimp only
    split
    · exact .refl s
    · split
      · exact .refl s
      · exact collected_keeps _ _ s

theorem cmdCollectNext_keeps (offset : Byte) (s : State) : Keeps m s (cmdCollectNext offset s).state := by
  unfold cmdCollectNext
  split
  · exact .refl s
  · split
    · exact .refl s
    · exact collected_keeps _ _ s

theorem cmdCancel_keeps (tag : Byte) (s : State) : Keeps m s (cmdCancel tag s).state := by
  unfold cmdCancel
  split
  · exact .refl s
  · split
    · exact freeRecord_keeps _ s
    · exact modifyRecord_keeps _ _ s
    all_goals exact freeRecord_keeps _ s

theorem cmdPollSet_keeps (slot branch a : Byte) (period : Word) (template : List Byte) (s : State) :
    Keeps m s (cmdPollSet slot branch a period template s).state := by
  unfold cmdPollSet
  repeat' split
  any_goals exact .refl s
  exact (discardSnapshot_keeps _ s).trans (modifySlot_keeps _ _)

theorem cmdPollSetUnset_keeps (slot : Byte) (s : State) : Keeps m s (cmdPollSetUnset slot s).state := by
  unfold cmdPollSetUnset
  repeat' split
  any_goals exact .refl s
  exact (discardSnapshot_keeps _ s).trans (modifySlot_keeps _ _)

theorem cmdPollStart_keeps (slot : Byte) (delay : Word) (s : State) : Keeps m s (cmdPollStart slot delay s).state := by
  unfold cmdPollStart
  split
  · exact .refl s
  · rename_i k _
    split
    any_goals exact .refl s
    split
    · exact .refl s
    · refine (modifySlot_keeps k s (f := fun x => { x with state := .armed, countdown := delay.toNat })).trans ?_
      dsimp only [slotReply, okay]
      split
      · exact slotExpire_keeps k _
      · exact .refl _

theorem stopSlot_keeps (k : SlotIndex) (s : State) : Keeps m s (stopSlot k s) := by
  unfold stopSlot
  split
  any_goals exact (modifySlot_keeps k s).trans (endIdleStalls_keeps _)
  · exact modifySlot_keeps k s
  all_goals exact .refl s

theorem cmdPollStop_keeps (slot : Byte) (s : State) : Keeps m s (cmdPollStop slot s).state := by
  unfold cmdPollStop
  split
  · exact .refl s
  · split
    · exact .refl s
    · exact stopSlot_keeps _ s

theorem cmdPollRead_state (slot : Byte) (s : State) : (cmdPollRead slot s).state = s := by
  unfold cmdPollRead
  split
  · rfl
  · dsimp only
    split <;> rfl

theorem cmdReadSnapshot_state (slot offset : Byte) (s : State) : (cmdReadSnapshot slot offset s).state = s := by
  unfold cmdReadSnapshot
  split
  · rfl
  · dsimp only
    split
    · rfl
    · split
      · rfl
      · split <;> rfl

/-- CLEAR_EVENTS keeps all but the flags it clears (R153). -/
theorem cmdClearEvents_keeps (mask : Word) (s : State) (hm : ¬ m) : Keeps m s (cmdClearEvents mask s).state := by
  unfold cmdClearEvents
  split
  · exact .refl s
  · exact ⟨rfl, rfl, rfl, fun h => absurd h hm, fun ⟨h1, h2, h3, h4, h5, h6, h7, h8⟩ =>
      ⟨h1, h2, h3, h4, h5, h6, h7, h8⟩, id⟩

/-- Counters set to zero are within 16 bits. -/
theorem zero_counted : portCounted .zero ∧ trunkCounted .zero ∧ branchCounted .zero := by
  simp [portCounted, trunkCounted, branchCounted, PortCounters.zero, TrunkCounters.zero, BranchCounters.zero]

theorem clearGroup_keeps (p : Port) (s : State) : Keeps m s (clearGroup p s) := by
  obtain ⟨hp, ht, hb⟩ := zero_counted
  cases p with
  | trunk => exact (modifyPortCounters_keeps .trunk s fun _ _ => hp).trans (modifyTrunkCounters_keeps _ fun _ _ => ht)
  | branch b =>
    exact (modifyPortCounters_keeps (.branch b) s fun _ _ => hp).trans (modifyBranchCounters_keeps b _ fun _ _ => hb)

theorem cmdReadCounters_keeps (port clear : Byte) (s : State) : Keeps m s (cmdReadCounters port clear s).state := by
  unfold cmdReadCounters
  split
  · dsimp only [okay]
    split
    · exact clearGroup_keeps _ s
    · exact .refl s
  · exact .refl s

theorem cmdBranchControl_keeps (branch action : Byte) (s : State) :
    Keeps m s (cmdBranchControl branch action s).state := by
  unfold cmdBranchControl
  split
  · exact .refl s
  · split
    · exact .refl s
    · split
      · exact enableBranch_keeps _ s
      · split
        · exact disableBranch_keeps _ s
        · exact .refl s

/-- What RESTART makes of a branch is fine (R98). -/
theorem branchFine_restart {x : BranchState} (h : branchFine x) : branchFine (restartBranch x) := by
  obtain ⟨⟨hport, -⟩, hparams, hrate, -⟩ := h
  obtain ⟨hp, -, hb⟩ := zero_counted
  unfold restartBranch
  dsimp only
  split
  · exact ⟨⟨hport, hp⟩, hparams, hrate, hb⟩
  · refine ⟨?_, hparams, Nat.zero_le _, hb⟩
    cases hq : x.pendingRate with
    | none => exact ⟨hport, hp⟩
    | some code =>
      rw [hq] at hrate
      exact portFine_rate hrate false false
        (q := { x.port with counters := .zero, tx := .quiet, rx := .hunt }) ⟨hport, hp⟩

/-- What RESTART makes of a branch has no frame open but one of an OFF branch (R98). -/
theorem assemblyBegun_restart {x : BranchState} (h : assemblyBegun x.port = true) :
    assemblyBegun (restartBranch x).port = true := by
  unfold restartBranch
  dsimp only
  split
  · exact h
  · cases x.pendingRate <;> rfl

/-- What RESTART makes of a slot is fine (R146). -/
theorem slotFine_restart (x : Slot) : slotFine (restartSlot x) := by
  unfold restartSlot
  dsimp only
  split <;> exact ⟨Nat.zero_le _, Nat.zero_le _, Nat.zero_le _⟩

theorem restartPart_keeps (s : State) : Keeps m s (restartPart s) := by
  obtain ⟨hp, ht, -⟩ := zero_counted
  refine ⟨rfl, rfl, rfl, fun _ => BitVec.and_self, fun hs => ?_, fun hs => ?_⟩
  · refine ⟨hs.params, ⟨⟨hs.trunk.1.1, hp⟩, hs.trunk.2.1, ht⟩, fun b => ?_, hs.bankA, hs.bankB, fun k => ?_,
      (by decide : (1 : Byte) ≠ 0x00#8), fun i => ?_⟩
    · show branchFine (mapTable restartBranch s.branches)[b]
      rw [mapTable_get]
      exact branchFine_restart (hs.branches b)
    · show slotFine (mapTable restartSlot s.slots)[k]
      rw [mapTable_get]
      exact slotFine_restart _
    · show (mapTable restartBuffer s.buffers)[i].holder = .free → (mapTable restartBuffer s.buffers)[i].chars = []
      rw [mapTable_get]
      unfold restartBuffer
      split
      · exact hs.pool i
      · exact fun _ => rfl
  · refine assembliesBegun_iff.mpr ⟨rfl, fun b => ?_⟩
    show assemblyBegun (mapTable restartBranch s.branches)[b].port = true
    rw [mapTable_get]
    exact assemblyBegun_restart ((assembliesBegun_iff.mp hs).2 b)

/-! ### The management engine -/

/-- SWAP_BANKS and the commands that only report have nothing to lose. -/
theorem cmdSwapBanks_keeps (s : State) : Keeps m s (cmdSwapBanks s).state := keeps_of_unranged rfl

theorem cmdGetParam_state (i : Byte) (s : State) : (cmdGetParam i s).state = s := by
  unfold cmdGetParam
  split <;> rfl

/-- Every command keeps, CLEAR_EVENTS but for the flags (R160). -/
theorem runNamed_keeps (c : CommandCode) (args : List Byte) (s : State) (hm : c = .clearEvents → ¬ m) :
    Keeps m s (runNamed c args s).state := by
  cases c with
  | identify | listPending | readEvents =>
    unfold runNamed
    dsimp only
    split <;> exact .refl s
  | getParam =>
    unfold runNamed
    dsimp only
    split
    · rw [cmdGetParam_state]
      exact .refl s
    · exact .refl s
  | pollRead =>
    unfold runNamed
    dsimp only
    split
    · rw [cmdPollRead_state]
      exact .refl s
    · exact .refl s
  | readSnapshot =>
    unfold runNamed
    dsimp only
    split
    · rw [cmdReadSnapshot_state]
      exact .refl s
    · exact .refl s
  | setParam =>
    unfold runNamed
    dsimp only
    split
    · exact cmdSetParam_keeps _ _ s
    · exact .refl s
  | readEntry =>
    unfold runNamed
    dsimp only
    split
    · exact cmdReadEntry_keeps _ _ _ s
    · exact .refl s
  | writeEntry =>
    unfold runNamed
    dsimp only
    split
    · split
      · exact cmdWriteEntry_keeps _ _ _ s
      · exact .refl s
    · exact .refl s
  | clearEntry =>
    unfold runNamed
    dsimp only
    split
    · exact cmdClearEntry_keeps _ _ s
    · exact .refl s
  | copyBank =>
    unfold runNamed
    dsimp only
    split
    · exact cmdCopyBank_keeps s
    · exact .refl s
  | swapBanks =>
    unfold runNamed
    dsimp only
    split
    · exact cmdSwapBanks_keeps s
    · exact .refl s
  | submit =>
    unfold runNamed
    dsimp only
    split
    · exact cmdSubmit_keeps _ _ s
    · exact .refl s
  | collect =>
    unfold runNamed
    dsimp only
    split
    · exact cmdCollect_keeps _ _ s
    · exact .refl s
  | collectNext =>
    unfold runNamed
    dsimp only
    split
    · exact cmdCollectNext_keeps _ s
    · exact .refl s
  | cancel =>
    unfold runNamed
    dsimp only
    split
    · exact cmdCancel_keeps _ s
    · exact .refl s
  | pollSet =>
    unfold runNamed
    dsimp only
    split
    · exact cmdPollSetUnset_keeps _ s
    · exact cmdPollSet_keeps _ _ _ _ _ s
    · exact .refl s
  | pollStart =>
    unfold runNamed
    dsimp only
    split
    · exact cmdPollStart_keeps _ _ s
    · exact .refl s
  | pollStop =>
    unfold runNamed
    dsimp only
    split
    · exact cmdPollStop_keeps _ s
    · exact .refl s
  | clearEvents =>
    unfold runNamed
    dsimp only
    split
    · exact cmdClearEvents_keeps _ s (hm rfl)
    · exact .refl s
  | readCounters =>
    unfold runNamed
    dsimp only
    split
    · exact cmdReadCounters_keeps _ _ s
    · exact .refl s
  | branchControl =>
    unfold runNamed
    dsimp only
    split
    · exact cmdBranchControl_keeps _ _ s
    · exact .refl s
  | restart =>
    unfold runNamed
    dsimp only
    split
    · exact restartPart_keeps s
    · exact .refl s

/-- The code of CLEAR_EVENTS names it and no other command (section 10.4). -/
theorem commandOf_clearEvents {code : Byte} (h : commandOf code = some .clearEvents) : code = 0x21#8 := by
  have hfound := List.find?_some h
  exact (of_decide_eq_true hfound).symm

theorem runCommand_keeps (code : Byte) (args : List Byte) (s : State) (hm : code = 0x21#8 → ¬ m) :
    Keeps m s (runCommand code args s).state := by
  unfold runCommand
  split
  · exact .refl s
  · rename_i c hc
    refine runNamed_keeps c args s fun e => hm (commandOf_clearEvents ?_)
    rw [hc, e]

/-- Building a response keeps what the reply has kept (R161). -/
theorem Keeps.buildResponse {s : State} {r : Reply} (h : Keeps m s r.state) (code seq : Byte) :
    Keeps m s (buildResponse code seq r) := by
  refine h.trans (((returnBuffer_keeps .lastResponse _).trans
    (handOver_keeps .trunkAssembly (g := .lastResponse) _)).trans ?_)
  exact (writeBuffer_keeps (h := .lastResponse) _ _).trans
    ((keeps_of_unranged rfl).trans (oweReply_keeps .response .lastResponse _))

theorem replayLast_keeps (s : State) : Keeps m s (replayLast s) :=
  (returnBuffer_keeps _ s).trans ((modifyTrunkCounters_keeps _ (by
    rintro _ ⟨h1, h2, h3, h4, h5⟩; exact ⟨h1, h2, h3, countUp_le h4, h5⟩)).trans (oweReply_keeps _ _ _))

theorem discardMalformed_keeps (s : State) : Keeps m s (discardMalformed s) :=
  (returnBuffer_keeps _ s).trans (modifyTrunkCounters_keeps _
    fun _ ⟨h1, h2, h3, h4, h5, h6⟩ => ⟨h1, h2, h3, h4, h5, countUp_le h6⟩)

theorem manage_keeps (data : List Byte) (s : State) (hm : data.head? = some 0x21#8 → ¬ m) :
    Keeps m s (manage data s) := by
  unfold manage
  split
  · rename_i code seq args
    split
    · exact replayLast_keeps s
    · exact (runCommand_keeps code args s fun e => hm (by rw [e]; rfl)).buildResponse code seq
  · exact discardMalformed_keeps s

/-! ### The classifier -/

theorem discardUnrouted_keeps (s : State) : Keeps m s (discardUnrouted s) :=
  ((returnBuffer_keeps _ s).trans (modifyTrunkCounters_keeps _ (by
    rintro _ ⟨h1, h2⟩; exact ⟨countUp_le h1, h2⟩))).trans (raise_keeps _ _)

theorem countRefused_keeps (s : State) : Keeps m s (countRefused s) :=
  modifyTrunkCounters_keeps s fun _ ⟨h1, h2, h3⟩ => ⟨h1, countUp_le h2, h3⟩

theorem acceptGroup_keeps (line : Byte) (x : BranchSet) (s : State) : Keeps m s (acceptGroup line x s) := by
  unfold acceptGroup
  dsimp only
  split
  · exact (returnBuffer_keeps _ s).trans (countRefused_keeps _)
  · split
    · exact ((returnBuffer_keeps _ s).trans (countRefused_keeps _)).trans (raise_keeps _ _)
    · exact ((handOver_keeps _ s).trans (modifyRecord_keeps _ _ _)).trans (enqueueGroup_keeps _ _ _)

theorem refuseTransparent_keeps (a reason : Byte) (notify : Bool) (s : State) :
    Keeps m s (refuseTransparent a reason notify s) := by
  unfold refuseTransparent
  dsimp only
  refine ((countRefused_keeps s).trans (raise_keeps .refused _)).trans ?_
  split
  · exact oweProxy_keeps _ _ _
  · exact returnBuffer_keeps _ _

theorem acceptTransparent_keeps (a : Byte) (e : RouteEntry) (s : State) : Keeps m s (acceptTransparent a e s) := by
  unfold acceptTransparent
  dsimp only
  split
  · exact refuseTransparent_keeps _ _ _ s
  · split
    · exact refuseTransparent_keeps _ _ _ s
    · exact ((handOver_keeps _ s).trans (modifyRecord_keeps _ _ _)).trans
        ((modifyBranch_keeps _ _).trans (setOwed_keeps _ _))

theorem classifyRouted_keeps (a : Byte) (s : State) : Keeps m s (classifyRouted a s) := by
  unfold classifyRouted
  split
  · exact discardUnrouted_keeps s
  · rename_i j hj
    refine (hitEntry_keeps s (valid_of_lookup hj)).trans ?_
    dsimp only
    split
    · exact discardUnrouted_keeps _
    · split
      · exact discardUnrouted_keeps _
      · split
        · exact acceptTransparent_keeps a _ _
        · exact acceptGroup_keeps _ _ _

theorem classify_keeps (a : Byte) (data : List Byte) (s : State) (hm : data.head? = some 0x21#8 → ¬ m) :
    Keeps m s (classify a data s) := by
  unfold classify
  split
  · exact manage_keeps data s hm
  · split
    · exact discardUnrouted_keeps s
    · split
      · exact acceptGroup_keeps _ _ s
      · exact classifyRouted_keeps a s

theorem trunkFrameGood_keeps (stored : Bool) (a : Byte) (data : List Byte) (s : State)
    (hm : data.head? = some 0x21#8 → ¬ m) : Keeps m s (trunkFrameGood stored a data s) := by
  unfold trunkFrameGood
  split
  · exact (supersede_keeps s).trans (classify_keeps a data _ hm)
  · exact supersede_keeps s

/-! ### The line ports -/

theorem openFrame_keeps (p : Port) (stored : Bool) (c : Byte) (s : State) : Keeps m s (openFrame p stored c s) :=
  setRx_keeps p s fun _ => rfl

theorem trunkClaim_keeps (c : Byte) (s : State) : Keeps m s (trunkClaim c s) := by
  unfold trunkClaim
  split
  · exact ((modifyTrunkCounters_keeps s (by
      rintro _ ⟨h1, h2, h3, h4, h5, h6⟩; exact ⟨h1, h2, h3, h4, countUp_le h5, h6⟩)).trans (raise_keeps _ _)).trans
      (openFrame_keeps _ _ _ _)
  · exact (claimBuffer_keeps _ s).trans (openFrame_keeps _ _ _ _)

theorem trunkFrameStarts_keeps (c : Byte) (s : State) : Keeps m s (trunkFrameStarts c s) := by
  unfold trunkFrameStarts
  split
  · split
    · exact ((countTruncated_keeps _ s).trans (writeBuffer_keeps _ _)).trans (openFrame_keeps _ _ _ _)
    · exact (countTruncated_keeps _ s).trans (trunkClaim_keeps c _)
  all_goals exact trunkClaim_keeps c s

theorem branchTruncates_keeps (b : Branch) (s : State) : Keeps m s (branchTruncates b s) := by
  unfold branchTruncates
  split
  · exact countTruncated_keeps _ s
  all_goals exact .refl s

theorem answerStarts_keeps (b : Branch) (c : Byte) (s : State) : Keeps m s (answerStarts b c s) :=
  ((modifyBranch_keeps b s).trans (writeBuffer_keeps _ _)).trans (openFrame_keeps _ _ _ _)

theorem unsolicited_keeps (b : Branch) (s : State) : Keeps m s (unsolicited b s) :=
  (modifyBranchCounters_keeps b s (by
    rintro _ ⟨h1, h2, h3, h4, h5, h6, h7⟩; exact ⟨h1, h2, h3, h4, h5, countUp_le h6, h7⟩)).trans (raise_keeps _ _)

theorem branchFrameStarts_keeps (b : Branch) (c : Byte) (s : State) : Keeps m s (branchFrameStarts b c s) := by
  unfold branchFrameStarts
  refine (branchTruncates_keeps b s).trans ?_
  dsimp only
  split
  any_goals exact (openFrame_keeps _ _ _ _).trans (unsolicited_keeps b _)
  any_goals exact answerStarts_keeps b c _
  all_goals exact openFrame_keeps _ _ _ _

theorem receiveAddress_keeps (p : Port) (c : Byte) (s : State) : Keeps m s (receiveAddress p c s) := by
  cases p with
  | trunk => exact (characterEnds_keeps .trunk s).trans (trunkFrameStarts_keeps c _)
  | branch b => exact (characterEnds_keeps (.branch b) s).trans (branchFrameStarts_keeps b c _)

theorem reportFailure_keeps (p : Port) (stored : Bool) (s : State) : Keeps m s (reportFailure p stored s) := by
  unfold reportFailure
  split
  · exact .refl s
  · split
    · exact attemptEnds_keeps _ _ s
    · exact .refl s

theorem cutShort_keeps (p : Port) (s : State) : Keeps m s (cutShort p s) :=
  (truncateOpen_keeps p s).trans (reportFailure_keeps p _ _)

theorem malformedFrame_keeps (p : Port) (stored : Bool) (s : State) : Keeps m s (malformedFrame p stored s) :=
  (((setRx_keeps p (x := .discard) s fun _ => rfl).trans (countTruncated_keeps p _)).trans
    (returnAssembly_keeps p _)).trans
    (reportFailure_keeps p _ _)

theorem countGood_keeps (p : Port) (s : State) : Keeps m s (countGood p s) :=
  modifyPortCounters_keeps p s fun _ ⟨h1, h2⟩ => ⟨countUp_le h1, h2⟩

theorem checkError_keeps (p : Port) (stored : Bool) (s : State) : Keeps m s (checkError p stored s) :=
  (((modifyPortCounters_keeps p s (by
    rintro _ ⟨h1, h2, h3, h4⟩; exact ⟨h1, h2, countUp_le h3, h4⟩)).trans (raise_keeps _ _)).trans
    (returnAssembly_keeps p _)).trans (reportFailure_keeps p _ _)

/-- A good frame keeps, one of the trunk that carries CLEAR_EVENTS but for the flags. -/
theorem goodFrame_keeps (p : Port) (stored : Bool) (chars : List Byte) (s : State)
    (hm : p = .trunk → (frameData chars).head? = some 0x21#8 → ¬ m) : Keeps m s (goodFrame p stored chars s) := by
  unfold goodFrame
  split
  · exact (countGood_keeps _ s).trans (trunkFrameGood_keeps _ _ _ _ (hm rfl))
  · split
    · exact (countGood_keeps _ s).trans (answerGood_keeps _ _ _)
    · exact countGood_keeps _ s

theorem frameCompletes_keeps (p : Port) (stored : Bool) (chars : List Byte) (s : State)
    (hm : p = .trunk → (frameData chars).head? = some 0x21#8 → ¬ m) : Keeps m s (frameCompletes p stored chars s) := by
  unfold frameCompletes
  refine (setRx_keeps p (x := .hunt) s fun _ => rfl).trans ?_
  split
  · exact goodFrame_keeps p stored chars _ hm
  · exact checkError_keeps p stored _

theorem storeChars_keeps (p : Port) (stored : Bool) (chars : List Byte) (s : State) :
    Keeps m s (storeChars p stored chars s) := by
  unfold storeChars
  split
  · exact writeBuffer_keeps _ s (by cases p <;> simp [assemblyHolder])
  · exact .refl s

theorem takePosition_keeps (p : Port) (a : Assembly) (c : Byte) (s : State) (hm : p = .trunk → ¬ m) :
    Keeps m s (takePosition p a c s) := by
  unfold takePosition
  refine (storeChars_keeps p a.stored (a.got ++ [c]) s).trans ?_
  dsimp only
  split
  · exact malformedFrame_keeps p _ _
  · split
    · exact frameCompletes_keeps p _ _ _ fun h _ => hm h
    · exact setRx_keeps p _ fun _ => by simp [assemblyBegun]

theorem dataOutside_keeps (p : Port) (s : State) : Keeps m s (dataOutside p s) := by
  unfold dataOutside
  split
  · exact .refl s
  · split
    · exact raise_keeps _ s
    · exact .refl s

theorem receiveData_keeps (p : Port) (c : Byte) (s : State) (hm : p = .trunk → ¬ m) :
    Keeps m s (receiveData p c s) := by
  unfold receiveData
  refine (characterEnds_keeps p s).trans ?_
  dsimp only
  split
  · exact dataOutside_keeps p _
  · exact .refl _
  · exact takePosition_keeps p _ c _ hm

theorem sentClean_keeps (p : Port) (s : State) : Keeps m s (sentClean p s) := by
  cases p with
  | trunk => exact trunkSent_keeps s
  | branch b => exact sendCompleted_keeps b s

theorem sentContended_keeps (p : Port) (s : State) : Keeps m s (sentContended p s) := by
  cases p with
  | trunk => exact trunkContended_keeps s
  | branch b => exact sendContended_keeps b s

theorem echoCharacter_keeps (p : Port) (f : TxFrame) (k : Nat) (c : Byte) (mark : Bool) (s : State) :
    Keeps m s (echoCharacter p f k c mark s) := by
  unfold echoCharacter
  dsimp only
  split
  · split
    · exact sentClean_keeps p s
    · exact modifyPort_keeps p s
  · exact sentContended_keeps p s

theorem hearCharacter_keeps (p : Port) (c : Byte) (mark : Bool) (s : State) (hm : p = .trunk → mark = false → ¬ m) :
    Keeps m s (hearCharacter p c mark s) := by
  unfold hearCharacter
  split
  · split
    · exact echoCharacter_keeps p _ _ c mark s
    all_goals
      split
      · split
        · exact receiveAddress_keeps p c s
        · exact receiveData_keeps p c s fun h => hm h (by simpa using ‹¬ mark = true›)
      · exact .refl s
  · exact .refl s

theorem hearFramingError_keeps (p : Port) (s : State) : Keeps m s (hearFramingError p s) := by
  unfold hearFramingError
  split
  · split
    · exact sentContended_keeps p s
    · split
      · exact ((characterEnds_keeps p s).trans (raise_keeps _ _)).trans (cutShort_keeps p _)
      · exact .refl s
  · exact .refl s

theorem hearBreak_keeps (p : Port) (s : State) : Keeps m s (hearBreak p s) := by
  unfold hearBreak
  split
  · refine Keeps.trans ?_ (((modifyPort_keeps p _).trans (raise_keeps _ _)).trans (cutShort_keeps p _))
    split
    · exact sentContended_keeps p s
    · exact .refl s
  · exact .refl s

theorem hearBreakEnd_keeps (p : Port) (s : State) : Keeps m s (hearBreakEnd p s) := by
  unfold hearBreakEnd
  split
  · exact modifyPort_keeps p s
  · exact .refl s

theorem hearStartBit_keeps (p : Port) (confirmed : Bool) (s : State) : Keeps m s (hearStartBit p confirmed s) := by
  unfold hearStartBit
  split
  · exact modifyPort_keeps p s
  · exact .refl s

theorem synchronise_keeps (p : Port) (s : State) : Keeps m s (synchronise p s) := by
  unfold synchronise
  split
  · exact modifyPort_keeps p s
  · exact .refl s

theorem timeoutCharacter_keeps (p : Port) (s : State) : Keeps m s (timeoutCharacter p s) := by
  unfold timeoutCharacter
  split
  · exact (modifyPort_keeps p s).trans (cutShort_keeps p _)
  · exact .refl s

theorem followSend_keeps (p : Port) (s : State) : Keeps m s (followSend p s) := by
  cases p with
  | trunk => exact .refl s
  | branch b => exact setStatus_keeps b _ s

theorem meetGuard_keeps (p : Port) (s : State) : Keeps m s (meetGuard p s) := by
  unfold meetGuard
  split
  · split
    · exact ((truncateOpen_keeps p s).trans (modifyPort_keeps p _)).trans (followSend_keeps p _)
    · exact .refl s
  all_goals exact .refl s

theorem hearTrunkFrame_keeps (a : Byte) {data : List Byte} (s : State) (hd : data.length ≤ 60)
    (hm : data.head? = some 0x21#8 → ¬ m) : Keeps m s (hearTrunkFrame a data s) := by
  unfold hearTrunkFrame
  split
  · dsimp only
    refine Keeps.trans (t := if opensWith .trunk (mkFrame a data) s then s else receiveAddress .trunk a s) ?_
      (((characterEnds_keeps _ _).trans (storeChars_keeps _ _ _ _)).trans ((setRx_keeps _ _ fun _ => rfl).trans
        (goodFrame_keeps _ _ _ _ fun _ h => hm (by rwa [frameData_mkFrame a hd] at h))))
    split
    · exact .refl s
    · exact receiveAddress_keeps _ a s
  · exact .refl s

theorem endAnswer_keeps (b : Branch) (report : AnswerReport) (s : State) : Keeps m s (endAnswer b report s) := by
  unfold endAnswer
  split
  · split
    any_goals exact .refl s
    split
    · dsimp only
      split
      · exact ((characterEnds_keeps _ s).trans (storeChars_keeps _ _ _ _)).trans
          (frameCompletes_keeps _ _ _ _ fun h => by simp at h)
      · exact .refl s
    · exact (modifyPort_keeps _ s).trans (cutShort_keeps _ _)
    · split
      · exact (characterEnds_keeps _ s).trans (takePosition_keeps _ _ _ _ fun h => by simp at h)
      · exact .refl s
  · exact .refl s

/-! ### The timebase -/

theorem countMillisecond_keeps (s : State) : Keeps m s (countMillisecond s) := by
  refine ⟨rfl, rfl, rfl, fun _ => BitVec.and_self, fun hs => ?_, fun hs => ?_⟩
  · refine ⟨hs.params, hs.trunk, fun b => ?_, hs.bankA, hs.bankB, fun k => ?_, hs.tag, hs.pool⟩
    · show branchFine (mapTable branchMillisecond s.branches)[b]
      rw [mapTable_get]
      exact hs.branches b
    · show slotFine (mapTable slotMillisecond s.slots)[k]
      rw [mapTable_get]
      obtain ⟨h1, h2, h3⟩ := hs.slots k
      refine ⟨h1, h2, ?_⟩
      unfold slotMillisecond
      cases hage : s.slots[k].age with
      | none => exact Nat.zero_le _
      | some n =>
        rw [hage] at h3
        exact countUp_le h3
  · refine assembliesBegun_iff.mpr ⟨(assembliesBegun_iff.mp hs).1, fun b => ?_⟩
    show assemblyBegun (mapTable branchMillisecond s.branches)[b].port = true
    rw [mapTable_get]
    exact (assembliesBegun_iff.mp hs).2 b

theorem branchExpiries_keeps (s : State) (b : Branch) : Keeps m s (branchExpiries s b) := by
  unfold branchExpiries
  refine Keeps.trans (t := if timerDone s.branches[b].windowTimer then windowExpire b s else s) ?_ ?_
  · split
    · exact windowExpire_keeps b s
    · exact .refl s
  · dsimp only
    generalize (if timerDone s.branches[b].windowTimer then windowExpire b s else s) = t
    split
    · exact quarantineExpire_keeps b t
    · exact .refl t

theorem recordExpiry_keeps (s : State) (i : RecordIndex) : Keeps m s (recordExpiry s i) := by
  unfold recordExpiry
  split
  · exact holdExpire_keeps i s
  · exact .refl s

theorem slotExpiry_keeps (s : State) (k : SlotIndex) : Keeps m s (slotExpiry s k) := by
  unfold slotExpiry
  split
  · exact slotExpire_keeps k s
  · exact .refl s

theorem millisecond_keeps (s : State) : Keeps m s (millisecond s) :=
  ((countMillisecond_keeps s).trans (Keeps.foldl branchExpiries_keeps _ _)).trans
    ((Keeps.foldl recordExpiry_keeps _ _).trans (Keeps.foldl slotExpiry_keeps _ _))

theorem arbitrateAll_keeps (s : State) : Keeps m s (arbitrateAll s) :=
  Keeps.foldl (fun s b => arbitrate_keeps b s) _ s

theorem idleStep_keeps (s : State) : Keeps m s (idleStep s) := by
  unfold idleStep
  split
  · exact .refl s
  · exact (arbitrateAll_keeps s).trans (millisecond_keeps _)

end Sys2Proof.Machine
end

section
/-!
The part right after reset, and settlement of the statements about the flags, the ranges and the reset states: what each
command keeps, from what its operations keep (sections 8.1, 9.3 and 10.9).
-/

namespace Sys2Proof.Machine

-- The gate's memory limit counts every thread's arena, so the declarations are elaborated one after another.
set_option Elab.async false

variable {m : Prop}

/-! ### What a command keeps -/

/-- The commands that may clear a flag without being a reset (R153). -/
def mayClear : Instr → Prop
  | .clearEvents _ _ => True
  | .trunkGoodFrame _ data => data.head? = some 0x21#8
  | .dataCharacter .trunk _ => True
  | _ => False

/-- The two reset rows (R185). -/
def isReset : Instr → Prop
  | .resetAsserted | .resetRelease _ _ => True
  | _ => False

/-- A row that is one operation keeps what the operation keeps. -/
theorem Keeps.of_next {s t u : State} (h : Keeps m s u) (ht : (.next u : Host.Outcome State Fault Refusal) = .next t) :
    Keeps m s t := by
  obtain rfl := Host.Outcome.next.inj ht
  exact h

theorem outsideReset_keeps {f : State → State} {s t : State} (hf : ∀ s, Keeps m s (f s))
    (h : outsideReset f s = .next t) : Keeps m s t := by
  refine Keeps.of_next ?_ h
  split
  · exact .refl s
  · exact hf s

theorem trunkFrame_keeps {a : Byte} {data : List Byte} {s t : State} (hm : data.head? = some 0x21#8 → ¬ m)
    (h : trunkFrame a data s = .next t) : Keeps m s t := by
  unfold trunkFrame at h
  split at h
  · rename_i hd
    exact (hearTrunkFrame_keeps a s hd hm).of_next h
  · simp at h

/-- A management row keeps what the frame that carries its DATA keeps (section 10.2). -/
theorem commandRow_keeps {c : Instr} {data : List Byte} {s t : State} (hd : Laws.commandData c = some data)
    (hc : ∀ a data, c ≠ .trunkGoodFrame a data) (hm : data.head? = some 0x21#8 → ¬ m) (h : exec c s = .next t) :
    Keeps m s t :=
  trunkFrame_keeps hm ((Laws.exec_commandData hd hc s).symm.trans h)

/-- Every command but a reset keeps the waiting commands, the straps, the ranges and the open frames, and the flags
unless it may clear one. -/
theorem exec_keeps {c : Instr} {s t : State} (hr : ¬ isReset c) (hm : mayClear c → ¬ m) (h : exec c s = .next t) :
    Keeps m s t := by
  cases c with
  | resetAsserted | resetRelease => exact absurd trivial hr
  | receiverSynchronised p => exact (synchronise_keeps p s).of_next h
  | addressCharacter p c => exact (hearCharacter_keeps p c true s fun _ h => by simp at h).of_next h
  | dataCharacter p c => exact (hearCharacter_keeps p c false s fun hp _ => hm (by subst hp; trivial)).of_next h
  | framingError p => exact (hearFramingError_keeps p s).of_next h
  | lineBreak p => exact (hearBreak_keeps p s).of_next h
  | characterTimeout p => exact (timeoutCharacter_keeps p s).of_next h
  | guardMet p => exact (meetGuard_keeps p s).of_next h
  | startBit p confirmed => exact (hearStartBit_keeps p confirmed s).of_next h
  | breakEnd p => exact (hearBreakEnd_keeps p s).of_next h
  | trunkGoodFrame a data => exact trunkFrame_keeps hm h
  | clearEvents => exact commandRow_keeps rfl (by simp) (fun _ => hm trivial) h
  | identify | getParam | setParam | readEntry | writeEntry | clearEntry | copyBank | swapBanks | submit | collect
  | collectNext | cancel | listPending | pollSet | pollSetUnset | pollStart | pollStop | pollRead | readSnapshot
  | readEvents | readCounters | branchControlQuery | branchControlDisable | branchControlEnable | restart =>
    exact commandRow_keeps rfl (by simp) (by simp [commandByte]) h
  | arbitration b => exact outsideReset_keeps (arbitrate_keeps b) h
  | branchSendComplete b =>
    refine outsideReset_keeps (f := fun s => if s.branches[b].port.tx.sending then sendCompleted b s else s)
      (fun u => ?_) h
    split
    · exact sendCompleted_keeps b u
    · exact .refl u
  | branchContention b =>
    refine outsideReset_keeps (f := fun s => if s.branches[b].port.tx.sending then sendContended b s else s)
      (fun u => ?_) h
    split
    · exact sendContended_keeps b u
    · exact .refl u
  | responseWindowExpiry b => exact outsideReset_keeps (windowExpire_keeps b) h
  | answerEnd b report =>
    change execAnswerEnd b report s = _ at h
    unfold execAnswerEnd at h
    split at h
    · exact (endAnswer_keeps b report s).of_next h
    · simp at h
  | quarantineExpiry b => exact outsideReset_keeps (quarantineExpire_keeps b) h
  | holdExpiry i => exact outsideReset_keeps (holdExpire_keeps i) h
  | slotExpiry k => exact outsideReset_keeps (slotExpiryTaken_keeps k) h
  | trunkReplySent =>
    refine outsideReset_keeps (f := fun s => if s.trunk.port.tx.sending then trunkSent s else s) (fun u => ?_) h
    split
    · exact trunkSent_keeps u
    · exact .refl u
  | trunkContention =>
    refine outsideReset_keeps (f := fun s => if s.trunk.port.tx.sending then trunkContended s else s) (fun u => ?_) h
    split
    · exact trunkContended_keeps u
    · exact .refl u

/-- What a step does: the idle step on an empty queue, the front command on the rest of the queue else. -/
theorem step_cases {s t : State} (h : step s = .next t) :
    (s.pending = [] ∧ t = idleStep s) ∨
      ∃ c rest, s.pending = c :: rest ∧ exec c { s with pending := rest } = .next t := by
  unfold step at h
  split at h
  · rename_i hp
    exact Or.inl ⟨hp, (Host.Outcome.next.inj h).symm⟩
  · rename_i c rest hp
    exact Or.inr ⟨c, rest, hp, h⟩

/-! ### The part right after reset -/

/-- The part at its reset values, held in reset or released, with commands waiting (R185). -/
def resetPart (a : BitVec 3) (r : BitVec 2) (held : Bool) (waiting : List Instr) : State :=
  { State.atReset a r with inReset := held, pending := waiting }

/-- The two reset rows leave the part at its reset values. -/
theorem exec_reset {c : Instr} {s t : State} (hc : isReset c) (h : exec c s = .next t) :
    ∃ a r held, t = resetPart a r held s.pending := by
  cases c with
  | resetAsserted => exact ⟨s.strapA, s.strapR, true, (Host.Outcome.next.inj h).symm⟩
  | resetRelease a r => exact ⟨a, r, false, (Host.Outcome.next.inj h).symm⟩
  | _ => exact hc.elim

section
variable (a : BitVec 3) (r : BitVec 2) (held : Bool) (waiting : List Instr)

theorem resetPart_branches (b : Branch) : (resetPart a r held waiting).branches[b] = BranchState.atReset := by
  simp [resetPart, State.atReset]

theorem resetPart_records (i : RecordIndex) : (resetPart a r held waiting).records[i] = Record.free := by
  simp [resetPart, State.atReset]

theorem resetPart_slots (k : SlotIndex) : (resetPart a r held waiting).slots[k] = Slot.unset := by
  simp [resetPart, State.atReset]

theorem resetPart_buffers (n : Fin Config.bufferCount) : (resetPart a r held waiting).buffers[n] = Buffer.empty := by
  simp [resetPart, State.atReset]

theorem resetPart_entries (j : Fin Config.entryCount) :
    (resetPart a r held waiting).bankA[j] = .empty ∧ (resetPart a r held waiting).bankB[j] = .empty := by
  simp [resetPart, State.atReset]

/-- No block holds a buffer at reset. -/
theorem resetPart_heldFrame {h : Holder} (hh : h ≠ .free) : heldFrame h (resetPart a r held waiting) = none := by
  rw [heldFrame_eq_none]
  intro n
  rw [resetPart_buffers]
  exact hh.symm

/-- The reset values of the parameters and counters are in range. -/
theorem valuesFine_resetPart : ValuesFine (resetPart a r held waiting) := by
  obtain ⟨hp, ht, hb⟩ := zero_counted
  have haddress : ∀ a : BitVec 3, isStationAddress (strapAddress a) = true := by decide
  have hrate : ∀ r : BitVec 2, portInRange (PortState.atReset (strapRate r)) = true := by decide
  have hparams : 1 ≤ 2 ∧ 2 ≤ 8 ∧ 1 ≤ 50 ∧ 50 ≤ 255 ∧ 8 ≤ 47 := by decide
  refine ⟨⟨haddress a, hparams⟩, ⟨⟨hrate r, hp⟩, rfl, ht⟩, fun b => ?_, fun j => ?_, fun j => ?_, fun k => ?_,
    (by decide : (1 : Byte) ≠ 0x00#8), fun n _ => ?_⟩
  · rw [resetPart_branches]
    exact ⟨⟨rfl, hp⟩, (branchInRange_iff (x := .atReset).mp rfl).2.1, Nat.zero_le _, hb⟩
  · rw [(resetPart_entries a r held waiting j).1]
    exact ⟨Nat.zero_le _, rfl⟩
  · rw [(resetPart_entries a r held waiting j).2]
    exact ⟨Nat.zero_le _, rfl⟩
  · rw [resetPart_slots]
    exact ⟨Nat.zero_le _, Nat.zero_le _, Nat.zero_le _⟩
  · rw [resetPart_buffers]
    rfl

theorem assembliesBegun_resetPart : AssembliesBegun (resetPart a r held waiting) :=
  assembliesBegun_iff.mpr ⟨rfl, fun b => by rw [resetPart_branches]; rfl⟩

theorem branchesAgree_resetPart : BranchesAgree (resetPart a r held waiting) := by
  intro b
  rw [resetPart_branches]
  decide

theorem owedAgrees_resetPart : OwedAgrees (resetPart a r held waiting) := by
  refine ⟨fun h => ?_, fun h => absurd rfl h, fun i => ⟨fun h => ?_, fun _ => resetPart_records a r held waiting i⟩⟩
  · rw [resetPart_heldFrame a r held waiting (by simp)] at h
    simp at h
  · rw [resetPart_records] at h
    simp [Record.free] at h

theorem tableAgrees_resetPart : TableAgrees (resetPart a r held waiting) := by
  refine ⟨fun i => ?_, fun b => ?_, ⟨List.nodup_nil, fun i => ?_⟩, ⟨fun k => ⟨?_, ?_⟩, fun i j k h => ?_⟩,
    fun h hh => ?_, fun h => absurd h (by simp [resetPart, State.atReset, PortState.atReset, TxState.sending])⟩
  · rw [resetPart_records]
    rfl
  · rw [resetPart_branches]
    refine ⟨List.nodup_nil, fun _ => rfl, fun i => ?_⟩
    rw [resetPart_records]
    obtain ⟨hw, hs⟩ := free_waits_nowhere b
    rw [hw, hs]
    simp [BranchState.atReset]
  · rw [resetPart_records]
    simp [Record.free, resetPart, State.atReset]
  · rw [resetPart_slots]
    exact iff_of_true rfl rfl
  · rw [resetPart_slots]
    refine iff_of_false (fun ⟨i, hi⟩ => ?_) (by simp [Slot.unset])
    rw [resetPart_records] at hi
    simp [Record.free] at hi
  · rw [resetPart_records] at h
    simp [Record.free] at h
  · have hnone : holdsBuffer (resetPart a r held waiting) h = false := by
      cases h with
      | free | trunkAssembly | owedReply | lastResponse => rfl
      | branchAnswer b =>
        dsimp only [holdsBuffer]
        rw [resetPart_branches]
        rfl
      | request i | answer i =>
        dsimp only [holdsBuffer]
        rw [resetPart_records]
        rfl
      | snapshot k =>
        dsimp only [holdsBuffer]
        rw [resetPart_slots]
        rfl
    rw [heldCount_eq_zero.mpr (resetPart_heldFrame a r held waiting hh), hnone]
    rfl

/-- The part at its reset values meets every invariant. -/
theorem invariants_resetPart : BranchesAgree (resetPart a r held waiting) ∧
    AssembliesBegun (resetPart a r held waiting) ∧ ValuesInRange (resetPart a r held waiting) ∧
    OwedAgrees (resetPart a r held waiting) ∧ TableAgrees (resetPart a r held waiting) :=
  ⟨branchesAgree_resetPart a r held waiting, assembliesBegun_resetPart a r held waiting,
    valuesInRange_iff.mpr (valuesFine_resetPart a r held waiting), owedAgrees_resetPart a r held waiting,
    tableAgrees_resetPart a r held waiting⟩

end

/-- Settles O60: every state that a reset row leaves is one at the reset values. -/
theorem resetMeetsTheInvariants : Obligations.ResetMeetsTheInvariants :=
  ⟨fun a r s => ⟨_, rfl, invariants_resetPart a r false s.pending⟩,
    fun s => ⟨_, rfl, invariants_resetPart s.strapA s.strapR true s.pending⟩, invariants_resetPart 0 0 false []⟩

/-! ### What a step keeps -/

/-- Settles O56: a command that is no reset keeps the flags unless it may clear one, and an idle step keeps them. -/
theorem flagsAreOnlyCleared : Obligations.FlagsAreOnlyCleared := by
  intro s t h
  rcases step_cases h with ⟨hp, rfl⟩ | ⟨c, rest, hp, hexec⟩
  · have hkept := idleStep_keeps (m := True) s
    refine ⟨?_, fun _ => ⟨hkept.strapA, hkept.strapR⟩, fun _ _ _ _ _ => hkept.flags trivial⟩
    rw [hkept.pending, hp]
    rfl
  · rw [hp]
    by_cases hr : isReset c
    · obtain ⟨a, r, held, rfl⟩ := exec_reset hr hexec
      refine ⟨rfl, fun h2 => ?_, fun h1 h2 => ?_⟩
      · cases c with
        | resetRelease a' r' => exact absurd rfl (h2 a' r')
        | resetAsserted =>
          obtain h := Host.Outcome.next.inj hexec
          exact ⟨(congrArg State.strapA h).symm, (congrArg State.strapR h).symm⟩
        | _ => exact hr.elim
      · cases c with
        | resetRelease a' r' => exact absurd rfl (h2 a' r')
        | resetAsserted => exact absurd rfl h1
        | _ => exact hr.elim
    · have hkept := exec_keeps (m := ¬ mayClear c) hr (fun hc h => h hc) hexec
      refine ⟨hkept.pending, fun _ => ⟨hkept.strapA, hkept.strapR⟩, fun _ _ h3 h4 h5 => hkept.flags fun hc => ?_⟩
      cases c with
      | clearEvents q mask => exact h3 q mask rfl
      | trunkGoodFrame a data => exact h4 a data rfl hc
      | dataCharacter p c =>
        cases p with
        | trunk => exact h5 c rfl
        | branch b => exact hc
      | _ => exact hc

/-- What a step makes of the part: the reset values, or what an operation of the part keeps. -/
theorem step_keeps {s t : State} (h : step s = .next t) :
    (∃ a r held waiting, t = resetPart a r held waiting) ∨ ∃ rest, Keeps False { s with pending := rest } t := by
  rcases step_cases h with ⟨hp, rfl⟩ | ⟨c, rest, hp, hexec⟩
  · exact Or.inr ⟨s.pending, idleStep_keeps s⟩
  · by_cases hr : isReset c
    · obtain ⟨a, r, held, ht⟩ := exec_reset hr hexec
      exact Or.inl ⟨a, r, held, _, ht⟩
    · exact Or.inr ⟨rest, exec_keeps hr (fun _ => id) hexec⟩

/-- Settles O58: each operation keeps the values of every block in their ranges. -/
theorem stepKeepsTheValues : Obligations.StepKeepsTheValues := by
  intro s t hs h
  rw [valuesInRange_iff] at hs ⊢
  rcases step_keeps h with ⟨a, r, held, waiting, rfl⟩ | ⟨rest, hkept⟩
  · exact valuesFine_resetPart a r held waiting
  · obtain ⟨h1, h2, h3, h4, h5, h6, h7, h8⟩ := hs
    exact hkept.values ⟨h1, h2, h3, h4, h5, h6, h7, h8⟩

/-- Every step keeps every open frame with its address character (R8, R10). -/
theorem step_assembliesBegun {s t : State} (hs : AssembliesBegun s) (h : step s = .next t) : AssembliesBegun t := by
  rcases step_keeps h with ⟨a, r, held, waiting, rfl⟩ | ⟨rest, hkept⟩
  · exact assembliesBegun_resetPart a r held waiting
  · exact hkept.begun hs

end Sys2Proof.Machine
end

section
/-!
The algebra of the basic updates, and what the operations of the ports and of the exchanges make of the branches: said
as equations of the part, or as all of a branch that stands but its queue and STALLED (R22, R50, R63, R80).
-/

namespace Sys2Proof.Machine

-- The gate's memory limit counts every thread's arena, so the declarations are elaborated one after another.
set_option Elab.async false

/-! ### Updates compose -/

section
variable {α : Type} {n : Nat}

theorem updateAt_updateAt (v : Vector α n) (i : Fin n) (f g : α → α) :
    updateAt (updateAt v i g) i f = updateAt v i fun x => f (g x) := by
  refine table_ext fun j => ?_
  rw [updateAt_get, updateAt_get, updateAt_get]
  split <;> rfl

theorem updateAt_congr {v : Vector α n} {i : Fin n} {f g : α → α} (h : f v[i] = g v[i]) :
    updateAt v i f = updateAt v i g := by
  unfold updateAt
  rw [h]

theorem updateAt_self {v : Vector α n} {i : Fin n} {f : α → α} (h : f v[i] = v[i]) : updateAt v i f = v := by
  unfold updateAt
  rw [h]
  simp

end

theorem modifyBranch_modifyBranch (b : Branch) (f g : BranchState → BranchState) (s : State) :
    modifyBranch b f (modifyBranch b g s) = modifyBranch b (fun x => f (g x)) s := by
  unfold modifyBranch
  dsimp only
  rw [updateAt_updateAt]

theorem modifyBranch_congr {b : Branch} {f g : BranchState → BranchState} {s : State}
    (h : f s.branches[b] = g s.branches[b]) : modifyBranch b f s = modifyBranch b g s := by
  unfold modifyBranch
  rw [updateAt_congr h]

theorem modifyBranch_self {b : Branch} {f : BranchState → BranchState} {s : State}
    (h : f s.branches[b] = s.branches[b]) : modifyBranch b f s = s := by
  unfold modifyBranch
  rw [updateAt_self h]

theorem modifyBranch_other {b d : Branch} (h : d ≠ b) (f : BranchState → BranchState) (s : State) :
    (modifyBranch b f s).branches[d] = s.branches[d] := updateAt_other _ _ h

theorem modifyPort_modifyPort (p : Port) (f g : PortState → PortState) (s : State) :
    modifyPort p f (modifyPort p g s) = modifyPort p (fun q => f (g q)) s := by
  cases p with
  | trunk => rfl
  | branch b => exact modifyBranch_modifyBranch b _ _ s

theorem modifyPort_congr {p : Port} {f g : PortState → PortState} {s : State} (h : f (s.port p) = g (s.port p)) :
    modifyPort p f s = modifyPort p g s := by
  cases p with
  | trunk =>
    unfold modifyPort modifyTrunk
    dsimp only
    exact congrArg (fun q => { s with trunk := { s.trunk with port := q } }) h
  | branch b => exact modifyBranch_congr (congrArg (fun q => { s.branches[b] with port := q }) h)

theorem modifyPort_self {p : Port} {f : PortState → PortState} {s : State} (h : f (s.port p) = s.port p) :
    modifyPort p f s = s := by
  cases p with
  | trunk => exact congrArg (fun q => { s with trunk := { s.trunk with port := q } }) h
  | branch b => exact modifyBranch_self (congrArg (fun q => { s.branches[b] with port := q }) h)

/-- The branch whose port `modifyPort` changes. -/
theorem modifyPort_branch_same (b : Branch) (f : PortState → PortState) (s : State) :
    (modifyPort (.branch b) f s).branches[b] = { s.branches[b] with port := f s.branches[b].port } :=
  modifyBranch_same b _ s

/-- Every other branch. -/
theorem modifyPort_branch_other {b d : Branch} (h : d ≠ b) (f : PortState → PortState) (s : State) :
    (modifyPort (.branch b) f s).branches[d] = s.branches[d] := modifyBranch_other h _ s

/-- A port that has been put back is as it was: the change touched nothing else. -/
theorem modifyPort_restored (p : Port) (f : PortState → PortState) (s : State) :
    modifyPort p (fun _ => s.port p) (modifyPort p f s) = s := by
  rw [modifyPort_modifyPort]
  exact modifyPort_self rfl

/-- A change of a port touches its controller's piece of the state alone. -/
theorem modifyPort_sameBut (p : Port) (f : PortState → PortState) (s : State) :
    SameBut [portPart p] s (modifyPort p f s) := by
  refine ⟨modifyPort_pending p f s, fun q _ hq => ?_⟩
  cases p with
  | trunk =>
    cases q with
    | trunk => exact absurd (by decide) hq
    | pins => exact ⟨rfl, rfl, rfl⟩
    | lastCommand => exact ⟨rfl, rfl⟩
    | _ => rfl
  | branch b =>
    cases q with
    | branch d => exact modifyPort_branch_other (fun e => hq (by rw [e]; exact List.mem_singleton_self _)) f s
    | pins => exact ⟨rfl, rfl, rfl⟩
    | lastCommand => exact ⟨rfl, rfl⟩
    | _ => rfl

/-- A change of a branch touches that branch alone. -/
theorem modifyBranch_sameBut (b : Branch) (f : BranchState → BranchState) (s : State) :
    SameBut [.branch b] s (modifyBranch b f s) := by
  refine ⟨rfl, fun q _ hq => ?_⟩
  cases q with
  | branch d => exact modifyBranch_other (fun e => hq (by rw [e]; exact List.mem_singleton_self _)) f s
  | pins => exact ⟨rfl, rfl, rfl⟩
  | lastCommand => exact ⟨rfl, rfl⟩
  | _ => rfl

/-- A raised flag is the one piece that `raise` touches. -/
theorem raise_sameBut (f : Flag) (s : State) : SameBut [.flags] s (raise f s) := by
  refine ⟨rfl, fun q _ hq => ?_⟩
  cases q with
  | flags => exact absurd (by decide) hq
  | pins => exact ⟨rfl, rfl, rfl⟩
  | lastCommand => exact ⟨rfl, rfl⟩
  | _ => rfl

/-- Frames of two changes, each excepting its own pieces. -/
theorem SameBut.trans_append {e f : List Part} {s t u : State} (h1 : SameBut e s t) (h2 : SameBut f t u) :
    SameBut (e ++ f) s u :=
  (h1.mono fun _ h => List.mem_append_left f h).trans (h2.mono fun _ h => List.mem_append_right e h)

/-! ### Frames cut short, and rates -/

/-- A port whose open frame has been cut short, and one left in HUNT that had none open (R13). -/
def PortState.cut (q : PortState) : PortState := { q with rx := .hunt, counters := truncatedOnce q }

/-- The pool when an open frame has been cut short: the trunk's buffer is free again (R14). -/
def cutBuffers (p : Port) (s : State) : Vector Buffer Config.bufferCount :=
  match p, (s.port p).rx with
  | .trunk, .assemble _ => (returnBuffer .trunkAssembly s).buffers
  | _, _ => s.buffers

/-- What cutting short an open frame comes to, as one update of the part (R11, R13, R14). -/
theorem truncateOpen_eq (p : Port) (s : State) : truncateOpen p s = { modifyPort p PortState.cut s with
    flags := truncatedFlags (s.port p) s.flags, buffers := cutBuffers p s } := by
  have hcut : ∀ x, (s.port p).rx = x → modifyPort p PortState.cut s = modifyPort p (fun q => { q with
      rx := .hunt, counters := truncatedOnce { q with rx := x } }) s := by
    rintro _ rfl
    exact modifyPort_congr rfl
  unfold truncateOpen truncatedFlags cutBuffers
  cases hx : (s.port p).rx with
  | hunt =>
    have hself : modifyPort p PortState.cut s = s := modifyPort_self (by
      unfold PortState.cut truncatedOnce
      rw [hx]
      dsimp only
      rw [← hx])
    rw [hself]
    cases p <;> rfl
  | discard =>
    rw [hcut _ hx]
    cases p <;> rfl
  | assemble a =>
    rw [hcut _ hx]
    have hcount : modifyPortCounters p (fun c => { c with truncated := countUp c.truncated }) (setRx p .hunt s) =
        modifyPort p (fun q => { q with
          rx := .hunt, counters := truncatedOnce { q with rx := .assemble a } }) s := modifyPort_modifyPort p _ _ s
    dsimp only
    unfold countTruncated
    rw [hcount]
    cases p <;> rfl

/-- The pool after a frame has been cut short, place by place (R14). -/
theorem cutBuffers_frames (p : Port) {s t : State} (ht : t.buffers = cutBuffers p s) : truncatedFrames p s t := by
  unfold truncatedFrames
  unfold cutBuffers at ht
  cases p with
  | branch b => exact ht
  | trunk =>
    cases hx : (s.port .trunk).rx with
    | hunt | discard =>
      rw [hx] at ht
      exact ht
    | assemble a =>
      rw [hx] at ht
      intro i
      rw [ht]
      exact returnBuffer_buffers _ _ _

/-- What applying a RATE comes to, as one update of the part (R22). -/
theorem applyRate_eq (p : Port) (code : Nat) (s : State) : applyRate p code s = { modifyPort p (fun q =>
      { q.cut with rate := code, synchronised := false, charInProgress := false }) s with
    flags := truncatedFlags (s.port p) s.flags, buffers := cutBuffers p s } := by
  unfold applyRate
  rw [truncateOpen_eq]
  have hcomp := modifyPort_modifyPort p (fun q => { q with
    rate := code, synchronised := false, charInProgress := false }) PortState.cut s
  rw [← hcomp]
  cases p <;> rfl

/-- A branch under the rate that was held for it (R22, R188). -/
def BranchState.rated (x : BranchState) : BranchState :=
  match x.pendingRate with
  | none => x
  | some code => { x with
      pendingRate := none
      port := { x.port.cut with rate := code, synchronised := false, charInProgress := false } }

/-- The flags once a held rate has been applied: an open frame that it cuts short sets LINE_ERROR (R13, R22). -/
def ratedFlags (x : BranchState) (flags : BitVec 12) : BitVec 12 :=
  if x.pendingRate.isSome then truncatedFlags x.port flags else flags

/-- What applying a held rate comes to, as one update of the part (R188). -/
theorem applyPendingRate_eq (b : Branch) (s : State) : applyPendingRate b s =
    { modifyBranch b BranchState.rated s with flags := ratedFlags s.branches[b] s.flags } := by
  unfold applyPendingRate ratedFlags
  cases hx : s.branches[b].pendingRate with
  | none =>
    have hself : modifyBranch b BranchState.rated s = s := modifyBranch_self (by unfold BranchState.rated; rw [hx])
    rw [hself]
    rfl
  | some code =>
    dsimp only
    rw [applyRate_eq]
    have hport : (modifyBranch b (fun x => { x with pendingRate := none }) s).port (.branch b) = s.branches[b].port :=
      (congrArg BranchState.port (modifyBranch_same b (fun x => { x with pendingRate := none }) s)).trans rfl
    have hcomp : modifyPort (.branch b) (fun q =>
        { q.cut with rate := code, synchronised := false, charInProgress := false })
        (modifyBranch b (fun x => { x with pendingRate := none }) s) = modifyBranch b BranchState.rated s := by
      refine (modifyBranch_modifyBranch b _ _ s).trans (modifyBranch_congr ?_)
      unfold BranchState.rated
      rw [hx]
    rw [hport, hcomp]
    rfl

/-- What the entry to IDLE comes to, as one update of the part (R89). -/
theorem enterIdle_eq (b : Branch) (s : State) : enterIdle b s =
    { modifyBranch b (fun x => { x.rated with status := .idle }) s with
      flags := ratedFlags s.branches[b] s.flags } := by
  unfold enterIdle setStatus
  rw [applyPendingRate_eq, ← modifyBranch_modifyBranch b (fun x => { x with status := .idle }) BranchState.rated s]
  rfl

/-- The branch that has entered IDLE. -/
theorem enterIdle_branch (b : Branch) (s : State) :
    (enterIdle b s).branches[b] = { s.branches[b].rated with status := .idle } := by
  rw [enterIdle_eq]
  exact modifyBranch_same b (fun x => { x.rated with status := .idle }) s

/-- Every other branch stands when one enters IDLE. -/
theorem enterIdle_branch_other {b d : Branch} (h : d ≠ b) (s : State) :
    (enterIdle b s).branches[d] = s.branches[d] := by
  rw [enterIdle_eq]
  exact modifyBranch_other h (fun x => { x.rated with status := .idle }) s

section
variable (b : Branch) (s : State)

@[simp] theorem enterIdle_trunk : (enterIdle b s).trunk = s.trunk := by rw [enterIdle_eq]; rfl
@[simp] theorem enterIdle_records : (enterIdle b s).records = s.records := by rw [enterIdle_eq]; rfl
@[simp] theorem enterIdle_completions : (enterIdle b s).completions = s.completions := by rw [enterIdle_eq]; rfl
@[simp] theorem enterIdle_slots : (enterIdle b s).slots = s.slots := by rw [enterIdle_eq]; rfl
@[simp] theorem enterIdle_buffers : (enterIdle b s).buffers = s.buffers := by rw [enterIdle_eq]; rfl
@[simp] theorem enterIdle_params : (enterIdle b s).params = s.params := by rw [enterIdle_eq]; rfl
@[simp] theorem enterIdle_flags : (enterIdle b s).flags = ratedFlags s.branches[b] s.flags := by rw [enterIdle_eq]

/-- A held rate that has been applied is no longer held (R188). -/
theorem BranchState.rated_pendingRate (x : BranchState) : x.rated.pendingRate = none := by
  unfold BranchState.rated
  cases hx : x.pendingRate with
  | none => exact hx
  | some code => rfl

/-- What of a branch is not its port's stands under a held rate. -/
theorem BranchState.rated_kept (x : BranchState) : x.rated = { x with port := x.rated.port, pendingRate := none } := by
  unfold BranchState.rated
  cases hx : x.pendingRate with
  | none =>
    dsimp only
    rw [← hx]
  | some code => rfl

/-- The transmit side stands under a held rate. -/
theorem BranchState.rated_tx (x : BranchState) : x.rated.port.tx = x.port.tx := by
  unfold BranchState.rated
  cases x.pendingRate <;> rfl

end

/-! ### Branches of which only queues and stalls change -/

/-- Of every branch all but its queue and STALLED stands. -/
def QueuesOnly (s t : State) : Prop := ∀ d : Branch, otherBranchKept s.branches[d] t.branches[d]

theorem QueuesOnly.of_branches {s t : State} (h : t.branches = s.branches) : QueuesOnly s t := by
  intro d
  unfold otherBranchKept
  rw [h]

theorem QueuesOnly.refl (s : State) : QueuesOnly s s := .of_branches rfl

/-- A branch of which only queue and STALLED have changed, and of that again. -/
theorem otherBranchKept.trans {x y z : BranchState} (h1 : otherBranchKept x y) (h2 : otherBranchKept y z) :
    otherBranchKept x z := by
  unfold otherBranchKept at *
  rw [← h1, ← h2]

theorem QueuesOnly.trans {s t u : State} (h1 : QueuesOnly s t) (h2 : QueuesOnly t u) : QueuesOnly s u :=
  fun d => (h1 d).trans (h2 d)

/-- The queue and STALLED of a branch are all that has changed. -/
theorem otherBranchKept.eq {x y : BranchState} (h : otherBranchKept x y) :
    y = { x with queue := y.queue, stalled := y.stalled } := by
  unfold otherBranchKept at h
  rw [← h]

theorem QueuesOnly.foldl {α : Type} {f : State → α → State} (hf : ∀ s a, QueuesOnly s (f s a)) (l : List α)
    (s : State) : QueuesOnly s (l.foldl f s) := by
  induction l generalizing s with
  | nil => exact .refl s
  | cons a l ih => exact (hf s a).trans (ih (f s a))

theorem leaveQueues_queuesOnly (i : RecordIndex) (s : State) : QueuesOnly s (leaveQueues i s) := by
  intro d
  rw [leaveQueues_branches]
  rfl

theorem endIdleStalls_queuesOnly (s : State) : QueuesOnly s (endIdleStalls s) := by
  intro d
  rw [endIdleStalls_branches]
  split <;> rfl

theorem freeRecord_queuesOnly (i : RecordIndex) (s : State) : QueuesOnly s (freeRecord i s) :=
  fun d => freeRecord_otherBranchKept i d s

theorem groupLeave_queuesOnly (b : Branch) (i : RecordIndex) (s : State) : QueuesOnly s (groupLeave b i s) := by
  have hleft : ∀ f : Record → Record, QueuesOnly s (modifyRecord i f s) := fun _ => .of_branches rfl
  unfold groupLeave
  dsimp only
  split
  · exact (hleft _).trans (freeRecord_queuesOnly i _)
  · exact hleft _

/-- Noting an outcome leaves all but the flags. -/
theorem noteOutcome_eq (o : ExchangeOutcome) (s : State) :
    noteOutcome o s = { s with flags := (noteOutcome o s).flags } := by
  cases o <;> rfl

theorem noteOutcome_queuesOnly (o : ExchangeOutcome) (s : State) : QueuesOnly s (noteOutcome o s) := by
  rw [noteOutcome_eq]
  exact .of_branches rfl

theorem dropLateAnswer_queuesOnly (b : Branch) (o : ExchangeOutcome) (s : State) :
    QueuesOnly s (dropLateAnswer b o s) := by
  unfold dropLateAnswer
  split <;> exact .of_branches rfl

/-- The part when the answer to a TRANSPARENT record is owed to the master, the record not yet freed (R57, R111). -/
def answeredPart (i : RecordIndex) (b : Branch) (s : State) : State :=
  let answer := (heldFrame (.branchAnswer b) s).getD []
  let s := handOver (.branchAnswer b) (.answer i) s
  let s := writeBuffer (.answer i) (mkFrame (s.records[i].trunkAddress.getD 0) (frameData answer)) s
  oweReply .answer .owedReply (handOver (.answer i) .owedReply s)

/-- A TRANSPARENT record that is answered is freed once its answer is owed. -/
theorem answerTransparent_eq (i : RecordIndex) (b : Branch) (s : State) :
    answerTransparent i b s = freeRecord i (answeredPart i b s) := rfl

@[simp] theorem answeredPart_branches (i : RecordIndex) (b : Branch) (s : State) :
    (answeredPart i b s).branches = s.branches := rfl

theorem settleTransparent_queuesOnly (i : RecordIndex) (b : Branch) (o : ExchangeOutcome) (s : State) :
    QueuesOnly s (settleTransparent i b o s) := by
  unfold settleTransparent
  split
  · exact (dropLateAnswer_queuesOnly b o s).trans (freeRecord_queuesOnly i _)
  · split
    · rw [answerTransparent_eq]
      exact (QueuesOnly.of_branches (answeredPart_branches i b s)).trans (freeRecord_queuesOnly i _)
    · unfold failTransparent
      dsimp only
      refine QueuesOnly.trans (.of_branches ?_) (freeRecord_queuesOnly i _)
      split <;> rfl

theorem settleDeferred_queuesOnly (i : RecordIndex) (b : Branch) (o : ExchangeOutcome) (s : State) :
    QueuesOnly s (settleDeferred i b o s) := by
  unfold settleDeferred
  split
  · exact (dropLateAnswer_queuesOnly b o s).trans (freeRecord_queuesOnly i _)
  · unfold endDeferred
    dsimp only
    have hanswer : (if o = .answered then
        handOver (.branchAnswer b) (.answer i) (returnBuffer (.request i) s)
        else returnBuffer (.request i) s).branches =
        s.branches := by
      split <;> rfl
    refine (QueuesOnly.of_branches hanswer).trans ?_
    generalize (if o = .answered then
      handOver (.branchAnswer b) (.answer i) (returnBuffer (.request i) s) else returnBuffer (.request i) s) = t
    intro d
    refine otherBranchKept.trans (y := (leaveQueues i t).branches[d]) (leaveQueues_queuesOnly i t d) rfl

/-- The end of a slot's poll leaves the branches. -/
theorem pollEnds_branches (k : SlotIndex) (b : Branch) (answered : Bool) (s : State) :
    (pollEnds k b answered s).branches = s.branches := by
  have hleave : ∀ t : State, (slotLeavePoll k t).branches = t.branches := by
    intro t
    unfold slotLeavePoll
    cases t.slots[k].state <;> rfl
  unfold pollEnds
  rw [hleave]
  split <;> rfl

theorem settleCyclic_queuesOnly (i : RecordIndex) (b : Branch) (o : ExchangeOutcome) (s : State) :
    QueuesOnly s (settleCyclic i b o s) := by
  unfold settleCyclic
  split
  · exact freeRecord_queuesOnly i s
  · exact QueuesOnly.trans (.of_branches (pollEnds_branches _ b _ s)) (freeRecord_queuesOnly i _)

theorem fixOutcome_queuesOnly (i : RecordIndex) (b : Branch) (o : ExchangeOutcome) (s : State) :
    QueuesOnly s (fixOutcome i b o s) := by
  unfold fixOutcome
  split
  · exact (noteOutcome_queuesOnly o s).trans (settleTransparent_queuesOnly i b o _)
  · exact (noteOutcome_queuesOnly o s).trans (settleDeferred_queuesOnly i b o _)
  · exact (noteOutcome_queuesOnly o s).trans (settleCyclic_queuesOnly i b o _)
  all_goals exact .refl s

theorem retryRecord_queuesOnly (i : RecordIndex) (b : Branch) (s : State) : QueuesOnly s (retryRecord i b s) := by
  intro d
  unfold retryRecord enqueueHead
  rw [modifyBranch_branches]
  split <;> rfl

theorem settleAttempt_queuesOnly (i : RecordIndex) (b : Branch) (o : ExchangeOutcome) (s : State) :
    QueuesOnly s (settleAttempt i b o s) := by
  unfold settleAttempt
  dsimp only
  split
  · exact fixOutcome_queuesOnly i b o s
  · exact retryRecord_queuesOnly i b s

theorem settleBranchOff_queuesOnly (b : Branch) (s : State) (i : RecordIndex) :
    QueuesOnly s (settleBranchOff b s i) := by
  unfold settleBranchOff
  split
  · exact groupLeave_queuesOnly b i s
  · exact fixOutcome_queuesOnly i b .branchOff s

/-! ### A branch that leaves service -/

/-- The branch itself when its work has been settled: no assignment and no queue (R63). -/
theorem settleBranchWork_branch (b : Branch) (s : State) : ∃ stalled, (settleBranchWork b s).branches[b] =
    { s.branches[b] with onLine := none, queue := [], stalled := stalled } := by
  have hwork : ∃ t, QueuesOnly s t ∧
      settleBranchWork b s = modifyBranch b (fun x => { x with onLine := none, queue := [] }) t := by
    unfold settleBranchWork
    dsimp only
    refine ⟨_, QueuesOnly.trans ?_ (QueuesOnly.foldl (settleBranchOff_queuesOnly b) _ _), rfl⟩
    split
    · exact settleBranchOff_queuesOnly b s _
    · exact .refl s
  obtain ⟨t, ht, hsettled⟩ := hwork
  refine ⟨t.branches[b].stalled, ?_⟩
  rw [hsettled, modifyBranch_same, (ht b).eq]

/-- Every other branch when the work of one has been settled. -/
theorem settleBranchWork_branch_other {b d : Branch} (h : d ≠ b) (s : State) :
    otherBranchKept s.branches[d] (settleBranchWork b s).branches[d] := by
  unfold settleBranchWork
  dsimp only
  rw [modifyBranch_other h]
  refine QueuesOnly.trans ?_ (QueuesOnly.foldl (settleBranchOff_queuesOnly b) _ _) d
  split
  · exact settleBranchOff_queuesOnly b s _
  · exact .refl s

/-- A held rate and the work of a branch do not touch each other. -/
theorem BranchState.rated_without_work (x : BranchState) (i : Option RecordIndex) (l : List RecordIndex) (y : Bool) :
    BranchState.rated { x with onLine := i, queue := l, stalled := y } =
      { x.rated with onLine := i, queue := l, stalled := y } := by
  obtain ⟨_, _, _, _, _, _, _, _, _, rate, _, _, _, _⟩ := x
  cases rate <;> rfl

/-- The branch itself when it has left service (R92, R94, R188). -/
theorem leaveService_branch (b : Branch) (s : State) : (leaveService b s).branches[b] =
    { s.branches[b].rated with onLine := none, queue := [], stalled := false } := by
  obtain ⟨stalled, hwork⟩ := settleBranchWork_branch b s
  unfold leaveService
  dsimp only
  rw [modifyBranch_same]
  have habandon : (abandonDuePolls b (applyPendingRate b (settleBranchWork b s))).branches =
      (applyPendingRate b (settleBranchWork b s)).branches := rfl
  rw [habandon, applyPendingRate_eq]
  refine (congrArg (fun x : BranchState => { x with stalled := false }) (modifyBranch_same b _ _)).trans ?_
  rw [hwork, BranchState.rated_without_work]

/-- Every other branch when one has left service. -/
theorem leaveService_branch_other {b d : Branch} (h : d ≠ b) (s : State) :
    otherBranchKept s.branches[d] (leaveService b s).branches[d] := by
  have hwork := settleBranchWork_branch_other h s
  unfold leaveService
  dsimp only
  rw [modifyBranch_other h]
  have habandon : (abandonDuePolls b (applyPendingRate b (settleBranchWork b s))).branches =
      (applyPendingRate b (settleBranchWork b s)).branches := rfl
  rw [habandon, applyPendingRate_eq]
  have hrate : (modifyBranch b BranchState.rated (settleBranchWork b s)).branches[d] =
      (settleBranchWork b s).branches[d] := modifyBranch_other h _ _
  exact hrate ▸ hwork

end Sys2Proof.Machine
end

section
/-!
Settlement of the statements about the rows as terms: which of them run, what a part held in reset and a trunk that
hears nothing make of them, and the frames of the management rows (sections 10.2, 10.4, 10.5, 10.9).
-/

namespace Sys2Proof.Machine

-- The gate's memory limit counts every thread's arena, so the declarations are elaborated one after another.
set_option Elab.async false

/-- Settles O1: a step takes the command at the front and runs it with the rest. -/
theorem stepRunsTheFrontCommand : Obligations.StepRunsTheFrontCommand := by
  intro c rest s h
  unfold step
  rw [h]

/-! ### Rows that run -/

/-- A row that is sent as a frame is one whole frame on the trunk. -/
theorem exec_command {c : Instr} {d : List Byte} (h : Laws.commandData c = some d) (s : State) :
    ∃ a, exec c s = trunkFrame a d s := by
  cases c with
  | trunkGoodFrame a data =>
    rw [← Option.some.inj h]
    exact ⟨a, rfl⟩
  | _ => exact ⟨_, Laws.exec_commandData h (by simp) s⟩

/-- Every row that is sent as a frame is well formed exactly when its DATA fits one. -/
theorem frameFits (c : Instr) : Laws.FrameFits.Statement c := by
  cases c with
  | resetAsserted => exact Laws.FrameFits.resetAsserted
  | resetRelease a r => exact Laws.FrameFits.resetRelease a r
  | receiverSynchronised p => exact Laws.FrameFits.receiverSynchronised p
  | addressCharacter p c => exact Laws.FrameFits.addressCharacter p c
  | dataCharacter p c => exact Laws.FrameFits.dataCharacter p c
  | framingError p => exact Laws.FrameFits.framingError p
  | lineBreak p => exact Laws.FrameFits.lineBreak p
  | characterTimeout p => exact Laws.FrameFits.characterTimeout p
  | guardMet p => exact Laws.FrameFits.guardMet p
  | trunkGoodFrame a data => exact Laws.FrameFits.trunkGoodFrame a data
  | identify q => exact Laws.FrameFits.identify q
  | getParam q i => exact Laws.FrameFits.getParam q i
  | setParam q i v => exact Laws.FrameFits.setParam q i v
  | readEntry q k i c => exact Laws.FrameFits.readEntry q k i c
  | writeEntry q k i e => exact Laws.FrameFits.writeEntry q k i e
  | clearEntry q k i => exact Laws.FrameFits.clearEntry q k i
  | copyBank q => exact Laws.FrameFits.copyBank q
  | swapBanks q => exact Laws.FrameFits.swapBanks q
  | submit q a data => exact Laws.FrameFits.submit q a data
  | collect q t o => exact Laws.FrameFits.collect q t o
  | collectNext q o => exact Laws.FrameFits.collectNext q o
  | cancel q t => exact Laws.FrameFits.cancel q t
  | listPending q => exact Laws.FrameFits.listPending q
  | pollSet q k b a w l => exact Laws.FrameFits.pollSet q k b a w l
  | pollSetUnset q k => exact Laws.FrameFits.pollSetUnset q k
  | pollStart q k w => exact Laws.FrameFits.pollStart q k w
  | pollStop q k => exact Laws.FrameFits.pollStop q k
  | pollRead q k => exact Laws.FrameFits.pollRead q k
  | readSnapshot q k o => exact Laws.FrameFits.readSnapshot q k o
  | readEvents q => exact Laws.FrameFits.readEvents q
  | clearEvents q m => exact Laws.FrameFits.clearEvents q m
  | readCounters q p c => exact Laws.FrameFits.readCounters q p c
  | branchControlQuery q b => exact Laws.FrameFits.branchControlQuery q b
  | branchControlDisable q b => exact Laws.FrameFits.branchControlDisable q b
  | branchControlEnable q b => exact Laws.FrameFits.branchControlEnable q b
  | restart q => exact Laws.FrameFits.restart q
  | arbitration b => exact Laws.FrameFits.arbitration b
  | branchSendComplete b => exact Laws.FrameFits.branchSendComplete b
  | branchContention b => exact Laws.FrameFits.branchContention b
  | responseWindowExpiry b => exact Laws.FrameFits.responseWindowExpiry b
  | answerEnd b r => exact Laws.FrameFits.answerEnd b r
  | quarantineExpiry b => exact Laws.FrameFits.quarantineExpiry b
  | holdExpiry r => exact Laws.FrameFits.holdExpiry r
  | slotExpiry k => exact Laws.FrameFits.slotExpiry k
  | trunkReplySent => exact Laws.FrameFits.trunkReplySent
  | trunkContention => exact Laws.FrameFits.trunkContention
  | startBit p c => exact Laws.FrameFits.startBit p c
  | breakEnd p => exact Laws.FrameFits.breakEnd p

/-- A row that is sent as a frame is heard when it is well formed, and is no frame otherwise. -/
theorem exec_command_of_wellFormed {c : Instr} {d : List Byte} (h : Laws.commandData c = some d) (s : State) :
    (c.wellFormed = true → ∃ a, exec c s = .next (hearTrunkFrame a d s)) ∧
      (c.wellFormed = false → exec c s = .refused .notAFrame) := by
  obtain ⟨a, ha⟩ := exec_command h s
  rw [ha, trunkFrame]
  refine ⟨fun hw => ⟨a, if_pos ((frameFits c d h).mp hw)⟩, fun hw => if_neg fun hd => ?_⟩
  rw [(frameFits c d h).mpr hd] at hw
  exact Bool.noConfusion hw

/-- Settles O2: the rows that are sent as frames, ANSWER_END, and those of every other term are separate cases. -/
theorem onlyIllFormedTermsAreRefused : Obligations.OnlyIllFormedTermsAreRefused := by
  intro c s
  cases h : Laws.commandData c with
  | some d =>
    obtain ⟨hnext, href⟩ := exec_command_of_wellFormed h s
    exact ⟨fun hw => (hnext hw).imp' _ fun _ => id, href⟩
  | none =>
    cases c with
    | answerEnd b report =>
      show (report.wellFormed = true → ∃ t, execAnswerEnd b report s = .next t) ∧
        (report.wellFormed = false → execAnswerEnd b report s = .refused .notAFrame)
      unfold execAnswerEnd
      exact ⟨fun hw => ⟨_, if_pos hw⟩, fun hw => if_neg (by simp [hw])⟩
    | resetAsserted | resetRelease | receiverSynchronised | addressCharacter | dataCharacter | framingError
    | lineBreak | characterTimeout | guardMet | arbitration | branchSendComplete | branchContention
    | responseWindowExpiry | quarantineExpiry | holdExpiry | slotExpiry | trunkReplySent | trunkContention
    | startBit | breakEnd =>
      exact ⟨fun _ => ⟨_, rfl⟩, fun hw => by simp [Instr.wellFormed] at hw⟩
    | _ => simp [Laws.commandData] at h

/-! ### A part that hears nothing -/

/-- Held in reset, no port hears its line. -/
theorem hears_of_inReset {s : State} (h : s.inReset = true) (p : Port) : hears s p = false := by simp [hears, h]

/-- A port that does not hear its line takes no start bit. -/
theorem receives_of_not_hears {s : State} {p : Port} (h : hears s p = false) : receives s p = false := by
  simp [receives, h]

/-- No frame comes about on a trunk that takes no start bit, or that sends. -/
theorem hearTrunkFrame_of_not_heard {s : State}
    (h : receives s .trunk = false ∨ s.trunk.port.tx.sending = true) (a : Byte) (data : List Byte) :
    hearTrunkFrame a data s = s := by
  unfold hearTrunkFrame
  rcases h with h | h <;> simp [h]

/-- Settles O4: a row of a line hears nothing, a row of a timer or of a transmission does nothing in reset, and a frame
is not received. -/
theorem nothingHappensInReset : Obligations.NothingHappensInReset := by
  intro c s hr hw hna hnr
  have hh := hears_of_inReset hr
  have hrec := fun p => receives_of_not_hears (hh p)
  cases h : Laws.commandData c with
  | some d =>
    obtain ⟨a, ha⟩ := (exec_command_of_wellFormed h s).1 hw
    rw [ha, hearTrunkFrame_of_not_heard (.inl (hrec _))]
  | none =>
    cases c with
    | resetAsserted => exact absurd rfl hna
    | resetRelease a r => exact absurd rfl (hnr a r)
    | receiverSynchronised p =>
      exact congrArg _ (by simp [synchronise, hh] : synchronise p s = s)
    | addressCharacter p c => exact congrArg _ (by simp [hearCharacter, hh] : hearCharacter p c true s = s)
    | dataCharacter p c => exact congrArg _ (by simp [hearCharacter, hh] : hearCharacter p c false s = s)
    | framingError p => exact congrArg _ (by simp [hearFramingError, hh] : hearFramingError p s = s)
    | lineBreak p => exact congrArg _ (by simp [hearBreak, hh] : hearBreak p s = s)
    | characterTimeout p => exact congrArg _ (by simp [timeoutCharacter, hh] : timeoutCharacter p s = s)
    | guardMet p =>
      have hguard : meetGuard p s = s := by
        unfold meetGuard
        split
        · simp [hrec]
        · rfl
        · rfl
      exact congrArg _ hguard
    | startBit p confirmed => exact congrArg _ (by simp [hearStartBit, hrec] : hearStartBit p confirmed s = s)
    | breakEnd p => exact congrArg _ (by simp [hearBreakEnd, hh] : hearBreakEnd p s = s)
    | answerEnd b report =>
      show execAnswerEnd b report s = .next s
      have hend : endAnswer b report s = s := by simp [endAnswer, hrec]
      unfold execAnswerEnd
      rw [if_pos (show report.wellFormed = true from hw), hend]
    | arbitration | branchSendComplete | branchContention | responseWindowExpiry | quarantineExpiry | holdExpiry
    | slotExpiry | trunkReplySent | trunkContention =>
      exact congrArg _ (if_pos hr)
    | _ => simp [Laws.commandData] at h

/-- Settles O26: each row is by definition the frame of its code, sequence number and arguments; a frame that is not
received changes nothing. -/
theorem commandRowsAreTheirFrames : Obligations.CommandRowsAreTheirFrames := by
  intro q a b c w e l s frame high low
  have row : ∀ {i : Instr} {d : List Byte}, Laws.commandData i = some d → (∀ a data, i ≠ .trunkGoodFrame a data) →
      exec i s = frame d := fun hd hi => Laws.exec_commandData hd hi s
  refine ⟨row rfl (by simp), row rfl (by simp), row rfl (by simp), row rfl (by simp), row rfl (by simp),
    row rfl (by simp), row rfl (by simp), row rfl (by simp), row rfl (by simp), row rfl (by simp), row rfl (by simp),
    row rfl (by simp), row rfl (by simp), row rfl (by simp), row rfl (by simp), row rfl (by simp), row rfl (by simp),
    row rfl (by simp), row rfl (by simp), row rfl (by simp), row rfl (by simp), row rfl (by simp), row rfl (by simp),
    row rfl (by simp), row rfl (by simp), row rfl (by simp), fun h hl => ?_⟩
  show trunkFrame a l s = .next s
  rw [trunkFrame, if_pos hl, hearTrunkFrame_of_not_heard h]

/-! ### The receiver rows -/

/-- Settles O5: each row is one change of its port, under the condition that it names. -/
theorem receiverRowsActOnTheirPort : Obligations.ReceiverRowsActOnTheirPort := by
  intro p s
  refine ⟨fun hh hb hs => congrArg Host.Outcome.next ?_, fun hr => congrArg Host.Outcome.next ?_,
    congrArg Host.Outcome.next ?_, fun hh hb => congrArg Host.Outcome.next ?_⟩
  · unfold synchronise
    rw [if_pos (by simp [hh, hb, hs])]
    rfl
  · unfold hearStartBit
    rw [if_pos (by simp [hr])]
  · unfold hearStartBit
    rw [if_neg (by simp)]
  · unfold hearBreakEnd
    rw [if_pos (by simp [hh, hb])]

/-! ### Reset -/

/-- A port of a part at its reset values is a port at its reset values. -/
theorem resetPart_port (a : BitVec 3) (r : BitVec 2) (held : Bool) (waiting : List Instr) (p : Port) :
    ∃ rate, (resetPart a r held waiting).port p = PortState.atReset rate := by
  cases p with
  | trunk => exact ⟨_, rfl⟩
  | branch b => exact ⟨1, congrArg BranchState.port (resetPart_branches a r held waiting b)⟩

/-- A part held in reset drives nothing and hears nothing. -/
theorem linesReleased_resetPart (a : BitVec 3) (r : BitVec 2) (waiting : List Instr) :
    LinesReleased (resetPart a r true waiting) := by
  refine ⟨fun p => ⟨rfl, fun bit => ?_, rfl⟩, rfl⟩
  obtain ⟨rate, hp⟩ := resetPart_port a r true waiting p
  simp [State.txd, hp, PortState.atReset]

/-- Every counter of a part at its reset values is 0. -/
theorem groupCounters_resetPart (a : BitVec 3) (r : BitVec 2) (held : Bool) (waiting : List Instr) (p : Port) :
    ∀ n ∈ groupCounters p (resetPart a r held waiting), n = 0 := by
  cases p with
  | trunk => simp [groupCounters, trunkCounterList, resetPart, State.atReset, PortState.atReset, PortCounters.zero,
      TrunkCounters.zero]
  | branch b =>
    simp only [groupCounters, resetPart_branches]
    decide

/-- Every buffer of a part at its reset values is free. -/
theorem freeCount_resetPart (a : BitVec 3) (r : BitVec 2) (held : Bool) (waiting : List Instr) :
    freeCount (resetPart a r held waiting) = 48 := by
  show (Vector.replicate Config.bufferCount Buffer.empty).toList.countP _ = 48
  decide

/-- Settles O3: the reset rows answer the part at its reset values, whose fields are read off one by one. -/
theorem resetRowsResetEveryBlock : Obligations.ResetRowsResetEveryBlock := by
  refine ⟨fun s => ⟨resetPart s.strapA s.strapR true s.pending, rfl, rfl, linesReleased_resetPart _ _ _, rfl, rfl,
    rfl, rfl⟩, fun strapA strapR s => ⟨resetPart strapA strapR false s.pending, rfl, rfl, rfl, rfl, rfl, rfl, ?_, rfl,
    rfl, rfl, rfl, rfl, rfl, rfl, rfl, groupCounters_resetPart _ _ _ _ .trunk, fun b => ?_,
    resetPart_entries _ _ _ _, rfl,
    resetPart_records _ _ _ _, rfl, rfl, resetPart_slots _ _ _ _, freeCount_resetPart _ _ _ _, rfl, rfl, rfl⟩⟩
  · show strapRate strapR = _
    revert strapR
    decide
  · have hcounters := groupCounters_resetPart strapA strapR false s.pending (.branch b)
    rw [resetPart_branches]
    exact ⟨rfl, rfl, rfl, rfl, rfl, rfl, rfl, rfl, rfl, rfl, rfl, rfl, rfl, rfl, rfl, rfl, rfl, rfl, rfl, hcounters⟩

end Sys2Proof.Machine
end

section
/-!
The line ports: what a character, an error and a met guard come to as one change of the port, of the flags and of the
pool (sections 1.4 to 1.6), and the settlement of the statements about them.
-/

namespace Sys2Proof.Machine

-- The gate's memory limit counts every thread's arena, so the declarations are elaborated one after another.
set_option Elab.async false

/-! ### One change of a port -/

/-- The part with one line port, the flags and the pool changed. -/
def lineChange (p : Port) (f : PortState → PortState) (flags : BitVec 12)
    (buffers : Vector Buffer Config.bufferCount) (s : State) : State :=
  { modifyPort p f s with flags := flags, buffers := buffers }

/-- A change of a port alone. -/
theorem modifyPort_eq_lineChange (p : Port) (f : PortState → PortState) (s : State) :
    modifyPort p f s = lineChange p f s.flags s.buffers s := by
  cases p <;> rfl

/-- Two changes of a port are one. -/
theorem lineChange_lineChange (p : Port) (f g : PortState → PortState) (x y : BitVec 12)
    (v w : Vector Buffer Config.bufferCount) (s : State) :
    lineChange p f x v (lineChange p g y w s) = lineChange p (fun q => f (g q)) x v s := by
  have hcomp := modifyPort_modifyPort p f g s
  unfold lineChange
  rw [← hcomp]
  cases p <;> rfl

/-- A further change of the port alone. -/
theorem modifyPort_lineChange (p : Port) (f g : PortState → PortState) (x : BitVec 12)
    (v : Vector Buffer Config.bufferCount) (s : State) :
    modifyPort p f (lineChange p g x v s) = lineChange p (fun q => f (g q)) x v s :=
  (modifyPort_eq_lineChange p f _).trans (lineChange_lineChange p f g _ _ _ _ s)

/-- A change of a port is what it makes of the port as it stands. -/
theorem lineChange_congr {p : Port} {f g : PortState → PortState} {s : State} (h : f (s.port p) = g (s.port p))
    (x : BitVec 12) (v : Vector Buffer Config.bufferCount) : lineChange p f x v s = lineChange p g x v s := by
  unfold lineChange
  rw [modifyPort_congr h]

/-- A flag raised after a change of a port. -/
theorem raise_lineChange (f : Flag) (p : Port) (g : PortState → PortState) (x : BitVec 12)
    (v : Vector Buffer Config.bufferCount) (s : State) :
    raise f (lineChange p g x v s) = lineChange p g (x ||| flagMask f) v s := rfl

/-- The port after a change of it. -/
theorem lineChange_port (p : Port) (f : PortState → PortState) (x : BitVec 12) (v : Vector Buffer Config.bufferCount)
    (s : State) : (lineChange p f x v s).port p = f (s.port p) := by
  refine Eq.trans ?_ (modifyPort_port p f s)
  cases p <;> rfl

/-- A frame that is cut short is one change of its port. -/
theorem truncateOpen_lineChange (p : Port) (s : State) : truncateOpen p s =
    lineChange p PortState.cut (truncatedFlags (s.port p) s.flags) (cutBuffers p s) s := truncateOpen_eq p s

/-- The frame of a change of a port: its port, what is left of the rest, the flags and the pool. -/
theorem lineChange_meets {p : Port} {f : PortState → PortState} {x : BitVec 12} {s : State} :
    let t := lineChange p f x (cutBuffers p s) s
    t.port p = f (s.port p) ∧ modifyPort p (fun _ => s.port p) { t with buffers := s.buffers, flags := s.flags } = s ∧
      t.flags = x ∧ truncatedFrames p s t := by
  refine ⟨lineChange_port p f x _ s, ?_, rfl, cutBuffers_frames p rfl⟩
  refine Eq.trans ?_ (modifyPort_restored p f s)
  cases p <;> rfl

/-- A change of a port touches its controller's piece, the pool and the flags alone. -/
theorem lineChange_sameBut (p : Port) (f : PortState → PortState) (x : BitVec 12)
    (v : Vector Buffer Config.bufferCount) (s : State) :
    SameBut [portPart p, .buffers, .flags] s (lineChange p f x v s) := by
  refine SameBut.trans_append (e := [portPart p]) (f := [.buffers, .flags]) (modifyPort_sameBut p f s)
    ⟨rfl, fun q _ hq => ?_⟩
  cases q with
  | buffers | flags => exact absurd (by decide) hq
  | pins => exact ⟨rfl, rfl, rfl⟩
  | lastCommand => exact ⟨rfl, rfl⟩
  | _ => rfl

/-! ### A character is heard -/

/-- A character heard by a port that takes start bits and does not send is received (R3, R18). -/
theorem hearCharacter_received {p : Port} {s : State} (hr : receives s p = true) (ht : (s.port p).tx.sending = false)
    (c : Byte) (mark : Bool) :
    hearCharacter p c mark s = if mark then receiveAddress p c s else receiveData p c s := by
  have hh : hears s p = true := by
    unfold receives at hr
    simp only [Bool.and_eq_true] at hr
    exact hr.1.1
  unfold hearCharacter
  rw [if_pos hh]
  cases htx : (s.port p).tx with
  | send f k => rw [htx] at ht; exact Bool.noConfusion ht
  | quiet => dsimp only; rw [if_pos hr]
  | lead f => dsimp only; rw [if_pos hr]

/-- A data character that is received (R8). -/
theorem exec_data_received {p : Port} {s : State} (hr : receives s p = true) (ht : (s.port p).tx.sending = false)
    (c : Byte) : exec (.dataCharacter p c) s = .next (receiveData p c s) :=
  congrArg Host.Outcome.next (hearCharacter_received hr ht c false)

/-- An address character that is received (R8). -/
theorem exec_address_received {p : Port} {s : State} (hr : receives s p = true) (ht : (s.port p).tx.sending = false)
    (c : Byte) : exec (.addressCharacter p c) s = .next (receiveAddress p c s) :=
  congrArg Host.Outcome.next (hearCharacter_received hr ht c true)

/-- The end of a character leaves the receive side. -/
theorem characterEnds_rx (p : Port) (s : State) : ((characterEnds p s).port p).rx = (s.port p).rx := by
  unfold characterEnds
  rw [modifyPort_port]

/-- The end of a character leaves the state of every branch. -/
theorem characterEnds_status (p : Port) (b : Branch) (s : State) :
    (characterEnds p s).branches[b].status = s.branches[b].status := by
  cases p with
  | trunk => rfl
  | branch d =>
    by_cases h : b = d
    · subst h
      exact (congrArg BranchState.status (modifyPort_branch_same b
        (fun q => { q with lineRest := 0, charInProgress := false, gapTimeout := q.charTimeout }) s)).trans rfl
    · exact congrArg BranchState.status (modifyPort_branch_other h
        (fun q => { q with lineRest := 0, charInProgress := false, gapTimeout := q.charTimeout }) s)

/-- A data character inside a frame takes its next position (R8). -/
theorem receiveData_assemble {p : Port} {a : Assembly} {s : State} (h : (s.port p).rx = .assemble a) (c : Byte) :
    receiveData p c s = takePosition p a c (characterEnds p s) := by
  unfold receiveData
  dsimp only
  rw [characterEnds_rx, h]

/-- A character that neither completes the frame nor makes it malformed goes on with it. -/
theorem takePosition_goesOn {p : Port} {a : Assembly} {c : Byte} (hcount : a.got.length = 1 → c.toNat ≤ 60)
    (hopen : frameComplete (a.got ++ [c]) = false) (s : State) : takePosition p a c s =
      setRx p (.assemble { a with got := a.got ++ [c] }) (storeChars p a.stored (a.got ++ [c]) s) := by
  have hfit : ¬ ((a.got ++ [c]).length = 2 ∧ Config.maxData < c.toNat) := by
    rintro ⟨hlen, hc⟩
    rw [List.length_append, List.length_singleton] at hlen
    exact absurd (hcount (by omega)) (Nat.not_le.mpr hc)
  unfold takePosition
  dsimp only
  rw [if_neg hfit, hopen]
  rfl

/-- A COUNT above 60 makes the frame malformed (R11). -/
theorem takePosition_malformed {p : Port} {a : Assembly} {c : Byte} (hlen : a.got.length = 1) (hc : 60 < c.toNat)
    (s : State) : takePosition p a c s = malformedFrame p a.stored (storeChars p a.stored (a.got ++ [c]) s) := by
  unfold takePosition
  dsimp only
  rw [if_pos ⟨by rw [List.length_append, hlen]; rfl, hc⟩]

/-- The last character completes the frame (R8). -/
theorem takePosition_completes {p : Port} {a : Assembly} {c : Byte} (hcomplete : frameComplete (a.got ++ [c]) = true)
    (s : State) : takePosition p a c s =
      frameCompletes p a.stored (a.got ++ [c]) (storeChars p a.stored (a.got ++ [c]) s) := by
  have hfit : ¬ ((a.got ++ [c]).length = 2 ∧ Config.maxData < c.toNat) := by
    rintro ⟨hlen, -⟩
    unfold frameComplete at hcomplete
    simp only [Bool.and_eq_true, beq_iff_eq] at hcomplete
    omega
  unfold takePosition
  dsimp only
  rw [if_neg hfit, if_pos hcomplete]

/-- Settles O9, by the receive side of the port. -/
theorem dataCharacterReceived : Obligations.DataCharacterReceived := by
  intro p c s hr ht rested
  rw [exec_data_received hr ht c]
  refine ⟨fun a ha hcount hopen => congrArg Host.Outcome.next ?_, fun hd => congrArg Host.Outcome.next ?_,
    fun hh => congrArg Host.Outcome.next ?_⟩
  · have hnot : frameComplete (a.got ++ [c]) = false := by
      unfold frameComplete
      rw [Bool.eq_false_iff]
      intro h
      simp only [Bool.and_eq_true, decide_eq_true_eq, beq_iff_eq] at h
      exact hopen h
    rw [receiveData_assemble ha, takePosition_goesOn hcount hnot]
    rfl
  · unfold receiveData
    dsimp only
    rw [characterEnds_rx, hd]
    rfl
  · unfold receiveData
    dsimp only
    rw [characterEnds_rx, hh]
    cases p with
    | trunk => rfl
    | branch b =>
      dsimp only [dataOutside]
      rw [characterEnds_status]
      rfl

/-! ### A frame ends -/

/-- A failure is nothing to the trunk, nor to a branch that only follows the frame (R87). -/
theorem reportFailure_followed {p : Port} {stored : Bool} (h : p = .trunk ∨ stored = false) (s : State) :
    reportFailure p stored s = s := by
  cases p with
  | trunk => rfl
  | branch b =>
    obtain h | h := h
    · exact absurd h (by simp)
    · subst h
      rfl

/-- The return of a buffer takes what was written into it (R118). -/
theorem returnBuffer_writeBuffer (h : Holder) (chars : List Byte) (s : State) :
    returnBuffer h (writeBuffer h chars s) = returnBuffer h s := by
  refine state_ext_buffers rfl fun i => ?_
  rw [returnBuffer_buffers, returnBuffer_buffers, writeBuffer_buffers]
  generalize s.buffers[i] = c
  by_cases hc : c.holder = h <;> simp [hc]

/-- The trunk's buffer is returned, and a branch's frame was followed: the pool as when the frame is cut short. -/
theorem returnAssembly_storeChars {p : Port} {a : Assembly} {s u : State} (h : p = .trunk ∨ a.stored = false)
    (ha : (s.port p).rx = .assemble a) (hu : u.buffers = s.buffers) (chars : List Byte) :
    returnAssembly p (storeChars p a.stored chars u) = { u with buffers := cutBuffers p s } := by
  cases p with
  | trunk =>
    have hb : cutBuffers .trunk s = (returnBuffer .trunkAssembly u).buffers := by
      unfold cutBuffers
      rw [ha]
      show (returnBuffer .trunkAssembly s).buffers = _
      unfold returnBuffer
      rw [hu]
    show returnBuffer .trunkAssembly (storeChars .trunk a.stored chars u) = _
    rw [hb]
    unfold storeChars
    split
    · exact returnBuffer_writeBuffer .trunkAssembly chars u
    · rfl
  | branch b =>
    obtain h | h := h
    · exact absurd h (by simp)
    · rw [h]
      show u = { u with buffers := s.buffers }
      rw [← hu]

/-- A frame that ends on a port that stores no answer, malformed or with a check error: one change of the port. -/
theorem returnAssembly_lineChange {p : Port} {a : Assembly} {s : State} (h : p = .trunk ∨ a.stored = false)
    (ha : (s.port p).rx = .assemble a) (chars : List Byte) (f : PortState → PortState) (x : BitVec 12) :
    returnAssembly p (lineChange p f x (storeChars p a.stored chars s).buffers s) =
      lineChange p f x (cutBuffers p s) s := by
  cases p with
  | trunk =>
    have hb := congrArg State.buffers (returnAssembly_storeChars (.inl rfl) ha (u := s) rfl chars)
    show lineChange .trunk f x (returnBuffer .trunkAssembly (storeChars .trunk a.stored chars s)).buffers s = _
    exact congrArg (fun v => lineChange .trunk f x v s) hb
  | branch b =>
    obtain h | h := h
    · exact absurd h (by simp)
    · rw [h]
      rfl

/-- A character that has ended and been stored is one change of its port. -/
theorem storeChars_characterEnds (p : Port) (stored : Bool) (chars : List Byte) (s : State) :
    storeChars p stored chars (characterEnds p s) =
      lineChange p (fun q => { q with lineRest := 0, charInProgress := false, gapTimeout := q.charTimeout }) s.flags
        (storeChars p stored chars s).buffers s := by
  cases p <;> cases stored <;> rfl

/-- Settles O10: the malformed frame is one change of its port, the flags and the pool. -/
theorem malformedCountDiscardsTheFrame : Obligations.MalformedCountDiscardsTheFrame := by
  intro p a c s hr ht ha hfollowed hlen hc
  refine ⟨_, exec_data_received hr ht c, ?_⟩
  have heq : receiveData p c s = lineChange p (fun q => { q with
      rx := .discard, lineRest := 0, charInProgress := false, gapTimeout := q.charTimeout
      counters := truncatedOnce (s.port p) }) (s.flags ||| flagMask .lineError) (cutBuffers p s) s := by
    rw [receiveData_assemble ha, takePosition_malformed hlen hc, storeChars_characterEnds, malformedFrame,
      reportFailure_followed hfollowed, setRx, countTruncated, modifyPortCounters, modifyPort_lineChange,
      modifyPort_lineChange, raise_lineChange]
    refine (returnAssembly_lineChange hfollowed ha (a.got ++ [c]) _ _).trans (lineChange_congr ?_ _ _)
    unfold truncatedOnce
    rw [ha]
  rw [heq]
  exact lineChange_meets

/-- Settles O11: the end of such a frame is one change of its port, the flags and the pool. -/
theorem frameCompletesWithoutAnAction : Obligations.FrameCompletesWithoutAnAction := by
  intro p a c s hr ht ha hcomplete chars q
  have hdata : receiveData p c s = frameCompletes p a.stored chars (lineChange p (fun q => { q with
      lineRest := 0, charInProgress := false, gapTimeout := q.charTimeout }) s.flags
      (storeChars p a.stored chars s).buffers s) := by
    rw [receiveData_assemble ha, takePosition_completes hcomplete, storeChars_characterEnds]
  have hrow := exec_data_received hr ht c
  rw [hdata] at hrow
  unfold frameCompletes at hrow
  refine ⟨fun hcheck hfollowed => ⟨_, hrow, ?_⟩, fun hcheck b hp hfollowed => hrow.trans (congrArg _ ?_)⟩
  · have heq : checkError p a.stored (setRx p .hunt (lineChange p (fun q => { q with
        lineRest := 0, charInProgress := false, gapTimeout := q.charTimeout }) s.flags
        (storeChars p a.stored chars s).buffers s)) = lineChange p (fun q => { q with
        rx := .hunt, lineRest := 0, charInProgress := false, gapTimeout := q.charTimeout
        counters := { q.counters with checkErrors := countUp q.counters.checkErrors } })
        (s.flags ||| flagMask .lineError) (cutBuffers p s) s := by
      rw [checkError, reportFailure_followed hfollowed, setRx, modifyPortCounters, modifyPort_lineChange,
        modifyPort_lineChange, raise_lineChange]
      exact returnAssembly_lineChange hfollowed ha chars _ _
    dsimp only
    rw [hcheck, if_neg (by simp), heq]
    exact lineChange_meets
  · rw [hcheck, if_pos rfl]
    subst hp
    rw [hfollowed, goodFrame, if_neg (by simp), countGood, modifyPortCounters, setRx, modifyPort_lineChange,
      modifyPort_lineChange, modifyPort_eq_lineChange]
    exact lineChange_congr rfl _ _

end Sys2Proof.Machine
end

section
/-!
Line errors, the guard and the echo: settlement of the statements about them (sections 1.4 to 1.6).
-/

namespace Sys2Proof.Machine

-- The gate's memory limit counts every thread's arena, so the declarations are elaborated one after another.
set_option Elab.async false

/-! ### Frames cut short -/

/-- A frame that is cut short after a change of the port that leaves the receive side. -/
theorem truncateOpen_after {p : Port} {f : PortState → PortState} {s : State}
    (hrx : (f (s.port p)).rx = (s.port p).rx) (x : BitVec 12) :
    truncateOpen p (lineChange p f x s.buffers s) =
      lineChange p (fun q => (f q).cut) (truncatedFlags (s.port p) x) (cutBuffers p s) s := by
  have hflags : truncatedFlags ((lineChange p f x s.buffers s).port p) x = truncatedFlags (s.port p) x := by
    rw [lineChange_port, truncatedFlags, truncatedFlags, hrx]
  have hpool : cutBuffers p (lineChange p f x s.buffers s) = cutBuffers p s := by
    unfold cutBuffers
    rw [lineChange_port, hrx]
    rfl
  rw [truncateOpen_lineChange, lineChange_lineChange, hpool]
  exact congrArg (fun y => lineChange p (fun q => (f q).cut) y (cutBuffers p s) s) hflags

/-- The status of every branch stands when a port changes. -/
theorem lineChange_status (p : Port) (f : PortState → PortState) (x : BitVec 12)
    (v : Vector Buffer Config.bufferCount) (s : State) (b : Branch) :
    (lineChange p f x v s).branches[b].status = s.branches[b].status := by
  cases p with
  | trunk => rfl
  | branch d =>
    by_cases h : b = d
    · subst h
      exact (congrArg BranchState.status (modifyPort_branch_same b f s)).trans rfl
    · exact congrArg BranchState.status (modifyPort_branch_other h f s)

/-- Where no answer is being stored, a frame that is cut short is truncated and nothing more comes of it (R13, R87). -/
theorem cutShort_of_no_answer {p : Port} {s : State} (h : storesAnswer p s = false) :
    cutShort p s = truncateOpen p s := by
  unfold cutShort reportFailure
  cases p with
  | trunk => rfl
  | branch b =>
    have hstatus : (truncateOpen (.branch b) s).branches[b].status = s.branches[b].status := by
      rw [truncateOpen_lineChange]
      exact lineChange_status _ _ _ _ s b
    dsimp only
    rw [hstatus, if_neg (by rw [show (storing (.branch b) s && s.branches[b].status == .recv) = false from h]; simp)]

/-- A change of the port that leaves the receive side leaves whether an answer is being stored. -/
theorem storesAnswer_lineChange {p : Port} {f : PortState → PortState} {s : State}
    (hrx : (f (s.port p)).rx = (s.port p).rx) (x : BitVec 12) (v : Vector Buffer Config.bufferCount) :
    storesAnswer p (lineChange p f x v s) = storesAnswer p s := by
  cases p with
  | trunk => rfl
  | branch b =>
    show (storing _ (lineChange (.branch b) f x v s) && _) = (storing _ s && _)
    rw [lineChange_status]
    unfold storing
    rw [lineChange_port, hrx]

/-- A frame cut short after a change of its port, where no answer is being stored: one change of the port. -/
theorem cutShort_after {p : Port} {f : PortState → PortState} {s : State} (h : storesAnswer p s = false)
    (hrx : (f (s.port p)).rx = (s.port p).rx) (x : BitVec 12) :
    cutShort p (lineChange p f x s.buffers s) =
      lineChange p (fun q => (f q).cut) (truncatedFlags (s.port p) x) (cutBuffers p s) s := by
  rw [cutShort_of_no_answer (by rw [storesAnswer_lineChange hrx]; exact h), truncateOpen_after hrx]

/-- LINE_ERROR that is set already is not set again by a frame cut short. -/
theorem truncatedFlags_lineError (q : PortState) (x : BitVec 12) :
    truncatedFlags q (x ||| flagMask .lineError) = x ||| flagMask .lineError := by
  unfold truncatedFlags
  cases q.rx with
  | hunt | discard => rfl
  | assemble a => dsimp only; rw [BitVec.or_assoc, BitVec.or_self]

/-- A port that takes start bits hears its line. -/
theorem receives_hears {p : Port} {s : State} (h : receives s p = true) : hears s p = true := by
  unfold receives at h
  simp only [Bool.and_eq_true] at h
  exact h.1.1

/-- Settles O12: each row is one change of its port before the open frame is cut short. -/
theorem lineErrorsCutTheOpenFrame : Obligations.LineErrorsCutTheOpenFrame := by
  intro p s hanswer q
  refine ⟨fun hr ht => ⟨_, rfl, ?_⟩, fun hh hc hrx => ⟨_, rfl, ?_⟩, fun hrx => congrArg Host.Outcome.next ?_,
    fun hh hb ht => ⟨_, rfl, ?_⟩, fun hb => congrArg Host.Outcome.next ?_⟩
  · have heq : hearFramingError p s = lineChange p (fun q => { q with
        rx := .hunt, lineRest := 0, charInProgress := false, gapTimeout := q.charTimeout
        counters := truncatedOnce q }) (s.flags ||| flagMask .lineError) (cutBuffers p s) s := by
      unfold hearFramingError characterEnds
      rw [if_pos (receives_hears hr), if_neg (by rw [ht]; simp), if_pos hr, modifyPort_eq_lineChange,
        raise_lineChange, cutShort_after hanswer rfl, truncatedFlags_lineError]
      exact lineChange_congr rfl _ _
    rw [heq]
    exact lineChange_meets
  · have heq : timeoutCharacter p s = lineChange p (fun q => { q with
        rx := .hunt, lineRest := max q.lineRest (q.gapTimeout * characterClocks q.rate + 1)
        counters := truncatedOnce q }) (truncatedFlags q s.flags) (cutBuffers p s) s := by
      unfold timeoutCharacter
      rw [if_pos (by simp [hh, show (s.port p).rx ≠ .hunt from hrx, show (s.port p).charInProgress = false from hc]),
        modifyPort_eq_lineChange,
        cutShort_after hanswer rfl]
      exact lineChange_congr rfl _ _
    rw [heq]
    exact lineChange_meets
  · unfold timeoutCharacter
    rw [if_neg (by simp [show (s.port p).rx = .hunt from hrx])]
  · have heq : hearBreak p s = lineChange p (fun q => { q with
        rx := .hunt, inBreak := true, lineRest := 0, charInProgress := false, counters := truncatedOnce q })
        (s.flags ||| flagMask .lineError) (cutBuffers p s) s := by
      unfold hearBreak
      rw [if_pos (by simp [hh, show (s.port p).inBreak = false from hb])]
      dsimp only
      rw [if_neg (by rw [ht]; simp), modifyPort_eq_lineChange, raise_lineChange, cutShort_after hanswer rfl,
        truncatedFlags_lineError]
      exact lineChange_congr rfl _ _
    rw [heq]
    exact lineChange_meets
  · unfold hearBreak
    rw [if_neg (by simp [show (s.port p).inBreak = true from hb])]

/-! ### The guard -/

/-- The port of a branch and its other fields after its state changes. -/
theorem setStatus_port (b : Branch) (x : BranchStatus) (s : State) (p : Port) :
    (setStatus b x s).port p = s.port p := by
  cases p with
  | trunk => rfl
  | branch d =>
    show (setStatus b x s).branches[d].port = s.branches[d].port
    by_cases h : d = b
    · subst h
      exact (congrArg BranchState.port (modifyBranch_same d (fun y => { y with status := x }) s)).trans rfl
    · exact congrArg BranchState.port (modifyBranch_other h (fun y => { y with status := x }) s)

/-- The branch state that follows its port into SEND leaves the ports. -/
theorem followSend_port (p r : Port) (s : State) : (followSend p s).port r = s.port r := by
  cases p with
  | trunk => rfl
  | branch b => exact setStatus_port b .send s r

/-- The branch state that follows its port into SEND is all that changes. -/
theorem followSend_sameBut (p : Port) (s : State) : SameBut [portPart p] s (followSend p s) := by
  cases p with
  | trunk => exact SameBut.refl _ s
  | branch b => exact modifyBranch_sameBut b _ s

/-- The first level of a frame is that of its ADDRESS with the mark bit (R1, R6). -/
theorem levels_zero (f : TxFrame) : f.levels 0 = some (characterLevels f.address true) := rfl

/-- Settles O13: the guard is met exactly under the three conditions, and SEND is one change of the port. -/
theorem guardMetEntersSend : Obligations.GuardMetEntersSend := by
  intro p f s hlead q
  have hmeet : meetGuard p s = if receives s p && !(s.port p).charInProgress then
      followSend p (modifyPort p (fun q => { q with tx := .send f 0, lineRest := 0 }) (truncateOpen p s)) else s := by
    unfold meetGuard
    rw [hlead]
  refine ⟨fun hr hc => ?_, fun h => congrArg Host.Outcome.next ?_⟩
  · have heq : meetGuard p s = followSend p (lineChange p (fun q => { q with
        tx := .send f 0, rx := .hunt, lineRest := 0, counters := truncatedOnce q }) (truncatedFlags q s.flags)
        (cutBuffers p s) s) := by
      rw [hmeet, if_pos (by simp [hr, show (s.port p).charInProgress = false from hc]), truncateOpen_lineChange,
        modifyPort_lineChange]
      rfl
    have hport : (meetGuard p s).port p = { q with
        tx := .send f 0, rx := .hunt, lineRest := 0, counters := truncatedOnce q } := by
      rw [heq, followSend_port, lineChange_port]
    have hreset : s.inReset = false := by
      have hh := receives_hears hr
      unfold hears at hh
      simp only [Bool.and_eq_true, Bool.not_eq_true'] at hh
      exact hh.1
    have hr' : (meetGuard p s).inReset = false := by
      rw [heq]
      cases p <;> exact hreset
    refine ⟨meetGuard p s, rfl, hport, ?_, fun bit => ?_, ?_, ?_, ?_, ?_, ?_⟩
    · unfold State.driverEnabled
      rw [hr', hport]
      rfl
    · unfold State.txd
      rw [hport]
      dsimp only
      rw [hr', levels_zero]
      rfl
    · rw [heq]
      cases p <;> rfl
    · refine cutBuffers_frames p ?_
      rw [heq]
      cases p <;> rfl
    · rintro b rfl
      rw [heq]
      have hb := (modifyBranch_same b (fun y => { y with status := BranchStatus.send })
        (lineChange (.branch b) (fun q => { q with
          tx := .send f 0, rx := .hunt, lineRest := 0, counters := truncatedOnce q }) (truncatedFlags q s.flags)
          (cutBuffers (.branch b) s) s)).trans
        (congrArg (fun y : BranchState => { y with status := BranchStatus.send }) (modifyPort_branch_same b (fun q =>
          { q with tx := .send f 0, rx := .hunt, lineRest := 0, counters := truncatedOnce q }) s))
      exact hb.trans (congrArg (fun y : BranchState => { s.branches[b] with port := y.port, status := .send }) hb).symm
    · rintro rfl
      rw [heq]
      rfl
    · rw [heq]
      exact (lineChange_sameBut p _ _ _ s).trans ((followSend_sameBut p _).mono (by simp))
  · rw [hmeet, if_neg]
    rcases h with h | h
    · simp [h]
    · simp [show (s.port p).charInProgress = true from h]

end Sys2Proof.Machine
end

section
/-!
The end of a transmission: what the clean end and contention make of the branch and of the trunk port (sections 1.6, 4.3
and 4.5), and the settlement of the statement about the echo.
-/

namespace Sys2Proof.Machine

-- The gate's memory limit counts every thread's arena, so the declarations are elaborated one after another.
set_option Elab.async false

/-! ### The port -/

/-- A port whose frame has been sent cleanly (R20). -/
def PortState.sent (q : PortState) : PortState :=
  { q with
    tx := .quiet, rx := .hunt, lineRest := 0, charInProgress := false
    counters := { q.counters with framesTx := countUp q.counters.framesTx } }

/-- A port whose frame has been lost to contention (R19). -/
def PortState.lost (q : PortState) : PortState :=
  { q with
    tx := .quiet, rx := .hunt, lineRest := 0, charInProgress := false
    counters := { q.counters with contentions := countUp q.counters.contentions } }

/-- The clean end is a change of the port alone. -/
theorem transmissionComplete_eq (p : Port) (s : State) : transmissionComplete p s = modifyPort p PortState.sent s := rfl

/-- Contention is a change of the port, and its flag. -/
theorem transmissionContended_eq (p : Port) (s : State) :
    transmissionContended p s = raise .contention (modifyPort p PortState.lost s) := rfl

/-- A port with no frame open, under a held rate (R22, R89). -/
theorem BranchState.rated_port_of_hunt {x : BranchState} (h : x.port.rx = .hunt) :
    x.rated.port = underRate x.pendingRate x.port := by
  unfold BranchState.rated underRate
  cases hx : x.pendingRate with
  | none => rfl
  | some code =>
    dsimp only [PortState.cut]
    unfold truncatedOnce
    rw [h]

/-- A port with no frame open has none under a held rate. -/
theorem underRate_rx {q : PortState} (h : q.rx = .hunt) (rate : Option Nat) : (underRate rate q).rx = .hunt := by
  cases rate <;> exact h

/-- No flag is set when a held rate finds no frame open. -/
theorem ratedFlags_of_hunt {x : BranchState} (h : x.port.rx = .hunt) (flags : BitVec 12) :
    ratedFlags x flags = flags := by
  unfold ratedFlags truncatedFlags
  rw [h]
  exact ite_self _

/-! ### A branch in contention -/

/-- Contended work that is settled: the part but for the assignment has changed queues and stalls alone. -/
theorem contendedWork_queues (b : Branch) (s : State) : ∃ t, QueuesOnly s t ∧
    (contendedWork b s = dropAssignment b t ∨ contendedWork b s = t ∧ s.branches[b].onLine = none) := by
  unfold contendedWork
  split
  · rename_i hnone
    exact ⟨s, .refl s, .inr ⟨rfl, hnone⟩⟩
  · rename_i i _
    have hcount : QueuesOnly s (countAttempt i s) := .of_branches rfl
    dsimp only
    generalize countAttempt i s = u at hcount
    have hreturn : QueuesOnly u (returnBuffer (.branchAnswer b) u) := .of_branches rfl
    split
    · exact ⟨_, (hcount.trans hreturn).trans (settleAttempt_queuesOnly i b .contention _), .inl rfl⟩
    · exact ⟨_, hcount.trans (groupLeave_queuesOnly b i u), .inl rfl⟩

/-- The branch itself when its contended work has been settled: no assignment, and otherwise its queue and STALLED. -/
theorem contendedWork_branch (b : Branch) (s : State) : ∃ queue stalled, (contendedWork b s).branches[b] =
    { s.branches[b] with onLine := none, queue := queue, stalled := stalled } := by
  obtain ⟨t, ht, hdrop | ⟨hsame, hnone⟩⟩ := contendedWork_queues b s
  · refine ⟨t.branches[b].queue, t.branches[b].stalled, ?_⟩
    rw [hdrop, dropAssignment, modifyBranch_same, (ht b).eq]
  · refine ⟨t.branches[b].queue, t.branches[b].stalled, ?_⟩
    rw [hsame, ← hnone]
    exact (ht b).eq

/-- Every other branch when contended work has been settled. -/
theorem contendedWork_branch_other {b d : Branch} (h : d ≠ b) (s : State) :
    otherBranchKept s.branches[d] (contendedWork b s).branches[d] := by
  obtain ⟨t, ht, hdrop | ⟨hsame, -⟩⟩ := contendedWork_queues b s
  · rw [hdrop, dropAssignment, modifyBranch_other h]
    exact ht d
  · rw [hsame]
    exact ht d

/-- The branch when contention has been counted, before its work is settled (R84). -/
theorem contendedBranch_branch (b : Branch) (s : State) : (contendedBranch b s).branches[b] =
    { s.branches[b] with port := s.branches[b].port.lost, contentionRun := s.branches[b].contentionRun + 1 } := by
  unfold contendedBranch
  rw [modifyBranch_same, transmissionContended_eq]
  exact congrArg (fun x : BranchState => { x with contentionRun := x.contentionRun + 1 })
    (modifyPort_branch_same b PortState.lost s)

/-- Every other branch when contention has been counted. -/
theorem contendedBranch_branch_other {b d : Branch} (h : d ≠ b) (s : State) :
    (contendedBranch b s).branches[d] = s.branches[d] := by
  unfold contendedBranch
  rw [modifyBranch_other h, transmissionContended_eq]
  exact modifyPort_branch_other h PortState.lost s

/-- The quarantine timer of a branch that enters FAULT (R94). -/
def quarantineStart (quarantine : Nat) : Option Timer :=
  if quarantine = 0 then none else some { count := 0, limit := quarantine * 100 }

/-- The branch that has entered FAULT (R94). -/
theorem enterFault_branch (b : Branch) (s : State) : (enterFault b s).branches[b] =
    { s.branches[b].rated with
      onLine := none, queue := [], stalled := false, status := .fault
      quarantineTimer := quarantineStart s.branches[b].quarantine } := by
  have hq : s.branches[b].rated.quarantine = s.branches[b].quarantine := by rw [BranchState.rated_kept]
  unfold enterFault
  dsimp only
  rw [modifyBranch_same]
  have hraise : (raise .branchFault (leaveService b s)).branches = (leaveService b s).branches := rfl
  rw [hraise, leaveService_branch, ← hq]
  rfl

/-- Every other branch when one enters FAULT. -/
theorem enterFault_branch_other {b d : Branch} (h : d ≠ b) (s : State) :
    otherBranchKept s.branches[d] (enterFault b s).branches[d] := by
  unfold enterFault
  dsimp only
  rw [modifyBranch_other h]
  exact leaveService_branch_other h s

/-- The branch after contention, short of the third in a row (R84, R89). -/
theorem sendContended_branch_idle {b : Branch} {s : State} (h : s.branches[b].contentionRun < 2) :
    ∃ queue stalled, (sendContended b s).branches[b] =
      { BranchState.rated { s.branches[b] with
          port := s.branches[b].port.lost, contentionRun := s.branches[b].contentionRun + 1, onLine := none
          queue := queue, stalled := stalled } with status := .idle } := by
  obtain ⟨queue, stalled, hwork⟩ := contendedWork_branch b (contendedBranch b s)
  rw [contendedBranch_branch] at hwork
  refine ⟨queue, stalled, ?_⟩
  rw [sendContended_eq, if_neg (by rw [hwork]; exact Nat.not_le.mpr (Nat.succ_lt_succ h)), enterIdle_branch, hwork]

/-- The branch after the third contention in a row (R84, R94). -/
theorem sendContended_branch_fault {b : Branch} {s : State} (h : 2 ≤ s.branches[b].contentionRun) :
    (sendContended b s).branches[b] =
      { BranchState.rated { s.branches[b] with
          port := s.branches[b].port.lost, contentionRun := s.branches[b].contentionRun + 1 } with
        onLine := none, queue := [], stalled := false, status := .fault
        quarantineTimer := quarantineStart s.branches[b].quarantine } := by
  obtain ⟨queue, stalled, hwork⟩ := contendedWork_branch b (contendedBranch b s)
  rw [contendedBranch_branch] at hwork
  rw [sendContended_eq, if_pos (by rw [hwork]; exact Nat.succ_le_succ h), enterFault_branch, hwork]
  exact congrArg (fun x : BranchState => { x with
    onLine := none, queue := [], stalled := false, status := .fault
    quarantineTimer := quarantineStart s.branches[b].quarantine }) (BranchState.rated_without_work
      { s.branches[b] with
        port := s.branches[b].port.lost, contentionRun := s.branches[b].contentionRun + 1 } none queue stalled)

/-- Every other branch after contention. -/
theorem sendContended_branch_other {b d : Branch} (h : d ≠ b) (s : State) :
    otherBranchKept s.branches[d] (sendContended b s).branches[d] := by
  have hwork := contendedWork_branch_other h (contendedBranch b s)
  rw [contendedBranch_branch_other h] at hwork
  rw [sendContended_eq]
  split
  · exact hwork.trans (enterFault_branch_other h _)
  · rw [enterIdle_branch_other h]
    exact hwork

/-- After contention no frame is open on the port (R19). -/
theorem sentContended_rx (p : Port) (s : State) : ((sentContended p s).port p).rx = .hunt := by
  cases p with
  | trunk =>
    show (settlePending (finishOwed (transmissionContended .trunk s))).trunk.port.rx = .hunt
    unfold settlePending
    have hlost : (finishOwed (transmissionContended .trunk s)).trunk.port.rx = .hunt := rfl
    split
    · exact hlost
    · rw [applyRate_eq]
      rfl
    · exact hlost
  | branch b =>
    show (sendContended b s).branches[b].port.rx = .hunt
    have hport : ∀ x : BranchState, x.port.rx = .hunt → x.rated.port.rx = .hunt := by
      intro x hx
      rw [x.rated_port_of_hunt hx]
      exact underRate_rx hx _
    by_cases h : s.branches[b].contentionRun < 2
    · obtain ⟨queue, stalled, hb⟩ := sendContended_branch_idle h
      rw [hb]
      exact hport _ rfl
    · rw [sendContended_branch_fault (Nat.not_lt.mp h)]
      exact hport _ rfl

/-! ### Echo -/

/-- A port that hears its line is that of a part out of reset. -/
theorem inReset_of_hears {p : Port} {s : State} (h : hears s p = true) : s.inReset = false := by
  unfold hears at h
  simp only [Bool.and_eq_true, Bool.not_eq_true'] at h
  exact h.1

/-- The row of the clean end, while the port sends (R20). -/
theorem exec_sentRow {p : Port} {s : State} (hr : s.inReset = false) (ht : (s.port p).tx.sending = true) :
    exec (sentRow p) s = .next (sentClean p s) := by
  cases p with
  | trunk =>
    show outsideReset (fun s => if s.trunk.port.tx.sending then trunkSent s else s) s = _
    unfold outsideReset
    rw [hr, if_neg (by simp)]
    exact congrArg Host.Outcome.next (if_pos ht)
  | branch b =>
    show outsideReset (fun s => if s.branches[b].port.tx.sending then sendCompleted b s else s) s = _
    unfold outsideReset
    rw [hr, if_neg (by simp)]
    exact congrArg Host.Outcome.next (if_pos ht)

/-- The row of contention, while the port sends (R19). -/
theorem exec_lostRow {p : Port} {s : State} (hr : s.inReset = false) (ht : (s.port p).tx.sending = true) :
    exec (lostRow p) s = .next (sentContended p s) := by
  cases p with
  | trunk =>
    show outsideReset (fun s => if s.trunk.port.tx.sending then trunkContended s else s) s = _
    unfold outsideReset
    rw [hr, if_neg (by simp)]
    exact congrArg Host.Outcome.next (if_pos ht)
  | branch b =>
    show outsideReset (fun s => if s.branches[b].port.tx.sending then sendContended b s else s) s = _
    unfold outsideReset
    rw [hr, if_neg (by simp)]
    exact congrArg Host.Outcome.next (if_pos ht)

/-- With no frame open nothing is cut short. -/
theorem cutShort_of_hunt {p : Port} {s : State} (h : (s.port p).rx = .hunt) : cutShort p s = s := by
  have hnot : storesAnswer p s = false := by
    cases p with
    | trunk => rfl
    | branch b =>
      show (storing (.branch b) s && _) = false
      unfold storing
      rw [h]
      rfl
  rw [cutShort_of_no_answer hnot]
  unfold truncateOpen
  rw [h]

/-- Settles O14: a character heard in SEND is compared with the one sent; each other report of it is contention. -/
theorem echoIsCompared : Obligations.EchoIsCompared := by
  intro p f k c s hh htx chars heard otherMark
  have ht : (s.port p).tx.sending = true := by rw [htx]; rfl
  have hr := inReset_of_hears hh
  have hecho : ∀ mark, hearCharacter p c mark s = echoCharacter p f k c mark s := by
    intro mark
    unfold hearCharacter
    rw [if_pos hh, htx]
  have hheard : exec heard s = .next (echoCharacter p f k c (k == 0) s) := by
    by_cases hk : k = 0
    · subst hk
      exact congrArg Host.Outcome.next (hecho true)
    · have hk' : (k == 0) = false := beq_false_of_ne hk
      rw [hk', ← hecho false, show heard = .dataCharacter p c from if_neg hk]
      rfl
  have hother : exec otherMark s = .next (echoCharacter p f k c (!(k == 0)) s) := by
    by_cases hk : k = 0
    · subst hk
      exact congrArg Host.Outcome.next (hecho false)
    · have hk' : (!(k == 0)) = true := by rw [beq_false_of_ne hk]; rfl
      rw [hk', ← hecho true, show otherMark = .addressCharacter p c from if_neg hk]
      rfl
  refine ⟨fun d bit hd => ?_, fun hc hlen => ?_, fun hc hlen => ?_, fun hc => ?_, ?_, ?_, fun hb => ?_⟩
  · unfold State.txd TxFrame.levels
    rw [htx]
    dsimp only
    rw [hr, show (mkFrame f.address f.data)[k]? = some d from hd]
    rfl
  · rw [hheard, echoCharacter,
      if_pos ⟨hc, rfl⟩, if_neg (Nat.ne_of_lt hlen)]
  · rw [hheard, exec_sentRow hr ht, echoCharacter,
      if_pos ⟨hc, rfl⟩, if_pos hlen]
  · rw [hheard, exec_lostRow hr ht, echoCharacter,
      if_neg fun h => hc h.1]
  · rw [hother, exec_lostRow hr ht, echoCharacter,
      if_neg fun h => by simp at h]
  · rw [exec_lostRow hr ht]
    show Host.Outcome.next (hearFramingError p s) = _
    unfold hearFramingError
    rw [if_pos hh, if_pos ht]
  · refine ⟨_, exec_lostRow hr ht, congrArg Host.Outcome.next ?_⟩
    unfold hearBreak
    rw [if_pos (by simp [hh, hb])]
    dsimp only
    rw [if_pos ht, modifyPort_eq_lineChange, raise_lineChange]
    refine cutShort_of_hunt ?_
    rw [lineChange_port]
    exact sentContended_rx p s

end Sys2Proof.Machine
end

section
/-!
Address characters: the trunk's claim, the unsolicited character and the answer on a branch (sections 1.4, 1.5, 4.1, 4.3
and 6.3), and the settlement of the statements about them.
-/

namespace Sys2Proof.Machine

-- The gate's memory limit counts every thread's arena, so the declarations are elaborated one after another.
set_option Elab.async false

/-! ### The trunk -/

/-- A change of a port that leaves the pool touches its controller's piece and the flags alone. -/
theorem lineChange_sameBut_flags (p : Port) (f : PortState → PortState) (x : BitVec 12) (s : State) :
    SameBut [portPart p, .flags] s (lineChange p f x s.buffers s) := by
  refine SameBut.trans_append (e := [portPart p]) (f := [.flags]) (modifyPort_sameBut p f s) ⟨rfl, fun q _ hq => ?_⟩
  cases q with
  | flags => exact absurd (by decide) hq
  | pins => exact ⟨rfl, rfl, rfl⟩
  | lastCommand => exact ⟨rfl, rfl⟩
  | buffers => exact (modifyPort_buffers p f s).symm
  | _ => rfl

/-- The trunk's claim, with a buffer free: the lowest-numbered one is taken and stores the frame (R14, R120). -/
theorem trunkClaim_free {v : State} (h : 0 < freeCount v) (c : Byte) : ∃ i, v.buffers[i].holder = .free ∧
    (∀ j < i, v.buffers[j].holder ≠ .free) ∧ trunkClaim c v =
      lineChange .trunk (fun q => { q with rx := .assemble { stored := true, got := [c] } }) (claimedFlags v)
        (updateAt v.buffers i fun _ => { holder := .trunkAssembly, chars := [c] }) v := by
  obtain ⟨i, hi, hfree, hclaim⟩ := claimBuffer_eq h (h := .trunkAssembly) (by simp) [c]
  obtain ⟨-, hlow⟩ := lowestIndex_eq_some.mp hi
  refine ⟨i, hfree, fun j hj => by simpa using hlow j hj, ?_⟩
  unfold trunkClaim
  rw [if_neg (Nat.ne_of_gt h), hclaim]
  rfl

/-- A part in which the trunk port, the flags and the pool have changed, with its claim taken from an earlier pool. -/
theorem claimedFlags_lineChange (f : PortState → PortState) (m : BitVec 12) (s : State) :
    claimedFlags (lineChange .trunk f (s.flags ||| m) s.buffers s) = claimedFlags s ||| m := by
  have hcount : freeCount (lineChange .trunk f (s.flags ||| m) s.buffers s) = freeCount s := rfl
  unfold claimedFlags
  rw [hcount]
  show (if freeCount s ≤ s.params.bufLowMark then s.flags ||| m ||| flagMask .bufLow else s.flags ||| m) = _
  split
  · rw [BitVec.or_assoc, BitVec.or_comm m, ← BitVec.or_assoc]
  · rfl

/-- The trunk's claim after a change of its port, with a buffer free. -/
theorem trunkClaim_after (f : PortState → PortState) (m : BitVec 12) {s : State} (h : 0 < freeCount s) (c : Byte) :
    let t := trunkClaim c (lineChange .trunk f (s.flags ||| m) s.buffers s)
    t.trunk = { s.trunk with port := { f s.trunk.port with rx := .assemble { stored := true, got := [c] } } } ∧
      (∃ i : Fin Config.bufferCount, s.buffers[i].holder = .free ∧ (∀ j < i, s.buffers[j].holder ≠ .free) ∧
        t.buffers[i] = { holder := .trunkAssembly, chars := [c] } ∧ ∀ j ≠ i, t.buffers[j] = s.buffers[j]) ∧
      t.flags = claimedFlags s ||| m ∧ SameBut [.trunk, .buffers, .flags] s t := by
  obtain ⟨i, hfree, hlow, hclaim⟩ := trunkClaim_free (v := lineChange .trunk f (s.flags ||| m) s.buffers s) h c
  rw [claimedFlags_lineChange, lineChange_lineChange] at hclaim
  intro t
  have ht : t = _ := hclaim
  rw [ht]
  exact ⟨rfl, ⟨i, hfree, hlow, updateAt_same _ _ _, fun j hj => updateAt_other _ _ hj⟩, rfl,
    lineChange_sameBut .trunk _ _ _ s⟩

/-- The trunk's claim after a change of its port, with no buffer free: the frame is followed (R14, R121). -/
theorem trunkClaim_refused (f : PortState → PortState) (x : BitVec 12) {s : State} (h : freeCount s = 0) (c : Byte) :
    let t := trunkClaim c (lineChange .trunk f x s.buffers s)
    t.trunk = { s.trunk with
        counters := { s.trunk.counters with bufLost := countUp s.trunk.counters.bufLost }
        port := { f s.trunk.port with rx := .assemble { stored := false, got := [c] } } } ∧
      t.flags = x ||| flagMask .bufExhausted ∧ SameBut [.trunk, .flags] s t := by
  intro t
  have ht : t = openFrame .trunk false c (raise .bufExhausted (modifyTrunkCounters
      (fun k => { k with bufLost := countUp k.bufLost }) (lineChange .trunk f x s.buffers s))) := if_pos h
  rw [ht]
  refine ⟨rfl, rfl, rfl, fun q _ hq => ?_⟩
  cases q with
  | trunk | flags => exact absurd (by decide) hq
  | pins => exact ⟨rfl, rfl, rfl⟩
  | lastCommand => exact ⟨rfl, rfl⟩
  | _ => rfl

/-- The port at the end of a character (R5, R22). -/
def PortState.rested (q : PortState) : PortState :=
  { q with lineRest := 0, charInProgress := false, gapTimeout := q.charTimeout }

/-- The end of a character is a change of its port. -/
theorem characterEnds_eq (p : Port) (s : State) :
    characterEnds p s = lineChange p PortState.rested s.flags s.buffers s := modifyPort_eq_lineChange p _ s

/-- A frame that is cut short is counted and flagged after the end of the character that cut it (R13). -/
theorem countTruncated_rested (p : Port) {a : Assembly} {s : State} (h : (s.port p).rx = .assemble a) :
    countTruncated p (characterEnds p s) =
      lineChange p (fun q => { q.rested with counters := truncatedOnce (s.port p) }) (s.flags ||| flagMask .lineError)
        s.buffers s := by
  rw [characterEnds_eq, countTruncated, modifyPortCounters, modifyPort_lineChange, raise_lineChange]
  refine lineChange_congr ?_ _ _
  unfold truncatedOnce
  rw [h]
  rfl

/-- Settles O6, by the receive side of the trunk and whether a buffer is free. -/
theorem trunkAddressCharacterClaims : Obligations.TrunkAddressCharacterClaims := by
  intro c s hr ht
  have hrow := exec_address_received (p := .trunk) hr ht c
  refine ⟨fun hrx => ?_, fun a ha => ?_⟩
  · have hstart : receiveAddress .trunk c s =
      trunkClaim c (lineChange .trunk PortState.rested s.flags s.buffers s) := by
      show trunkFrameStarts c (characterEnds .trunk s) = _
      rw [characterEnds_eq]
      have hkept : (lineChange .trunk PortState.rested s.flags s.buffers s).trunk.port.rx = s.trunk.port.rx := rfl
      unfold trunkFrameStarts
      rw [hkept]
      rcases hrx with hrx | hrx <;> rw [hrx]
    rw [hstart] at hrow
    refine ⟨fun hfree => ⟨_, hrow, ?_⟩, fun hfree => ⟨_, hrow, trunkClaim_refused PortState.rested s.flags hfree c⟩⟩
    have hclaim := trunkClaim_after PortState.rested 0 hfree c
    have hzero : ∀ x : BitVec 12, x ||| 0 = x := fun x => by simp
    rw [hzero s.flags, hzero (claimedFlags s)] at hclaim
    exact hclaim
  · have hcount := countTruncated_rested .trunk ha
    have hrx : (characterEnds .trunk s).trunk.port.rx = .assemble a := ha
    have hstart : receiveAddress .trunk c s = if a.stored then
        openFrame .trunk true c (writeBuffer .trunkAssembly [c] (countTruncated .trunk (characterEnds .trunk s)))
        else trunkClaim c (countTruncated .trunk (characterEnds .trunk s)) := by
      show trunkFrameStarts c (characterEnds .trunk s) = _
      unfold trunkFrameStarts
      rw [hrx]
    rw [hstart, hcount] at hrow
    refine ⟨fun hst => ⟨_, hrow, ?_⟩, fun hst hfree => ⟨_, hrow, ?_⟩, fun hst hfree => ⟨_, hrow, ?_⟩⟩
    · rw [hst, if_pos rfl]
      refine ⟨rfl, fun i => ?_, rfl, ?_⟩
      · refine (writeBuffer_buffers .trunkAssembly [c] _ i).trans ?_
        show (if s.buffers[i].holder = .trunkAssembly then { s.buffers[i] with chars := [c] } else s.buffers[i]) = _
        generalize s.buffers[i] = x
        obtain ⟨h, _⟩ := x
        by_cases hheld : h = .trunkAssembly <;> simp [hheld]
      · exact sameBut_reception rfl
    · rw [hst, if_neg (by simp)]
      exact trunkClaim_after _ _ hfree c
    · rw [hst, if_neg (by simp)]
      exact trunkClaim_refused _ _ hfree c

/-! ### A branch -/

/-- An address character on a branch, once the frame it cuts short has been counted: one change of the port. -/
theorem branchTruncates_rested (b : Branch) (s : State) : branchTruncates b (characterEnds (.branch b) s) =
    lineChange (.branch b) (fun q => { q.rested with counters := truncatedOnce (s.port (.branch b)) })
      (truncatedFlags s.branches[b].port s.flags) s.buffers s := by
  have hrx : (characterEnds (.branch b) s).branches[b].port.rx = (s.port (.branch b)).rx :=
    characterEnds_rx (.branch b) s
  unfold branchTruncates truncatedFlags
  rw [hrx]
  cases h : (s.port (.branch b)).rx with
  | hunt | discard =>
    have h' : s.branches[b].port.rx = _ := h
    rw [h', characterEnds_eq]
    refine lineChange_congr ?_ _ _
    unfold truncatedOnce
    rw [h]
    rfl
  | assemble a =>
    have h' : s.branches[b].port.rx = _ := h
    rw [h']
    exact countTruncated_rested (.branch b) h

/-- A port on which an address character has begun a frame, the open one cut short (R8, R10). -/
def PortState.begun (stored : Bool) (c : Byte) (q : PortState) : PortState :=
  { q with
    rx := .assemble { stored := stored, got := [c] }, lineRest := 0, charInProgress := false
    gapTimeout := q.charTimeout, counters := truncatedOnce q }

/-- A frame that begins on a branch port, with the one cut short counted, is one change of the port. -/
theorem openFrame_truncated (b : Branch) (stored : Bool) (c : Byte) (x : BitVec 12)
    (v : Vector Buffer Config.bufferCount) (s : State) :
    openFrame (.branch b) stored c (lineChange (.branch b) (fun q =>
        { q.rested with counters := truncatedOnce (s.port (.branch b)) }) x v s) =
      lineChange (.branch b) (PortState.begun stored c) x v s := by
  unfold openFrame setRx
  rw [modifyPort_lineChange]
  exact lineChange_congr rfl _ _

/-- An address character on a branch outside SEND, by the branch's state (R15, R77, R86, R87). -/
theorem receiveAddress_branch (b : Branch) (c : Byte) (s : State) :
    (s.branches[b].status = .idle ∨ s.branches[b].status = .lead → receiveAddress (.branch b) c s =
      unsolicited b (lineChange (.branch b) (PortState.begun false c) (truncatedFlags s.branches[b].port s.flags)
        s.buffers s)) ∧
    (s.branches[b].status = .await ∨ s.branches[b].status = .recv → receiveAddress (.branch b) c s =
      answerStarts b c (lineChange (.branch b) (fun q =>
        { q.rested with counters := truncatedOnce (s.port (.branch b)) }) (truncatedFlags s.branches[b].port s.flags)
        s.buffers s)) ∧
    (s.branches[b].status = .fault → receiveAddress (.branch b) c s =
      lineChange (.branch b) (PortState.begun false c) (truncatedFlags s.branches[b].port s.flags) s.buffers s) := by
  show (_ → branchFrameStarts b c (characterEnds (.branch b) s) = _) ∧
    (_ → branchFrameStarts b c (characterEnds (.branch b) s) = _) ∧
    (_ → branchFrameStarts b c (characterEnds (.branch b) s) = _)
  unfold branchFrameStarts
  rw [branchTruncates_rested]
  dsimp only
  rw [lineChange_status, openFrame_truncated]
  refine ⟨?_, ?_, fun h => by rw [h]⟩ <;> rintro (h | h) <;> rw [h]

/-- A branch whose port alone has changed. -/
theorem lineChange_branch (b : Branch) (f : PortState → PortState) (x : BitVec 12)
    (v : Vector Buffer Config.bufferCount) (s : State) :
    (lineChange (.branch b) f x v s).branches[b] = { s.branches[b] with port := f s.branches[b].port } :=
  modifyPort_branch_same b f s

/-- An unsolicited character touches its branch and the flags alone (R77). -/
theorem unsolicited_sameBut (b : Branch) (s : State) : SameBut [.branch b, .flags] s (unsolicited b s) :=
  SameBut.trans_append (e := [.branch b]) (modifyBranch_sameBut b _ s) (raise_sameBut .unsolicited _)

/-- The branch whose answer begins (R86, R87). -/
theorem answerStarts_branch (b : Branch) (c : Byte) (s : State) : (answerStarts b c s).branches[b] =
    { s.branches[b] with
      status := .recv, windowTimer := none
      port := { s.branches[b].port with rx := .assemble { stored := true, got := [c] } } } :=
  (modifyPort_branch_same b (fun q => { q with rx := .assemble { stored := true, got := [c] } })
    (writeBuffer (.branchAnswer b) [c]
      (modifyBranch b (fun x => { x with status := .recv, windowTimer := none }) s))).trans
    (congrArg (fun x : BranchState => { x with
      port := { x.port with rx := .assemble { stored := true, got := [c] } } })
      (modifyBranch_same b (fun x => { x with status := .recv, windowTimer := none }) s))

/-- The beginning of an answer touches its branch and the pool alone (R15, R86). -/
theorem answerStarts_sameBut (b : Branch) (c : Byte) (s : State) :
    SameBut [.branch b, .buffers] s (answerStarts b c s) := by
  have hwrite : ∀ t : State, SameBut [.buffers] t (writeBuffer (.branchAnswer b) [c] t) := by
    refine fun t => ⟨rfl, fun q _ hq => ?_⟩
    cases q with
    | buffers => exact absurd (by decide) hq
    | pins => exact ⟨rfl, rfl, rfl⟩
    | lastCommand => exact ⟨rfl, rfl⟩
    | _ => rfl
  exact ((SameBut.trans_append (e := [.branch b]) (modifyBranch_sameBut b _ s) (hwrite _)).trans
    ((modifyPort_sameBut (.branch b) _ _).mono (by simp [portPart])))

/-- Settles O7: in IDLE and LEAD the followed frame is counted unsolicited, in FAULT it is followed and no more. -/
theorem unsolicitedAddressCharacter : Obligations.UnsolicitedAddressCharacter := by
  intro b c s hr ht x q
  have hrow := exec_address_received (p := .branch b) hr ht c
  obtain ⟨hidle, -, hfault⟩ := receiveAddress_branch b c s
  refine ⟨fun hst => ?_, fun hst => ?_⟩
  · rw [hidle hst] at hrow
    refine ⟨_, hrow, ?_, rfl, ?_⟩
    · refine (modifyBranch_same b _ _).trans ?_
      rw [lineChange_branch]
      rfl
    · exact (lineChange_sameBut_flags (.branch b) (PortState.begun false c) (truncatedFlags x.port s.flags) s).trans
        (unsolicited_sameBut b _)
  · rw [hfault hst] at hrow
    exact ⟨_, hrow, lineChange_branch b _ _ _ s, rfl, lineChange_sameBut_flags (.branch b) _ _ s⟩

/-- Settles O8: the answer begins in the branch's own buffer, the window timer stopped. -/
theorem answerBeginsOnABranch : Obligations.AnswerBeginsOnABranch := by
  intro b c s hr ht hst x
  have hrow := exec_address_received (p := .branch b) hr ht c
  rw [(receiveAddress_branch b c s).2.1 hst] at hrow
  refine ⟨_, hrow, ?_, fun i => ?_, rfl, ?_⟩
  · rw [answerStarts_branch, lineChange_branch]
    rfl
  · refine (writeBuffer_buffers (.branchAnswer b) [c] _ i).trans ?_
    show (if s.buffers[i].holder = .branchAnswer b then { s.buffers[i] with chars := [c] } else s.buffers[i]) = _
    generalize s.buffers[i] = x
    obtain ⟨h, _⟩ := x
    by_cases hheld : h = .branchAnswer b <;> simp [hheld]
  · refine ((lineChange_sameBut (.branch b) _ _ _ s).mono ?_).trans ((answerStarts_sameBut b c _).mono ?_)
    · simp [portPart]
    · simp

end Sys2Proof.Machine
end

section
/-!
The settling point and supersede, each as one update of the part (sections 3.6, 5.2 and 5.5).
-/

namespace Sys2Proof.Machine

-- The gate's memory limit counts every thread's arena, so the declarations are elaborated one after another.
set_option Elab.async false

/-! ### The settling point -/

/-- The trunk once a pending setting has been applied, with no frame open (R22, R114). -/
def Trunk.settled (t : Trunk) : Trunk :=
  match t.pendingSetting with
  | none => t
  | some (.trunkRate code) => { t with
      pendingSetting := none
      port := { t.port with rate := code, synchronised := false, charInProgress := false } }
  | some (.mgmtAddress _) => { t with pendingSetting := none }

/-- The pending setting is an address, whose coming into force empties the last-response memory (R114). -/
def addressPending (t : Trunk) : Bool :=
  match t.pendingSetting with
  | some (.mgmtAddress _) => true
  | some (.trunkRate _) | none => false

/-- With no frame open a new RATE changes the port alone (R22). -/
theorem applyRate_of_hunt {p : Port} {s : State} (h : (s.port p).rx = .hunt) (code : Nat) : applyRate p code s =
    modifyPort p (fun q => { q with rate := code, synchronised := false, charInProgress := false }) s := by
  unfold applyRate truncateOpen
  rw [h]

/-- What the settling point comes to with no frame open, as one update of the part (R114). -/
theorem settlePending_eq {s : State} (h : s.trunk.port.rx = .hunt) : settlePending s = { s with
    trunk := s.trunk.settled
    params := { s.params with mgmtAddress := settledAddress s }
    buffers := if addressPending s.trunk then (returnBuffer .lastResponse s).buffers else s.buffers
    lastCode := if addressPending s.trunk then none else s.lastCode
    lastSeq := if addressPending s.trunk then none else s.lastSeq } := by
  unfold settlePending Trunk.settled addressPending settledAddress
  cases s.trunk.pendingSetting with
  | none => rfl
  | some q =>
    cases q with
    | trunkRate code =>
      exact (applyRate_of_hunt (p := .trunk) (s := modifyTrunk (fun t => { t with pendingSetting := none }) s) h
        code).trans rfl
    | mgmtAddress a => rfl

/-! ### Supersede -/

/-- The reply owed is one that stands in the trunk port (R102). -/
def OwedReply.given : OwedReply → Bool
  | .answer | .proxy | .response => true
  | .nothing | .pendingAnswer _ => false

/-- The trunk once the owed reply has been emptied (R104). -/
def Trunk.withdrawn (t : Trunk) : Trunk :=
  { t with
    owed := .nothing
    port := if t.owed.given then { t.port with tx := .quiet, rx := .hunt } else t.port
    counters := { t.counters with
      superseded := if t.owed = .nothing then t.counters.superseded else countUp t.counters.superseded } }

/-- What step 1 of supersede comes to, as one update of the part (R104). -/
theorem supersedeOwed_eq (s : State) : supersedeOwed s = { s with
    trunk := s.trunk.withdrawn
    buffers := if s.trunk.owed.given then (returnBuffer .owedReply s).buffers else s.buffers } := by
  unfold supersedeOwed Trunk.withdrawn OwedReply.given
  cases h : s.trunk.owed with
  | nothing =>
    show s = { s with trunk := { s.trunk with owed := .nothing } }
    rw [← h]
  | pendingAnswer i => rfl
  | answer | proxy | response => rfl

/-- The record that step 2 of supersede leaves (R64). -/
def supersededRecord (r : Record) : Record := if r.state = .queued then .free else { r with abandoned := true }

/-- One record after step 2 of supersede (R64). -/
theorem supersedeRecord_records (s : State) (j : RecordIndex) : (supersedeRecord s).records[j] =
    if liveTransparent s = some j then supersededRecord s.records[j] else s.records[j] := by
  unfold supersedeRecord
  cases h : liveTransparent s with
  | none => simp
  | some i =>
    dsimp only
    have hj : (some i = some j) ↔ j = i := by rw [Option.some.injEq]; exact eq_comm
    rw [if_congr hj rfl rfl]
    unfold supersededRecord
    by_cases hij : j = i
    · subst hij
      rw [if_pos rfl]
      split
      · rw [freeRecord_records, if_pos rfl]
      · exact modifyRecord_same j _ s
    · rw [if_neg hij]
      split
      · rw [freeRecord_records, if_neg hij]
      · rw [modifyRecord_records, if_neg hij]

/-- Step 2 of supersede leaves every branch but its queue and STALLED. -/
theorem supersedeRecord_queuesOnly (s : State) : QueuesOnly s (supersedeRecord s) := by
  unfold supersedeRecord
  split
  · exact .refl s
  · split
    · exact freeRecord_queuesOnly _ s
    · exact .of_branches rfl

/-- Step 2 of supersede leaves the slots and the flags. -/
theorem supersedeRecord_slots_flags (s : State) :
    (supersedeRecord s).slots = s.slots ∧ (supersedeRecord s).flags = s.flags := by
  unfold supersedeRecord
  split
  · exact ⟨rfl, rfl⟩
  · split
    · exact ⟨freeRecord_slots _ s, freeRecord_flags _ s⟩
    · exact ⟨rfl, rfl⟩

/-- The part before the pending setting of a supersede is applied, with no frame open (R104). -/
theorem supersede_eq {s : State} (h : s.trunk.port.rx = .hunt) :
    let v := supersedeRecord (supersedeOwed s)
    v.trunk = s.trunk.withdrawn ∧ supersede s = { v with
      trunk := s.trunk.withdrawn.settled
      params := { s.params with mgmtAddress := settledAddress s }
      buffers := if addressPending s.trunk then (returnBuffer .lastResponse v).buffers else v.buffers
      lastCode := if addressPending s.trunk then none else s.lastCode
      lastSeq := if addressPending s.trunk then none else s.lastSeq } := by
  have htrunk : (supersedeRecord (supersedeOwed s)).trunk = s.trunk.withdrawn := by
    rw [supersedeRecord_trunk, supersedeOwed_eq]
  have hkept := supersedeRecord_kept (supersedeOwed s)
  have hparams : (supersedeRecord (supersedeOwed s)).params = s.params := by rw [hkept, supersedeOwed_eq]
  have hcode : (supersedeRecord (supersedeOwed s)).lastCode = s.lastCode := by rw [hkept, supersedeOwed_eq]
  have hseq : (supersedeRecord (supersedeOwed s)).lastSeq = s.lastSeq := by rw [hkept, supersedeOwed_eq]
  have haddress : settledAddress (supersedeRecord (supersedeOwed s)) = settledAddress s := by
    unfold settledAddress
    rw [htrunk, hparams]
    rfl
  have hrx : (supersedeRecord (supersedeOwed s)).trunk.port.rx = .hunt := supersedeRecord_rx h
  refine ⟨htrunk, ?_⟩
  unfold supersede
  rw [settlePending_eq hrx, htrunk, hparams, hcode, hseq, haddress]
  rfl

/-- The trunk after a supersede with no frame open (R104). -/
theorem supersede_trunk {s : State} (h : s.trunk.port.rx = .hunt) :
    (supersede s).trunk = s.trunk.withdrawn.settled := by rw [(supersede_eq h).2]

/-- One record after a supersede with no frame open (R64). -/
theorem supersede_records {s : State} (h : s.trunk.port.rx = .hunt) (j : RecordIndex) : (supersede s).records[j] =
    if liveTransparent s = some j then supersededRecord s.records[j] else s.records[j] := by
  have hlive : liveTransparent (supersedeOwed s) = liveTransparent s := by rw [supersedeOwed_eq]; rfl
  have hrecords : (supersedeOwed s).records = s.records := by rw [supersedeOwed_eq]
  rw [(supersede_eq h).2]
  show (supersedeRecord (supersedeOwed s)).records[j] = _
  rw [supersedeRecord_records, hlive, hrecords]

/-- The last code after a supersede: absent when an address has come into force (R114). -/
theorem supersede_lastCode {s : State} (h : s.trunk.port.rx = .hunt) :
    (supersede s).lastCode = if addressPending s.trunk then none else s.lastCode := by rw [(supersede_eq h).2]

/-- The last sequence after a supersede: absent when an address has come into force (R114). -/
theorem supersede_lastSeq {s : State} (h : s.trunk.port.rx = .hunt) :
    (supersede s).lastSeq = if addressPending s.trunk then none else s.lastSeq := by rw [(supersede_eq h).2]

/-- A supersede leaves the slots. -/
theorem supersede_slots {s : State} (h : s.trunk.port.rx = .hunt) : (supersede s).slots = s.slots := by
  rw [(supersede_eq h).2]
  refine (supersedeRecord_slots_flags _).1.trans ?_
  rw [supersedeOwed_eq]

/-- A supersede leaves of every branch all but its queue and STALLED. -/
theorem supersede_branches {s : State} (h : s.trunk.port.rx = .hunt) : QueuesOnly s (supersede s) := by
  rw [(supersede_eq h).2]
  have howed : QueuesOnly s (supersedeOwed s) := .of_branches (by rw [supersedeOwed_eq])
  exact howed.trans (supersedeRecord_queuesOnly _)

section
variable (t : Trunk)

theorem Trunk.settled_owed : t.settled.owed = t.owed := by unfold Trunk.settled; split <;> rfl
theorem Trunk.settled_counters : t.settled.counters = t.counters := by unfold Trunk.settled; split <;> rfl
theorem Trunk.settled_pendingSetting : t.settled.pendingSetting = none := by
  unfold Trunk.settled
  split
  · assumption
  · rfl
  · rfl
theorem Trunk.settled_port_counters : t.settled.port.counters = t.port.counters := by
  unfold Trunk.settled
  split <;> rfl
theorem Trunk.settled_tx : t.settled.port.tx = t.port.tx := by unfold Trunk.settled; split <;> rfl
theorem Trunk.settled_rx : t.settled.port.rx = t.port.rx := by unfold Trunk.settled; split <;> rfl
theorem Trunk.settled_lineRest : t.settled.port.lineRest = t.port.lineRest := by unfold Trunk.settled; split <;> rfl
theorem Trunk.withdrawn_port_counters : t.withdrawn.port.counters = t.port.counters := by
  unfold Trunk.withdrawn
  dsimp only
  split <;> rfl

end

end Sys2Proof.Machine
end

section
/-!
Settlement of the statements about the end of the trunk's reply and about a followed frame (sections 5.2, 5.3, 5.5).
-/

namespace Sys2Proof.Machine

-- The gate's memory limit counts every thread's arena, so the declarations are elaborated one after another.
set_option Elab.async false

/-- What a change of the trunk port leaves that ends a transmission (R19, R20). -/
structure EndsTransmission (f : PortState → PortState) : Prop where
  tx : ∀ q, (f q).tx = .quiet
  rx : ∀ q, (f q).rx = .hunt
  lineRest : ∀ q, (f q).lineRest = 0
  rate : ∀ q, (f q).rate = q.rate
  synchronised : ∀ q, (f q).synchronised = q.synchronised

theorem endsTransmission_sent : EndsTransmission PortState.sent := by constructor <;> exact fun _ => rfl
theorem endsTransmission_lost : EndsTransmission PortState.lost := by constructor <;> exact fun _ => rfl

/-- The end of the owed reply as one update of the part, up to the settling point (R109, R110). -/
theorem finishOwed_settled {f : PortState → PortState} (hf : EndsTransmission f) (x : BitVec 12) (s : State) :
    let v := finishOwed (lineChange .trunk f x s.buffers s)
    settlePending v = { s with
      trunk := Trunk.settled { s.trunk with owed := .nothing, port := f s.trunk.port }
      params := { s.params with mgmtAddress := settledAddress s }
      flags := x
      buffers := if addressPending s.trunk then
          (returnBuffer .lastResponse (returnBuffer .owedReply s)).buffers else (returnBuffer .owedReply s).buffers
      lastCode := if addressPending s.trunk then none else s.lastCode
      lastSeq := if addressPending s.trunk then none else s.lastSeq } :=
  settlePending_eq (s := finishOwed (lineChange .trunk f x s.buffers s)) (hf.rx s.trunk.port)

/-- The end of the owed reply leaves the reply finished (R109, R110, R114). -/
theorem replyFinished {f : PortState → PortState} (hf : EndsTransmission f) (x : BitVec 12) (s : State) :
    let t := settlePending (finishOwed (lineChange .trunk f x s.buffers s))
    ReplyFinished s t ∧ t.trunk.port.counters = (f s.trunk.port).counters ∧ t.flags = x ∧
      SameBut [.trunk, .buffers, .params, .lastCommand, .flags] s t := by
  intro t
  have ht : t = _ := finishOwed_settled hf x s
  generalize hb : (if addressPending s.trunk then
      (returnBuffer .lastResponse (returnBuffer .owedReply s)).buffers else (returnBuffer .owedReply s).buffers) = v
      at ht
  have hheld : ∀ h : Holder, h ≠ .free → heldFrame h t = if h = .owedReply then none else
      if h = .lastResponse ∧ addressPending s.trunk = true then none else heldFrame h s := by
    intro h hfree
    have hv : heldFrame h t = heldFrame h { s with buffers := v } := by rw [ht]; rfl
    rw [hv, ← hb]
    have hfirst : heldFrame h (returnBuffer .owedReply s) = if h = .owedReply then none else heldFrame h s := by
      by_cases ho : h = .owedReply
      · subst ho
        rw [if_pos rfl, heldFrame_returnBuffer_same (by simp)]
      · rw [if_neg ho, heldFrame_returnBuffer_other hfree ho]
    by_cases ha : addressPending s.trunk = true
    · rw [if_pos ha]
      show heldFrame h (returnBuffer .lastResponse (returnBuffer .owedReply s)) = _
      by_cases hl : h = .lastResponse
      · subst hl
        rw [heldFrame_returnBuffer_same (by simp), if_neg (by simp), if_pos ⟨rfl, ha⟩]
      · rw [heldFrame_returnBuffer_other hfree hl, hfirst, if_neg fun e => hl (And.left e)]
    · rw [if_neg ha]
      show heldFrame h (returnBuffer .owedReply s) = _
      rw [hfirst, if_neg fun e => ha (And.right e)]
  have htrunk : t.trunk = Trunk.settled { s.trunk with owed := .nothing, port := f s.trunk.port } := by rw [ht]
  have hcode : t.lastCode = if addressPending s.trunk then none else s.lastCode := by rw [ht]
  have hseq : t.lastSeq = if addressPending s.trunk then none else s.lastSeq := by rw [ht]
  have hmemory : addressPending s.trunk = false → memoryKept s t := by
    intro ha
    refine ⟨?_, ?_, ?_⟩
    · rw [hcode, ha, if_neg (by simp)]
    · rw [hseq, ha, if_neg (by simp)]
    · rw [hheld _ (by simp), if_neg (by simp), ha, if_neg (by simp)]
  refine ⟨⟨?_, ?_, ?_, ?_, ?_, ?_, ?_, fun h hh => ?_, ?_, ?_⟩, ?_, by rw [ht], ?_⟩
  · rw [htrunk, Trunk.settled_owed]
  · rw [htrunk, Trunk.settled_tx, hf.tx]
  · rw [htrunk, Trunk.settled_rx, hf.rx]
  · rw [htrunk, Trunk.settled_lineRest, hf.lineRest]
  · rw [htrunk, Trunk.settled_pendingSetting]
  · rw [htrunk, Trunk.settled_counters]
  · rw [hheld _ (by simp), if_pos rfl]
  · obtain ⟨hfree, -⟩ := exchangeHolders_ne hh
    have hne : h ≠ .owedReply ∧ h ≠ .lastResponse := by
      constructor <;> rintro rfl <;> exact absurd hh (by decide)
    rw [hheld h hfree, if_neg hne.1, if_neg fun h => hne.2 h.1]
  · rw [ht]
  · cases hp : s.trunk.pendingSetting with
    | none =>
      refine ⟨?_, ?_, hmemory (by unfold addressPending; rw [hp])⟩ <;> rw [htrunk, Trunk.settled, hp]
      · exact hf.rate _
      · exact hf.synchronised _
    | some setting =>
      cases setting with
      | trunkRate code =>
        refine ⟨?_, ?_, hmemory (by unfold addressPending; rw [hp])⟩ <;> rw [htrunk, Trunk.settled, hp]
      | mgmtAddress a =>
        have ha : addressPending s.trunk = true := by unfold addressPending; rw [hp]
        refine ⟨?_, ?_, ?_, ?_⟩
        · rw [htrunk, Trunk.settled, hp]
          exact hf.rate _
        · rw [hcode, if_pos ha]
        · rw [hseq, if_pos ha]
        · rw [hheld _ (by simp), if_neg (by simp), if_pos ⟨rfl, ha⟩]
  · rw [htrunk, Trunk.settled_port_counters]
  · rw [ht]
    refine ⟨rfl, fun q _ hq => ?_⟩
    cases q with
    | trunk | buffers | params | lastCommand | flags => exact absurd (by decide) hq
    | pins => exact ⟨rfl, rfl, rfl⟩
    | _ => rfl

/-- A piece that stands need not be excepted. -/
theorem SameBut.without {e : List Part} {p : Part} {s t : State} (h : SameBut (e ++ [p]) s t) (hp : samePart s t p) :
    SameBut e s t := by
  refine ⟨h.1, fun q hq hn => ?_⟩
  by_cases he : q = p
  · subst he
    exact hp
  · exact h.2 q hq (by simp [hn, he])

/-- Settles O17: the clean end and contention differ in the port, its counter and the flag alone. -/
theorem trunkReplyEnds : Obligations.TrunkReplyEnds := by
  intro s hr ht
  have hsent := replyFinished endsTransmission_sent s.flags s
  have hlost := replyFinished endsTransmission_lost (s.flags ||| flagMask .contention) s
  exact ⟨⟨_, exec_sentRow (p := .trunk) hr ht, hsent.1, hsent.2.1,
    SameBut.without (e := [.trunk, .buffers, .params, .lastCommand]) (p := .flags) hsent.2.2.2 hsent.2.2.1⟩,
    ⟨_, exec_lostRow (p := .trunk) hr ht, hlost.1, hlost.2.1, hlost.2.2.1, hlost.2.2.2⟩⟩

/-! ### A followed frame -/

/-- The characters of a followed frame are stored nowhere. -/
theorem storeChars_followed (p : Port) (chars : List Byte) (s : State) : storeChars p false chars s = s := rfl

/-- A good followed frame on the trunk supersedes and is not classified (R106). -/
theorem goodFrame_followed (chars : List Byte) (s : State) :
    goodFrame .trunk false chars s = supersede (countGood .trunk s) := rfl

/-- A whole frame that finds no buffer free and no frame open is followed, and supersedes (R14, R106, R121). -/
theorem hearTrunkFrame_followed {s : State} (hr : receives s .trunk = true) (ht : s.trunk.port.tx.sending = false)
    (hrx : s.trunk.port.rx = .hunt ∨ s.trunk.port.rx = .discard) (hfree : freeCount s = 0) (a : Byte)
    (data : List Byte) : hearTrunkFrame a data s = supersede { s with
      trunk := { s.trunk with
        counters := { s.trunk.counters with bufLost := countUp s.trunk.counters.bufLost }
        port := { s.trunk.port.rested with
          rx := .hunt, gapTimeout := s.trunk.port.rested.charTimeout
          counters := { s.trunk.port.counters with framesRxGood := countUp s.trunk.port.counters.framesRxGood } } }
      flags := s.flags ||| flagMask .bufExhausted } := by
  have hopens : opensWith .trunk (mkFrame a data) s = false := by
    have hrx' : (s.port .trunk).rx = .hunt ∨ (s.port .trunk).rx = .discard := hrx
    unfold opensWith
    rcases hrx' with h | h <;> rw [h]
  have hstart : receiveAddress .trunk a s = openFrame .trunk false a (raise .bufExhausted (modifyTrunkCounters
      (fun k => { k with bufLost := countUp k.bufLost }) (characterEnds .trunk s))) := by
    have hkept : (characterEnds .trunk s).trunk.port.rx = s.trunk.port.rx := rfl
    have hclaim : trunkClaim a (characterEnds .trunk s) = _ := if_pos hfree
    rw [← hclaim]
    show trunkFrameStarts a (characterEnds .trunk s) = _
    unfold trunkFrameStarts
    rw [hkept]
    rcases hrx with h | h <;> rw [h]
  unfold hearTrunkFrame
  rw [if_pos (by simp [hr, ht])]
  dsimp only
  rw [hopens, if_neg (by simp), hstart]
  generalize hw : openFrame .trunk false a (raise .bufExhausted (modifyTrunkCounters
      (fun k => { k with bufLost := countUp k.bufLost }) (characterEnds .trunk s))) = w
  have hstored : storing .trunk w = false := by rw [← hw]; rfl
  rw [hstored, storeChars_followed, goodFrame_followed]
  refine congrArg supersede ?_
  rw [← hw]
  simp only [countGood, modifyPortCounters, setRx, characterEnds, openFrame, raise, modifyTrunkCounters, modifyPort,
    modifyTrunk, PortState.rested]

/-- Settles O18: the followed frame is counted, and the rest is the supersede. -/
theorem supersedeByAFollowedFrame : Obligations.SupersedeByAFollowedFrame := by
  intro a data s hd hr ht hrx hfree
  have hrow : exec (.trunkGoodFrame a data) s = .next (hearTrunkFrame a data s) := if_pos hd
  rw [hearTrunkFrame_followed hr ht hrx hfree] at hrow
  refine ⟨_, hrow, ?_⟩
  generalize hv : ({ s with
      trunk := { s.trunk with
        counters := { s.trunk.counters with bufLost := countUp s.trunk.counters.bufLost }
        port := { s.trunk.port.rested with
          rx := .hunt, gapTimeout := s.trunk.port.rested.charTimeout
          counters := { s.trunk.port.counters with framesRxGood := countUp s.trunk.port.counters.framesRxGood } } }
      flags := s.flags ||| flagMask .bufExhausted } : State) = v
  have hvrx : v.trunk.port.rx = .hunt := by rw [← hv]
  have htrunk := supersede_trunk hvrx
  have hlive : liveTransparent v = liveTransparent s := by rw [← hv]; rfl
  have hrecords : v.records = s.records := by rw [← hv]
  have hkept := supersede_kept hvrx
  have haddress : settledAddress v = settledAddress s := by rw [← hv]; rfl
  have hpending : v.trunk.pendingSetting = s.trunk.pendingSetting := by rw [← hv]
  have hset : addressPending v.trunk = addressPending s.trunk := by rw [← hv]; rfl
  refine ⟨?_, ?_, ?_, ?_, fun i hi => ?_, fun j hj => ?_, hkept.2.2.1, ?_, fun code hc => ?_, fun hno => ?_,
    fun b hb => ?_, ?_⟩
  · rw [htrunk, Trunk.settled_owed]
    rfl
  · rw [htrunk, Trunk.settled_counters, ← hv]
    rfl
  · rw [htrunk, Trunk.settled_port_counters, Trunk.withdrawn_port_counters, ← hv]
  · rw [hkept.2.1, ← hv]
  · rw [supersede_records hvrx, hlive, if_pos hi, hrecords]
    rfl
  · rw [supersede_records hvrx, hlive, if_neg hj, hrecords]
  · rw [hkept.1, haddress, ← hv]
  · have hw : v.trunk.withdrawn.pendingSetting = some (.trunkRate code) := hpending.trans hc
    rw [htrunk, Trunk.settled, hw]
    exact ⟨rfl, rfl⟩
  · have ha : addressPending v.trunk = false := by
      rw [hset]
      unfold addressPending
      cases hp : s.trunk.pendingSetting with
      | none => rfl
      | some q =>
        cases q with
        | trunkRate code => rfl
        | mgmtAddress b => exact absurd hp (hno b)
    rw [supersede_lastCode hvrx, supersede_lastSeq hvrx, ha, ← hv]
    exact ⟨rfl, rfl⟩
  · have ha : addressPending v.trunk = true := by
      unfold addressPending
      rw [hpending, hb]
    rw [supersede_lastCode hvrx, supersede_lastSeq hvrx, ha]
    exact ⟨rfl, rfl⟩
  · have hsame : superseded v = supersede v := by
      unfold superseded setRx
      rw [modifyPort_self (by show { v.trunk.port with rx := .hunt } = v.trunk.port; rw [← hvrx])]
    have hreceived : SameBut supersedeParts s v := by
      rw [← hv]
      exact (sameBut_reception rfl).mono (by decide)
    have hsuper := hreceived.trans (superseded_sameBut v)
    rw [hsame] at hsuper
    refine SameBut.without (p := .slots) (hsuper.mono (by decide)) ?_
    show (supersede v).slots = s.slots
    rw [supersede_slots hvrx, ← hv]

end Sys2Proof.Machine
end

section
/-!
A frame heard character by character: what its data characters come to, and the settlement of the statement that the
characters make the whole-frame row (sections 1.3, 1.4, 5.2).
-/

namespace Sys2Proof.Machine

-- The gate's memory limit counts every thread's arena, so the declarations are elaborated one after another.
set_option Elab.async false

/-! ### Positions of a frame -/

/-- The COUNT of a frame stands from its second character on. -/
theorem frameCount_append {got rest : List Byte} (h : 2 ≤ got.length) : frameCount (got ++ rest) = frameCount got := by
  have h1 : 1 < got.length := h
  unfold frameCount
  rw [List.getD_append _ _ _ _ h1]

/-- A complete frame is not complete before its last character (R8). -/
theorem frameComplete_prefix {got rest : List Byte} (hrest : rest ≠ []) (h : frameComplete (got ++ rest) = true) :
    frameComplete got = false := by
  unfold frameComplete at *
  simp only [Bool.and_eq_true, decide_eq_true_eq, beq_iff_eq, List.length_append] at h
  have hpos := List.length_pos_of_ne_nil hrest
  rw [Bool.eq_false_iff]
  intro hgot
  simp only [Bool.and_eq_true, decide_eq_true_eq, beq_iff_eq] at hgot
  rw [frameCount_append hgot.1] at h
  omega

/-- The COUNT of a complete frame of at most 64 characters is at most 60 (section 1.3). -/
theorem count_le_of_complete {c : Byte} {got rest : List Byte} (hlen : got.length = 1)
    (hfit : (got ++ c :: rest).length ≤ 64) (h : frameComplete (got ++ c :: rest) = true) : c.toNat ≤ 60 := by
  have hcount : frameCount (got ++ c :: rest) = c.toNat := by
    unfold frameCount
    rw [List.getD_append_right _ _ _ _ (by omega), hlen]
    rfl
  unfold frameComplete at h
  simp only [Bool.and_eq_true, beq_iff_eq] at h
  omega

/-! ### The characters that remain -/

/-- The port and the pool after characters of a frame depend on the last of them alone. -/
theorem setRx_storeChars_again (p : Port) (stored : Bool) (x y : RxState) (chars got : List Byte) (s : State) :
    setRx p x (storeChars p stored chars (characterEnds p (setRx p y (storeChars p stored got (characterEnds p s))))) =
      setRx p x (storeChars p stored chars (characterEnds p s)) := by
  have hbuffers : (storeChars p stored chars (storeChars p stored got s)).buffers =
      (storeChars p stored chars s).buffers := by
    cases stored with
    | false => rfl
    | true => exact congrArg State.buffers (writeBuffer_twice (assemblyHolder p) chars got s)
  have hpool : ∀ (f : PortState → PortState) (z : BitVec 12), (storeChars p stored chars (lineChange p f z
      (storeChars p stored got s).buffers s)).buffers = (storeChars p stored chars s).buffers := by
    intro f z
    rw [← hbuffers]
    cases stored <;> rfl
  rw [storeChars_characterEnds p stored got, setRx, setRx, setRx, modifyPort_lineChange,
    storeChars_characterEnds p stored chars, storeChars_characterEnds p stored chars s, modifyPort_lineChange,
    modifyPort_lineChange, hpool, lineChange_lineChange]
  exact lineChange_congr rfl _ _

/-- A port takes start bits, or does not, by its controller's state, its receiver and its line alone. -/
theorem receives_lineChange {p : Port} {f : PortState → PortState} {s : State}
    (hsync : (f (s.port p)).synchronised = (s.port p).synchronised)
    (hbreak : (f (s.port p)).inBreak = (s.port p).inBreak) (x : BitVec 12)
    (v : Vector Buffer Config.bufferCount) : receives (lineChange p f x v s) p = receives s p := by
  have hhears : hears (lineChange p f x v s) p = hears s p := by
    unfold hears
    cases p with
    | trunk => rfl
    | branch b =>
      dsimp only
      rw [lineChange_status]
      rfl
  unfold receives
  rw [hhears, lineChange_port, hsync, hbreak]

/-- A row that runs, and the rows after it. -/
theorem runRows_next {c : Instr} {s t : State} (h : exec c s = .next t) (rest : List Instr) :
    runRows (c :: rest) s = runRows rest t := by
  rw [runRows, h]

/-- The characters that remain of an open frame, heard one by one, complete it (R8, R12). -/
theorem runRows_rest (p : Port) (stored : Bool) (rest : List Byte) : ∀ (got : List Byte) (s : State), rest ≠ [] →
    got ≠ [] → receives s p = true → (s.port p).tx.sending = false →
    (s.port p).rx = .assemble { stored := stored, got := got } → (got ++ rest).length ≤ 64 →
    frameComplete (got ++ rest) = true → runRows (rest.map (.dataCharacter p)) s =
      .next (frameCompletes p stored (got ++ rest) (storeChars p stored (got ++ rest) (characterEnds p s))) := by
  induction rest with
  | nil => intro got s h; exact absurd rfl h
  | cons c rest ih =>
    intro got s _ hgot hr ht hrx hfit hcomplete
    have hexec := exec_data_received hr ht c
    rw [receiveData_assemble hrx] at hexec
    rw [List.map_cons, runRows_next hexec]
    cases rest with
    | nil => rw [takePosition_completes hcomplete]; rfl
    | cons d rest =>
      have happend : got ++ c :: d :: rest = (got ++ [c]) ++ (d :: rest) := by simp
      have hcount : got.length = 1 → c.toNat ≤ 60 := fun hlen => count_le_of_complete hlen hfit hcomplete
      rw [happend] at hcomplete hfit ⊢
      have hopen := frameComplete_prefix (by simp) hcomplete
      rw [takePosition_goesOn (a := { stored := stored, got := got }) hcount hopen]
      generalize hu : setRx p (.assemble { stored := stored, got := got ++ [c] })
        (storeChars p stored (got ++ [c]) (characterEnds p s)) = u
      have hchange : u = lineChange p
          (fun q => { q.rested with rx := .assemble { stored := stored, got := got ++ [c] } })
          s.flags (storeChars p stored (got ++ [c]) s).buffers s := by
        rw [← hu, storeChars_characterEnds, setRx, modifyPort_lineChange]
        rfl
      have hnext := ih (got ++ [c]) u (by simp) (by simp)
        (by rw [hchange, receives_lineChange rfl rfl]; exact hr) (by rw [hchange, lineChange_port]; exact ht)
        (by rw [hchange, lineChange_port]) hfit hcomplete
      rw [hnext]
      have hagain := setRx_storeChars_again p stored .hunt (.assemble { stored := stored, got := got ++ [c] })
        ((got ++ [c]) ++ d :: rest) (got ++ [c]) s
      rw [hu] at hagain
      unfold frameCompletes
      rw [hagain]

/-! ### A whole frame -/

/-- After an address character on the trunk the frame that it begins is open (R8, R14). -/
theorem receiveAddress_trunk (a : Byte) (s : State) : ∃ stored, (receiveAddress .trunk a s).trunk.port.rx =
      .assemble { stored := stored, got := [a] } ∧
    receives (receiveAddress .trunk a s) .trunk = receives s .trunk ∧
    (receiveAddress .trunk a s).trunk.port.tx = s.trunk.port.tx := by
  have hopen : ∀ (stored : Bool) (u : State), hears u .trunk = hears s .trunk →
      u.trunk.port.synchronised = s.trunk.port.synchronised → u.trunk.port.inBreak = s.trunk.port.inBreak →
      u.trunk.port.tx = s.trunk.port.tx → ∃ stored', (openFrame .trunk stored a u).trunk.port.rx =
        .assemble { stored := stored', got := [a] } ∧
        receives (openFrame .trunk stored a u) .trunk = receives s .trunk ∧
        (openFrame .trunk stored a u).trunk.port.tx = s.trunk.port.tx := by
    intro stored u hh hsync hbreak htx
    refine ⟨stored, rfl, ?_, htx⟩
    show (hears u .trunk && u.trunk.port.synchronised && !u.trunk.port.inBreak) =
      (hears s .trunk && s.trunk.port.synchronised && !s.trunk.port.inBreak)
    rw [hh, hsync, hbreak]
  have hclaim : ∀ u : State, hears u .trunk = hears s .trunk →
      u.trunk.port.synchronised = s.trunk.port.synchronised → u.trunk.port.inBreak = s.trunk.port.inBreak →
      u.trunk.port.tx = s.trunk.port.tx → ∃ stored', (trunkClaim a u).trunk.port.rx =
        .assemble { stored := stored', got := [a] } ∧ receives (trunkClaim a u) .trunk = receives s .trunk ∧
        (trunkClaim a u).trunk.port.tx = s.trunk.port.tx := by
    intro u hh hsync hbreak htx
    unfold trunkClaim
    split
    · exact hopen false _ hh hsync hbreak htx
    · refine hopen true _ ?_ ?_ ?_ ?_
      · show (!(claimBuffer _ _ u).inReset && true) = _
        rw [claimBuffer_inReset]
        exact hh
      · rw [claimBuffer_trunk]; exact hsync
      · rw [claimBuffer_trunk]; exact hbreak
      · rw [claimBuffer_trunk]; exact htx
  show ∃ stored, (trunkFrameStarts a (characterEnds .trunk s)).trunk.port.rx =
      .assemble { stored := stored, got := [a] } ∧
    receives (trunkFrameStarts a (characterEnds .trunk s)) .trunk = receives s .trunk ∧
    (trunkFrameStarts a (characterEnds .trunk s)).trunk.port.tx = s.trunk.port.tx
  unfold trunkFrameStarts
  split
  · split
    · exact hopen true _ rfl rfl rfl rfl
    · exact hclaim _ rfl rfl rfl rfl
  · exact hclaim _ rfl rfl rfl rfl
  · exact hclaim _ rfl rfl rfl rfl

/-- Settles O15: the address character opens the frame, and the characters that remain complete it. -/
theorem charactersMakeTheGoodFrame : Obligations.CharactersMakeTheGoodFrame := by
  intro a data s hd hr ht hopens
  obtain ⟨stored, hrx, hr', htx⟩ := receiveAddress_trunk a s
  have hchars : mkFrame a data = [a] ++ (mkFrame a data).tail := rfl
  have hrest : (mkFrame a data).tail ≠ [] := by
    intro h
    have hlen := mkFrame_length a data
    rw [hchars, h] at hlen
    simp at hlen
  have hrow : exec (.addressCharacter .trunk a) s = .next (receiveAddress .trunk a s) :=
    exec_address_received (p := .trunk) hr ht a
  have hremain := runRows_rest .trunk stored (mkFrame a data).tail [a] (receiveAddress .trunk a s) hrest (by simp)
    (hr'.trans hr) (by show (receiveAddress .trunk a s).trunk.port.tx.sending = false; rw [htx]; exact ht) hrx
    (by rw [← hchars, mkFrame_length]; omega) (by rw [← hchars]; exact frameComplete_mkFrame a hd)
  have hstoring : storing .trunk (receiveAddress .trunk a s) = stored := by
    have hrx' : ((receiveAddress .trunk a s).port .trunk).rx = _ := hrx
    unfold storing
    rw [hrx']
  rw [← hchars] at hremain
  have hrun : runRows (frameRows .trunk (mkFrame a data)) s =
      runRows ((mkFrame a data).tail.map (.dataCharacter .trunk)) (receiveAddress .trunk a s) := by
    rw [hchars]
    exact runRows_next hrow _
  have hwhole : exec (.trunkGoodFrame a data) s = .next (hearTrunkFrame a data s) := if_pos hd
  rw [hrun, hremain, hwhole]
  unfold hearTrunkFrame frameCompletes
  rw [if_pos (checkMatches_mkFrame a data), if_pos (by simp [hr, ht])]
  dsimp only
  rw [hopens, if_neg (by simp), hstoring]

end Sys2Proof.Machine
end

section
/-!
What a row tells of a branch's line besides the frame that it cuts short: such a mark on the port and the end of the
attempt come to the same in either order (sections 1.1, 1.4, 4.3). Settlement of the statement about ANSWER_END.
-/

namespace Sys2Proof.Machine

-- The gate's memory limit counts every thread's arena, so the declarations are elaborated one after another.
set_option Elab.async false

/-! ### Marks on a port -/

/-- A change of a port that does not meet the cutting of a frame or a held rate. -/
structure LineMark (g : PortState → PortState) : Prop where
  rx : ∀ q, (g q).rx = q.rx
  cut : ∀ q : PortState, (g q).cut = g q.cut
  rate : ∀ (q : PortState) (code : Nat),
    { (g q) with rate := code, synchronised := false, charInProgress := false } =
      g { q with rate := code, synchronised := false, charInProgress := false }

/-- The part with a mark on a branch's port and flags set. -/
def marked (b : Branch) (g : PortState → PortState) (m : BitVec 12) (s : State) : State :=
  { modifyPort (.branch b) g s with flags := s.flags ||| m }

/-- An operation and a mark come to the same in either order. -/
def CommutesWith (b : Branch) (g : PortState → PortState) (m : BitVec 12) (f : State → State) : Prop :=
  ∀ s, f (marked b g m s) = marked b g m (f s)

section
variable {b : Branch} {g : PortState → PortState} {m : BitVec 12}

/-- One operation after another. -/
theorem CommutesWith.comp {f h : State → State} (hf : CommutesWith b g m f) (hh : CommutesWith b g m h) :
    CommutesWith b g m fun s => f (h s) := fun s => (congrArg f (hh s)).trans (hf (h s))

/-- The branch under a mark. -/
def BranchState.marked (x : BranchState) (g : PortState → PortState) : BranchState := { x with port := g x.port }

theorem marked_eq (s : State) : marked b g m s =
    { modifyBranch b (fun x => x.marked g) s with flags := s.flags ||| m } := rfl

/-- A change of a branch that a mark on its port does not meet. -/
theorem modifyBranch_commutes (d : Branch) {f : BranchState → BranchState}
    (hf : ∀ x, f (x.marked g) = (f x).marked g) : CommutesWith b g m (modifyBranch d f) := by
  intro s
  have hbranches : (modifyBranch d f (modifyBranch b (fun x => x.marked g) s)).branches =
      (modifyBranch b (fun x => x.marked g) (modifyBranch d f s)).branches := by
    refine table_ext fun e => ?_
    rw [modifyBranch_branches, modifyBranch_branches, modifyBranch_branches, modifyBranch_branches]
    by_cases hd : e = d
    · rw [if_pos hd, if_pos hd]
      by_cases hb : e = b
      · rw [if_pos hb, if_pos hb, hf]
      · rw [if_neg hb, if_neg hb]
    · rw [if_neg hd, if_neg hd]
  rw [marked_eq, marked_eq]
  exact congrArg (fun v => ({ s with branches := v, flags := s.flags ||| m } : State)) hbranches

/-- A flag that is raised. -/
theorem raise_commutes (f : Flag) : CommutesWith b g m (raise f) := by
  intro s
  have hflags : s.flags ||| m ||| flagMask f = s.flags ||| flagMask f ||| m := by
    rw [BitVec.or_assoc, BitVec.or_comm m, ← BitVec.or_assoc]
  exact congrArg (fun x => ({ modifyPort (.branch b) g s with flags := x } : State)) hflags

theorem modifyRecord_commutes (i : RecordIndex) (f : Record → Record) : CommutesWith b g m (modifyRecord i f) :=
  fun _ => rfl
theorem returnBuffer_commutes (h : Holder) : CommutesWith b g m (returnBuffer h) := fun _ => rfl
theorem handOver_commutes (h k : Holder) : CommutesWith b g m (handOver h k) := fun _ => rfl

/-- A change of every branch that a mark does not meet. -/
theorem mapBranches_commutes {f : State → Branch → BranchState → BranchState}
    (hs : ∀ s, f (marked b g m s) = f s) (hf : ∀ s d x, f s d (x.marked g) = (f s d x).marked g) :
    CommutesWith b g m fun s => mapBranches (f s) s := by
  intro s
  have hbranches : (mapBranches (f s) (modifyBranch b (fun x => x.marked g) s)).branches =
      (modifyBranch b (fun x => x.marked g) (mapBranches (f s) s)).branches := by
    refine table_ext fun e => ?_
    rw [mapBranches_branches, modifyBranch_branches, modifyBranch_branches, mapBranches_branches]
    by_cases hb : e = b <;> simp [hb, hf]
  dsimp only
  rw [hs, marked_eq, marked_eq]
  exact congrArg (fun v => ({ s with branches := v, flags := s.flags ||| m } : State)) hbranches

/-- Whether a branch has work, under a mark. -/
theorem hasWork_marked (s : State) (d : Branch) : hasWork (marked b g m s) d = hasWork s d := by
  have hqueue : (marked b g m s).branches[d].queue = s.branches[d].queue := by
    by_cases h : d = b
    · subst h
      exact (congrArg BranchState.queue (modifyPort_branch_same d g s)).trans rfl
    · exact congrArg BranchState.queue (modifyPort_branch_other h g s)
  unfold hasWork
  rw [hqueue]
  rfl

theorem leaveQueues_commutes (i : RecordIndex) : CommutesWith b g m (leaveQueues i) :=
  mapBranches_commutes (f := fun _ _ x => { x with queue := x.queue.filter fun j => j != i }) (fun _ => rfl)
    fun _ _ _ => rfl

theorem endIdleStalls_commutes : CommutesWith b g m endIdleStalls := by
  refine mapBranches_commutes (f := fun s d x => if hasWork s d then x else { x with stalled := false })
    (fun s => ?_) fun s d x => ?_
  · funext d x
    rw [hasWork_marked]
  · by_cases h : hasWork s d = true
    · rw [if_pos h, if_pos h]
    · rw [if_neg h, if_neg h]
      rfl

theorem completions_commutes (f : List RecordIndex → List RecordIndex) :
    CommutesWith b g m fun s => { s with completions := f s.completions } := fun _ => rfl

theorem freeRecord_commutes (i : RecordIndex) : CommutesWith b g m (freeRecord i) :=
  endIdleStalls_commutes.comp ((modifyRecord_commutes i _).comp ((completions_commutes _).comp
    ((leaveQueues_commutes i).comp ((returnBuffer_commutes _).comp (returnBuffer_commutes _)))))

/-- A choice that a mark does not meet. -/
theorem ite_commutes {c : State → Prop} {dec : ∀ s, Decidable (c s)} {f h : State → State}
    (hc : ∀ s, c (marked b g m s) ↔ c s) (hf : CommutesWith b g m f) (hh : CommutesWith b g m h) :
    CommutesWith b g m fun s => if c s then f s else h s := by
  intro s
  dsimp only
  by_cases hs : c s
  · rw [if_pos hs, if_pos ((hc s).mpr hs), hf]
  · rw [if_neg hs, if_neg fun h => hs ((hc s).mp h), hh]

theorem noteOutcome_commutes (o : ExchangeOutcome) : CommutesWith b g m (noteOutcome o) := by
  cases o with
  | noAnswer | badAnswer => exact raise_commutes .answerFail
  | answered | contention | branchOff => exact fun _ => rfl

theorem dropLateAnswer_commutes (d : Branch) (o : ExchangeOutcome) : CommutesWith b g m (dropLateAnswer d o) :=
  ite_commutes (c := fun _ => o = .answered) (fun _ => Iff.rfl) (returnBuffer_commutes _) fun _ => rfl

theorem answerTransparent_commutes (i : RecordIndex) (d : Branch) : CommutesWith b g m (answerTransparent i d) :=
  (freeRecord_commutes i).comp (f := freeRecord i) (h := answeredPart i d) fun _ => rfl

theorem failTransparent_commutes (i : RecordIndex) (o : ExchangeOutcome) :
    CommutesWith b g m (failTransparent i o) := by
  have h : CommutesWith b g m fun s => if s.records[i].notify then
      oweProxy (.request i) (s.records[i].trunkAddress.getD 0) (outcomeByte o) s else setOwed .nothing s :=
    ite_commutes (fun _ => Iff.rfl) (fun _ => rfl) fun _ => rfl
  exact (freeRecord_commutes i).comp h

theorem settleTransparent_commutes (i : RecordIndex) (d : Branch) (o : ExchangeOutcome) :
    CommutesWith b g m (settleTransparent i d o) :=
  ite_commutes (fun _ => Iff.rfl) ((freeRecord_commutes i).comp (dropLateAnswer_commutes d o))
    (ite_commutes (c := fun _ => o = .answered) (fun _ => Iff.rfl) (answerTransparent_commutes i d)
      (failTransparent_commutes i o))

theorem endDeferred_commutes (i : RecordIndex) (d : Branch) (o : ExchangeOutcome) :
    CommutesWith b g m (endDeferred i d o) := by
  have hanswer : CommutesWith b g m fun s => if o = .answered then handOver (.branchAnswer d) (.answer i) s else s :=
    ite_commutes (c := fun _ => o = .answered) (fun _ => Iff.rfl) (handOver_commutes _ _) fun _ => rfl
  have hend : CommutesWith b g m fun s => modifyRecord i (fun r => { r with
      state := .ended, outcome := some o, hold := some { count := 0, limit := s.params.holdTime * 100 } }) s :=
    fun _ => rfl
  have hlist : CommutesWith b g m fun s =>
      raise .completion { leaveQueues i s with completions := s.completions ++ [i] } := by
    have h : CommutesWith b g m fun s => { leaveQueues i s with completions := s.completions ++ [i] } := fun s =>
      congrArg (fun t : State => { t with completions := s.completions ++ [i] }) (leaveQueues_commutes i s)
    exact (raise_commutes .completion).comp h
  exact hlist.comp (hend.comp (hanswer.comp (returnBuffer_commutes _)))

theorem settleDeferred_commutes (i : RecordIndex) (d : Branch) (o : ExchangeOutcome) :
    CommutesWith b g m (settleDeferred i d o) :=
  ite_commutes (fun _ => Iff.rfl) ((freeRecord_commutes i).comp (dropLateAnswer_commutes d o))
    (endDeferred_commutes i d o)

theorem pollEnds_commutes (k : SlotIndex) (d : Branch) (answered : Bool) :
    CommutesWith b g m (pollEnds k d answered) := by
  have hleave : CommutesWith b g m (slotLeavePoll k) := by
    intro s
    have hslots : (marked b g m s).slots = s.slots := rfl
    unfold slotLeavePoll
    rw [hslots]
    cases s.slots[k].state <;> rfl
  cases answered with
  | true => exact hleave.comp (h := replaceSnapshot k d) fun _ => rfl
  | false => exact hleave.comp (h := slotMiss k) fun _ => rfl

theorem settleCyclic_commutes (i : RecordIndex) (d : Branch) (o : ExchangeOutcome) :
    CommutesWith b g m (settleCyclic i d o) := by
  intro s
  have hrecords : (marked b g m s).records = s.records := rfl
  unfold settleCyclic
  rw [hrecords]
  cases s.records[i].slot with
  | none => exact freeRecord_commutes i s
  | some k => exact (freeRecord_commutes i).comp (pollEnds_commutes k d _) s

theorem fixOutcome_commutes (i : RecordIndex) (d : Branch) (o : ExchangeOutcome) :
    CommutesWith b g m (fixOutcome i d o) := by
  intro s
  have hrecords : (marked b g m s).records = s.records := rfl
  unfold fixOutcome
  rw [hrecords]
  cases s.records[i].kind with
  | none => rfl
  | some k =>
    cases k with
    | transparent => exact (settleTransparent_commutes i d o).comp (noteOutcome_commutes o) s
    | deferred => exact (settleDeferred_commutes i d o).comp (noteOutcome_commutes o) s
    | cyclic => exact (settleCyclic_commutes i d o).comp (noteOutcome_commutes o) s
    | group => rfl

theorem settleAttempt_commutes (i : RecordIndex) (d : Branch) (o : ExchangeOutcome) :
    CommutesWith b g m (settleAttempt i d o) := by
  have hretry : CommutesWith b g m (retryRecord i d) :=
    (modifyBranch_commutes d fun _ => rfl).comp (modifyRecord_commutes i _)
  exact ite_commutes (fun _ => Iff.rfl) (fixOutcome_commutes i d o) hretry

theorem dropAssignment_commutes (d : Branch) : CommutesWith b g m (dropAssignment d) :=
  modifyBranch_commutes d fun _ => rfl

theorem countResult_commutes (d : Branch) (o : ExchangeOutcome) (late : Bool) :
    CommutesWith b g m (countResult d o late) := modifyBranch_commutes d fun _ => rfl

/-- The branch under a mark on its port. -/
theorem marked_branch (s : State) : (marked b g m s).branches[b] = s.branches[b].marked g :=
  modifyPort_branch_same b g s

/-- A held rate and a mark (R22). -/
theorem BranchState.marked_rated (hg : LineMark g) (x : BranchState) : (x.marked g).rated = x.rated.marked g := by
  have hport : (x.marked g).port.cut = g x.port.cut := hg.cut x.port
  unfold BranchState.rated
  show (match x.pendingRate with
    | none => x.marked g
    | some code => { x.marked g with
        pendingRate := none
        port := { (x.marked g).port.cut with rate := code, synchronised := false, charInProgress := false } }) = _
  cases x.pendingRate with
  | none => rfl
  | some code =>
    dsimp only
    rw [hport, hg.rate]
    rfl

/-- The flags of a frame that is cut short, under a mark. -/
theorem truncatedFlags_marked (hg : LineMark g) (q : PortState) (x : BitVec 12) :
    truncatedFlags (g q) (x ||| m) = truncatedFlags q x ||| m := by
  unfold truncatedFlags
  rw [hg.rx]
  cases q.rx with
  | hunt | discard => rfl
  | assemble a => exact (BitVec.or_assoc ..).trans ((congrArg _ (BitVec.or_comm ..)).trans (BitVec.or_assoc ..).symm)

theorem enterIdle_commutes (hg : LineMark g) : CommutesWith b g m (enterIdle b) := by
  intro s
  have hflags : ratedFlags (marked b g m s).branches[b] (s.flags ||| m) = ratedFlags s.branches[b] s.flags ||| m := by
    rw [marked_branch]
    unfold ratedFlags
    have hport : (s.branches[b].marked g).port = g s.branches[b].port := rfl
    rw [hport, truncatedFlags_marked hg]
    show (if s.branches[b].pendingRate.isSome then _ else _) = _
    split <;> rfl
  have hchange : CommutesWith b g m (modifyBranch b fun x => { x.rated with status := .idle }) :=
    modifyBranch_commutes b fun x => congrArg (fun y : BranchState => { y with status := .idle }) (x.marked_rated hg)
  rw [enterIdle_eq, enterIdle_eq]
  show ({ modifyBranch b (fun x => { x.rated with status := .idle }) (marked b g m s) with
    flags := ratedFlags (marked b g m s).branches[b] (s.flags ||| m) } : State) = _
  rw [hchange s, hflags]
  rfl

theorem attemptEnds_commutes (hg : LineMark g) (o : ExchangeOutcome) : CommutesWith b g m (attemptEnds b o) := by
  have hstop : CommutesWith b g m (modifyBranch b fun x => { x with windowTimer := none }) :=
    modifyBranch_commutes b fun _ => rfl
  have hreturn : CommutesWith b g m fun s => if o = .answered then s else returnBuffer (.branchAnswer b) s :=
    ite_commutes (c := fun _ => o = .answered) (fun _ => Iff.rfl) (fun _ => rfl) (returnBuffer_commutes _)
  intro s
  have honLine : (marked b g m (modifyBranch b (fun x => { x with windowTimer := none }) s)).branches[b].onLine =
      (modifyBranch b (fun x => { x with windowTimer := none }) s).branches[b].onLine := by rw [marked_branch]; rfl
  unfold attemptEnds
  rw [hstop s]
  dsimp only
  rw [honLine]
  generalize modifyBranch b (fun x => { x with windowTimer := none }) s = u
  cases u.branches[b].onLine with
  | none => exact enterIdle_commutes hg u
  | some i =>
    exact (enterIdle_commutes hg).comp ((dropAssignment_commutes b).comp ((settleAttempt_commutes i b o).comp
      (hreturn.comp (countResult_commutes b o (u.records[i].abandoned || u.records[i].cancelPending))))) u

theorem truncateOpen_commutes (hg : LineMark g) : CommutesWith b g m (truncateOpen (.branch b)) := by
  intro s
  have hport : (marked b g m s).port (.branch b) = g (s.port (.branch b)) := lineChange_port (.branch b) g _ s.buffers s
  have hflags : truncatedFlags ((marked b g m s).port (.branch b)) (s.flags ||| m) =
      truncatedFlags (s.port (.branch b)) s.flags ||| m := by rw [hport, truncatedFlags_marked hg]
  rw [truncateOpen_lineChange, truncateOpen_lineChange]
  show lineChange (.branch b) PortState.cut (truncatedFlags _ (s.flags ||| m)) s.buffers (marked b g m s) = _
  rw [hflags]
  show lineChange (.branch b) _ _ _ (lineChange (.branch b) g _ s.buffers s) =
    lineChange (.branch b) g _ s.buffers (lineChange (.branch b) _ _ _ s)
  rw [lineChange_lineChange, lineChange_lineChange]
  exact lineChange_congr (hg.cut _) _ _

theorem cutShort_commutes (hg : LineMark g) : CommutesWith b g m (cutShort (.branch b)) := by
  intro s
  have hstoring : storing (.branch b) (marked b g m s) = storing (.branch b) s := by
    have hport : (marked b g m s).port (.branch b) = g (s.port (.branch b)) :=
      lineChange_port (.branch b) g _ s.buffers s
    unfold storing
    rw [hport, hg.rx]
  have hreport : CommutesWith b g m (reportFailure (.branch b) (storing (.branch b) s)) :=
    ite_commutes (c := fun u => (storing (.branch b) s && u.branches[b].status == .recv) = true)
      (fun u => by rw [marked_branch]; rfl) (attemptEnds_commutes hg .badAnswer) fun _ => rfl
  unfold cutShort
  rw [hstoring, truncateOpen_commutes hg s]
  exact hreport _

end

/-! ### ANSWER_END -/

/-- The end of a character, as a mark (R5, R22). -/
theorem lineMark_rested : LineMark fun q => { q with lineRest := 0, gapTimeout := q.charTimeout } :=
  ⟨fun _ => rfl, fun _ => rfl, fun _ _ => rfl⟩

/-- Line rest time that has come to a count, as a mark (R9). -/
theorem lineMark_gap (n : Nat) : LineMark fun q => { q with lineRest := max q.lineRest n } :=
  ⟨fun _ => rfl, fun _ => rfl, fun _ _ => rfl⟩

/-- A break, as a mark (R4). -/
theorem lineMark_break : LineMark fun q => { q with inBreak := true, lineRest := 0 } :=
  ⟨fun _ => rfl, fun _ => rfl, fun _ _ => rfl⟩

/-- No flag of a mark. -/
theorem flags_or_zero (x : BitVec 12) : x ||| 0 = x := by simp

/-- Settles O16: the remaining characters complete the frame; each cause that cuts it short is a mark on the port. -/
theorem answerEndIsItsCharacters : Obligations.AnswerEndIsItsCharacters := by
  intro b a s hr ht hst hrx p x
  have hrx' : (s.port p).rx = .assemble a := hrx
  have hend : ∀ report, endAnswer b report s = match report with
      | .complete data check =>
        let chars := frameBody (frameAddress a.got) data ++ bytesOfWord check
        if opensWith (.branch b) chars s then
          frameCompletes (.branch b) a.stored chars
            (storeChars (.branch b) a.stored chars (characterEnds (.branch b) s))
        else s
      | .truncated => cutShort (.branch b) (modifyPort (.branch b) (fun q => { q with charInProgress := false }) s)
      | .malformed count =>
        if a.got.length = 1 then takePosition (.branch b) a count (characterEnds (.branch b) s) else s := by
    intro report
    unfold endAnswer
    cases report
    all_goals rw [if_pos (by rw [hr, hst]; rfl), hrx] <;> rfl
  refine ⟨fun address data check hgot hd => ?_, fun address count hgot hc => ?_, ?_⟩
  · have hlen : (frameBody address data ++ bytesOfWord check).length = data.length + 4 := by
      simp [frameBody, bytesOfWord]
    have hcount : frameCount (frameBody address data ++ bytesOfWord check) = data.length := by
      show (BitVec.ofNat 8 data.length).toNat = data.length
      rw [BitVec.toNat_ofNat]
      exact Nat.mod_eq_of_lt (by omega)
    have hcomplete : frameComplete (frameBody address data ++ bytesOfWord check) = true := by
      unfold frameComplete
      rw [hcount, hlen]
      simp only [Bool.and_eq_true, decide_eq_true_eq, beq_iff_eq]
      omega
    have hsplit : frameBody address data ++ bytesOfWord check =
        a.got ++ (frameBody address data ++ bytesOfWord check).tail := by rw [hgot]; rfl
    have hopens : opensWith p (frameBody address data ++ bytesOfWord check) s = true := by
      unfold opensWith
      rw [hrx']
      dsimp only
      rw [hlen, hgot]
      simp [frameBody]
    have hremain := runRows_rest p a.stored (frameBody address data ++ bytesOfWord check).tail a.got s
      (by simp [frameBody]) (by rw [hgot]; simp) hr ht hrx' (by rw [← hsplit, hlen]; omega)
      (by rw [← hsplit]; exact hcomplete)
    rw [← hsplit] at hremain
    refine hremain.trans ?_
    show _ = execAnswerEnd b (.complete data check) s
    unfold execAnswerEnd
    rw [if_pos (by show fitsFrame data = true; simpa [fitsFrame] using hd), hend]
    dsimp only
    rw [hgot, show frameAddress [address] = address from rfl, if_pos hopens]
  · rw [exec_data_received hr ht count, receiveData_assemble hrx']
    show _ = execAnswerEnd b (.malformed count) s
    unfold execAnswerEnd
    rw [if_pos (by show decide (Config.maxData < count.toNat) = true; exact decide_eq_true hc), hend]
    dsimp only
    rw [hgot, if_pos List.length_singleton]
  · have hh : hears s p = true := receives_hears hr
    generalize hu : modifyPort p (fun q => { q with charInProgress := false }) s = u
    have hmark : ∀ (g : PortState → PortState) (m : BitVec 12), marked b g m u =
        lineChange p (fun q => g { q with charInProgress := false }) (s.flags ||| m) s.buffers s := by
      intro g m
      rw [← hu, modifyPort_eq_lineChange]
      exact lineChange_lineChange p g (fun q => { q with charInProgress := false }) (s.flags ||| m) s.flags s.buffers
        s.buffers s
    have hcut : ∀ {g : PortState → PortState} (m : BitVec 12), LineMark g →
        cutShort p (marked b g m u) = marked b g m (cutShort p u) := fun m hg => cutShort_commutes hg u
    refine ⟨cutShort p u, ?_, ?_, fun hc => ?_, ?_⟩
    · show execAnswerEnd b .truncated s = _
      unfold execAnswerEnd
      rw [if_pos (show AnswerReport.truncated.wellFormed = true from rfl), hend, ← hu]
    · have hbase : raise .lineError (characterEnds p s) = marked b (fun q =>
          { q with lineRest := 0, gapTimeout := q.charTimeout }) (flagMask .lineError) u := by
        rw [hmark, characterEnds_eq, raise_lineChange]
        rfl
      show Host.Outcome.next (hearFramingError p s) = _
      unfold hearFramingError
      rw [if_pos hh, if_neg (by rw [show (s.port p).tx.sending = false from ht]; simp), if_pos hr, hbase,
        hcut _ lineMark_rested]
      rfl
    · have hbase : modifyPort p (fun q => { q with
            lineRest := max q.lineRest (q.gapTimeout * characterClocks q.rate + 1) }) s =
          marked b (fun q => { q with
            lineRest := max q.lineRest (x.gapTimeout * characterClocks x.rate + 1) }) 0 u := by
        rw [hmark, modifyPort_eq_lineChange, flags_or_zero]
        refine lineChange_congr ?_ _ _
        have hc' : (s.port p).charInProgress = false := hc
        rw [← hc']
        rfl
      show Host.Outcome.next (timeoutCharacter p s) = _
      unfold timeoutCharacter
      rw [if_pos (by simp [hh, hrx', show (s.port p).charInProgress = false from hc]), hbase,
        hcut _ (lineMark_gap _), marked, flags_or_zero]
      rfl
    · have hbase : raise .lineError (modifyPort p (fun q =>
            { q with inBreak := true, lineRest := 0, charInProgress := false }) s) =
          marked b (fun q => { q with inBreak := true, lineRest := 0 }) (flagMask .lineError) u := by
        rw [hmark, modifyPort_eq_lineChange, raise_lineChange]
      have hb : (s.port p).inBreak = false := by
        have hr' := hr
        unfold receives at hr'
        simp only [Bool.and_eq_true, Bool.not_eq_true'] at hr'
        exact hr'.2
      show Host.Outcome.next (hearBreak p s) = _
      unfold hearBreak
      rw [if_pos (by simp [hh, hb])]
      dsimp only
      rw [if_neg (by rw [show (s.port p).tx.sending = false from ht]; simp), hbase,
        hcut _ lineMark_break]
      rfl

end Sys2Proof.Machine
end

section
/-!
The route table's lookup and the tag that SUBMIT issues (sections 2.1 and 3.2): settlement of the statements about them.
-/

namespace Sys2Proof.Machine

-- The gate's memory limit counts every thread's arena, so the declarations are elaborated one after another.
set_option Elab.async false

/-- Settles O24: match, lookup and rewrite, each by its definition; a lookup is a lowest index. -/
theorem lookupMatchesAndRewrites : Obligations.LookupMatchesAndRewrites := by
  intro s e a
  refine ⟨?_, fun j => lookup_eq_some, lookup_eq_none, fun h => ?_, fun base h i hi => ?_⟩
  · unfold entryMatches isStationAddress isGroupAddress
    cases e.kind <;> simp [and_assoc]
  · unfold outgoing
    rw [h]
  · unfold outgoing
    rw [h]
    dsimp only
    rw [BitVec.getLsbD_or, BitVec.getLsbD_and, BitVec.getLsbD_and, BitVec.getLsbD_not]
    cases e.mask.getLsbD i <;> simp [hi]

/-! ### Tags -/

/-- The tags run from 1 to 255 in a circle (R48). -/
theorem nextTag_toNat {t : Byte} (h : t ≠ 0x00#8) : (nextTag t).toNat = t.toNat % 255 + 1 := by
  have hpos : t.toNat ≠ 0 := fun h0 => h (BitVec.eq_of_toNat_eq h0)
  have hlt := t.isLt
  unfold nextTag
  split
  · rename_i heq
    rw [heq]
    rfl
  · rename_i hne
    have h255 : t.toNat ≠ 255 := fun h255 => hne (BitVec.eq_of_toNat_eq h255)
    rw [BitVec.toNat_add]
    show (t.toNat + 1) % 256 = _
    omega

/-- The tag some steps on (R48). -/
theorem iterate_nextTag_toNat {t : Byte} (h : t ≠ 0x00#8) (n : Nat) :
    (Nat.iterate nextTag n t).toNat = (t.toNat - 1 + n) % 255 + 1 := by
  have hpos : t.toNat ≠ 0 := fun h0 => h (BitVec.eq_of_toNat_eq h0)
  have hlt := t.isLt
  induction n with
  | zero => show t.toNat = _; omega
  | succ n ih =>
    rw [Function.iterate_succ_apply', nextTag_toNat ?_, ih]
    · omega
    · intro h0
      rw [h0] at ih
      exact absurd ih (Nat.succ_ne_zero _).symm

/-- Tags a few steps apart are different. -/
theorem iterate_nextTag_injective {t : Byte} (h : t ≠ 0x00#8) {m n : Nat} (hm : m < 255) (hn : n < 255)
    (heq : Nat.iterate nextTag m t = Nat.iterate nextTag n t) : m = n := by
  have hval := congrArg BitVec.toNat heq
  rw [iterate_nextTag_toNat h, iterate_nextTag_toNat h] at hval
  omega

/-- A held tag is that of some record. -/
theorem tagHeld_iff {s : State} {t : Byte} : tagHeld s t = true ↔
    ∃ i : RecordIndex, s.records[i].kind = some .deferred ∧ s.records[i].state ≠ .free ∧ s.records[i].tag = some t := by
  unfold tagHeld
  rw [List.any_eq_true]
  constructor
  · rintro ⟨r, hr, hheld⟩
    obtain ⟨i, hi, rfl⟩ := Vector.getElem_of_mem (Vector.mem_toList_iff.mp hr)
    exact ⟨⟨i, hi⟩, by simpa [and_assoc] using hheld⟩
  · rintro ⟨i, hheld⟩
    exact ⟨s.records[i], Vector.mem_toList_iff.mpr (Vector.getElem_mem i.isLt), by simpa [and_assoc] using hheld⟩

/-- There are more tags than records: some tag is not held before the seventeenth (R38, R48). -/
theorem exists_unheld {s : State} {t : Byte} (h : t ≠ 0x00#8) :
    ∃ n, n ≤ 16 ∧ tagHeld s (Nat.iterate nextTag n t) = false := by
  by_contra hall
  have hheld : ∀ n : Fin 17, ∃ i : RecordIndex, s.records[i].tag = some (Nat.iterate nextTag n.val t) := by
    intro n
    have hn : tagHeld s (Nat.iterate nextTag n.val t) = true := by
      by_contra hno
      exact hall ⟨n.val, by omega, by simpa using hno⟩
    obtain ⟨i, -, -, htag⟩ := tagHeld_iff.mp hn
    exact ⟨i, htag⟩
  choose f hf using hheld
  obtain ⟨m, n, hne, hsame⟩ := Fintype.exists_ne_map_eq_of_card_lt f (by decide)
  have htags : some (Nat.iterate nextTag m.val t) = some (Nat.iterate nextTag n.val t) := by
    rw [← hf m, ← hf n, hsame]
  exact hne (Fin.ext (iterate_nextTag_injective h (by omega) (by omega) (Option.some.inj htags)))

/-- The search for a tag stops at the first one that is not held (R48). -/
theorem freeTagFrom_first {s : State} {n : Nat} : ∀ {fuel : Nat} {t : Byte}, n ≤ fuel →
    tagHeld s (Nat.iterate nextTag n t) = false → ∃ k ≤ n, freeTagFrom s fuel t = Nat.iterate nextTag k t ∧
      tagHeld s (Nat.iterate nextTag k t) = false ∧ ∀ m < k, tagHeld s (Nat.iterate nextTag m t) = true := by
  induction n with
  | zero =>
    intro fuel t _ hfree
    refine ⟨0, Nat.le_refl 0, ?_, hfree, fun m hm => absurd hm (Nat.not_lt_zero m)⟩
    cases fuel with
    | zero => rfl
    | succ fuel => exact if_neg (by rw [show tagHeld s t = false from hfree]; simp)
  | succ n ih =>
    intro fuel t hfuel hfree
    cases fuel with
    | zero => exact absurd hfuel (Nat.not_succ_le_zero n)
    | succ fuel =>
      by_cases ht : tagHeld s t = true
      · obtain ⟨k, hk, hfound, hunheld, hbefore⟩ :=
          ih (fuel := fuel) (t := nextTag t) (Nat.le_of_succ_le_succ hfuel) hfree
        refine ⟨k + 1, Nat.succ_le_succ hk, (if_pos ht).trans hfound, hunheld, fun m hm => ?_⟩
        cases m with
        | zero => exact ht
        | succ m => exact hbefore m (Nat.lt_of_succ_lt_succ hm)
      · refine ⟨0, Nat.zero_le _, if_neg ht, by simpa using ht, fun m hm => absurd hm (Nat.not_lt_zero m)⟩

/-- Settles O37: of 17 tags in a row one is not held by the 16 records, and the search stops at the first such. -/
theorem issuedTagIsUnheld : Obligations.IssuedTagIsUnheld := by
  intro s h
  obtain ⟨n, hn, hfree⟩ := exists_unheld (s := s) h
  obtain ⟨k, hk, hfound, hunheld, hbefore⟩ := freeTagFrom_first (fuel := 255) (by omega) hfree
  have hissued : issuedTag s = Nat.iterate nextTag k s.tagCounter := hfound
  refine ⟨freeTagFrom_ne_zero s 255 h, by rw [hissued]; exact hunheld, k, by omega, hissued, hbefore⟩

end Sys2Proof.Machine
end

section
/-!
A management command as it is executed: the part it finds, and what its effect leaves of the part (sections 9.1, 10.2).
-/

namespace Sys2Proof.Machine

-- The gate's memory limit counts every thread's arena, so the declarations are elaborated one after another.
set_option Elab.async false

/-! ### The part a command finds -/

/-- The part that the execution of a command finds: superseded, under the traces of its frame (R104, R118, R160). -/
def Received (s u : State) : Prop :=
  ∃ p : Traces, u = p.over (superseded s) ∧ p.fits (superseded s) ∧ p.flags ||| receiptFlags = receiptFlags ∧
    p.claimed.isNone = storing .trunk s ∧ (heldFrame .trunkAssembly u).isSome = true

section
variable {s u : State}

/-- Reception leaves its traces on the trunk, the pool and the flags alone. -/
theorem Received.sameBut (h : Received s u) : SameBut receptionParts (superseded s) u := by
  obtain ⟨p, rfl, -⟩ := h
  exact p.over_sameBut _

/-- The frame of the command is in its buffer. -/
theorem Received.assembly (h : Received s u) : (heldFrame .trunkAssembly u).isSome = true := by
  obtain ⟨p, -, -, -, -, hheld⟩ := h
  exact hheld

/-- Every other block holds the frame that the supersede left it. -/
theorem Received.heldFrame (h : Received s u) {k : Holder} (hf : k ≠ .free) (ht : k ≠ .trunkAssembly) :
    heldFrame k u = Sys2Proof.Machine.heldFrame k (superseded s) := by
  obtain ⟨p, rfl, hfit, -⟩ := h
  exact Traces.over_heldFrame hfit hf ht

/-- Reception sets at most its own flags. -/
theorem Received.flags (h : Received s u) : u.flags ||| receiptFlags = s.flags ||| receiptFlags := by
  obtain ⟨p, rfl, -, hflags, -⟩ := h
  rw [Traces.over_flags, (superseded_kept s).1, BitVec.or_assoc, hflags]

/-- The trunk under reception, but for what its port has received. -/
theorem Received.trunk (h : Received s u) : u.trunk.counters = (superseded s).trunk.counters ∧
    u.trunk.pendingSetting = none ∧ u.trunk.port.rate = (superseded s).trunk.port.rate ∧
    u.trunk.port.guard = s.trunk.port.guard ∧ u.trunk.port.charTimeout = s.trunk.port.charTimeout := by
  obtain ⟨p, rfl, -⟩ := h
  obtain ⟨-, hpending, hguard, htimeout⟩ := superseded_kept s
  exact ⟨rfl, hpending, rfl, hguard, htimeout⟩

theorem Received.records (h : Received s u) : u.records = (superseded s).records :=
  h.sameBut.2 .records (by decide) (by decide)
theorem Received.slots (h : Received s u) : u.slots = (superseded s).slots := h.sameBut.2 .slots (by decide) (by decide)
theorem Received.completions (h : Received s u) : u.completions = (superseded s).completions :=
  h.sameBut.2 .completions (by decide) (by decide)
theorem Received.tagCounter (h : Received s u) : u.tagCounter = (superseded s).tagCounter :=
  h.sameBut.2 .tagCounter (by decide) (by decide)
theorem Received.params (h : Received s u) : u.params = (superseded s).params :=
  h.sameBut.2 .params (by decide) (by decide)
theorem Received.activeBank (h : Received s u) : u.activeBank = s.activeBank :=
  (h.sameBut.2 .activeBank (by decide) (by decide)).trans (superseded_activeBank s)
theorem Received.bank (h : Received s u) (k : Bank) : u.bank k = s.bank k := by
  cases k with
  | a => exact (h.sameBut.2 .bankA (by decide) (by decide)).trans (superseded_bankA s)
  | b => exact (h.sameBut.2 .bankB (by decide) (by decide)).trans (superseded_bankB s)
theorem Received.branches (h : Received s u) (b : Branch) : u.branches[b] = (superseded s).branches[b] := by
  obtain ⟨p, rfl, -⟩ := h
  rfl

end

/-! ### The answer and what it leaves -/

/-- The answer of a command whose effect touches the named pieces alone (R160, R161). -/
theorem Received.answered {s u : State} (h : Received s u) (code seq : Byte) (r : ResultCode) {data : List Byte}
    (hlen : data.length ≤ 56) {v : State} (hm : v.params.mgmtAddress = u.params.mgmtAddress)
    (hheld : (Sys2Proof.Machine.heldFrame .trunkAssembly v).isSome = true) :
    Answered s code seq r data (buildResponse code seq { result := r, data := data, state := v }) := by
  refine buildResponse_answered (r := { result := r, data := data, state := v }) ?_ hheld
    (by show data.length + 4 ≤ 60; omega)
  show v.params.mgmtAddress = _
  rw [hm, h.params, superseded_mgmtAddress]

/-- What a response changes of the part that the execution leaves: the trunk, the pool and the last command. -/
theorem buildResponse_sameBut (code seq : Byte) (r : Reply) :
    SameBut [.trunk, .buffers, .lastCommand] r.state (buildResponse code seq r) := by
  refine ⟨buildResponse_pending code seq r, fun q _ hq => ?_⟩
  cases q with
  | trunk | buffers | lastCommand => exact absurd (by decide) hq
  | pins => exact ⟨buildResponse_inReset code seq r, buildResponse_strapA code seq r, buildResponse_strapR code seq r⟩
  | params => exact buildResponse_params code seq r
  | branch b => exact congrArg (fun v => v[b]) (buildResponse_branches code seq r)
  | bankA => exact buildResponse_bankA code seq r
  | bankB => exact buildResponse_bankB code seq r
  | activeBank => exact buildResponse_activeBank code seq r
  | records => exact buildResponse_records code seq r
  | tagCounter => exact buildResponse_tagCounter code seq r
  | completions => exact buildResponse_completions code seq r
  | slots => exact buildResponse_slots code seq r
  | flags => exact buildResponse_flags code seq r

/-- What a command leaves of the part when its effect touches the named pieces alone. -/
theorem Received.commandKept {s u : State} (h : Received s u) (code seq : Byte) (r : ResultCode) (data : List Byte)
    {except : List Part} {v : State} (hv : SameBut except u v) :
    CommandKept except s (buildResponse code seq { result := r, data := data, state := v }) := by
  have hkept : ∀ q ∈ allParts, q ∉ except → samePart u v q := hv.2
  refine ⟨?_, fun hq => ?_, fun hq => ?_, fun hq k hk => ?_, fun hq => ?_⟩
  · refine (h.sameBut.mono ?_).trans ((hv.mono ?_).trans ((buildResponse_sameBut code seq _).mono ?_))
    · intro q hq
      refine List.mem_append_right _ ?_
      revert q
      decide
    · exact fun q hq => List.mem_append_left _ hq
    · intro q hq
      refine List.mem_append_right _ ?_
      revert q
      decide
  · rw [buildResponse_params]
    exact (hkept .params (by decide) hq).trans (h.params.trans (superseded_params s))
  · rw [buildResponse_flags]
    have hflags : v.flags = u.flags := hkept .flags (by decide) hq
    show v.flags ||| receiptFlags = _
    rw [hflags, h.flags]
  · obtain ⟨hf, ht⟩ := exchangeHolders_ne hk
    have hl : k ≠ .lastResponse := by rintro rfl; exact absurd hk (by decide)
    have hbuffers : v.buffers = u.buffers := hkept .buffers (by decide) hq
    rw [heldFrame_buildResponse_other hf ht hl, ← h.heldFrame hf ht]
    show (v.buffers.toList.find? _).map _ = _
    rw [hbuffers]
    rfl
  · have htrunk : v.trunk = u.trunk := hkept .trunk (by decide) hq
    rw [buildResponse_counters, buildResponse_pendingSetting, buildResponse_rate, buildResponse_guard,
      buildResponse_charTimeout]
    show v.trunk.counters = _ ∧ v.trunk.pendingSetting = _ ∧ v.trunk.port.rate = _ ∧ v.trunk.port.guard = _ ∧
      v.trunk.port.charTimeout = _
    rw [htrunk]
    exact h.trunk

/-- A command answered without an effect (R163). -/
theorem Received.answeredOnly {s u : State} (h : Received s u) (code seq : Byte) (r : ResultCode) {data : List Byte}
    (hlen : data.length ≤ 56) :
    AnsweredOnly s code seq r data (buildResponse code seq { result := r, data := data, state := u }) :=
  ⟨h.answered code seq r hlen rfl h.assembly, h.commandKept code seq r data (SameBut.refl [] u)⟩

/-- A command frame that is ready is executed on the part that it finds (R160). -/
theorem command_received {s : State} {code seq : Byte} (hs : commandReady code seq s = true) {args : List Byte}
    (hl : args.length + 2 ≤ 60) : ∃ u, Received s u ∧
      exec (.trunkGoodFrame (settledAddress s) (code :: seq :: args)) s =
        .next (buildResponse code seq (runCommand code args u)) := by
  obtain ⟨p, hfit, hflags, hclaim, hheld, hexec⟩ := command_answered hs hl
  exact ⟨_, ⟨p, rfl, hfit, hflags, hclaim, by rw [hheld]; rfl⟩, hexec⟩

/-- The code of a command names it (section 10.4). -/
theorem commandOf_commandByte (c : CommandCode) : commandOf (commandByte c) = some c := by
  cases c <;> decide

/-- A ready management row is executed on the part that it finds (R160). -/
theorem row_received {s : State} {i : Instr} {c : CommandCode} {seq : Byte} {args : List Byte}
    (hd : Laws.commandData i = some (commandByte c :: seq :: args)) (hi : ∀ a data, i ≠ .trunkGoodFrame a data)
    (hs : commandReady (commandByte c) seq s = true) (hl : args.length + 2 ≤ 60) :
    ∃ u, Received s u ∧ exec i s = .next (buildResponse (commandByte c) seq (runNamed c args u)) := by
  obtain ⟨u, hu, hexec⟩ := command_received hs hl
  refine ⟨u, hu, (Laws.exec_commandData hd hi s).trans (hexec.trans ?_)⟩
  unfold runCommand
  rw [commandOf_commandByte]

end Sys2Proof.Machine
end

section
/-!
What a supersede leaves of the records, the slots and the branches, as the commands read them (sections 3.6 and 5.2).
-/

namespace Sys2Proof.Machine

-- The gate's memory limit counts every thread's arena, so the declarations are elaborated one after another.
set_option Elab.async false

/-- A table as the list of its places. -/
theorem table_toList {α : Type} {n : Nat} (v : Vector α n) : v.toList = (List.finRange n).map fun i => v[i] := by
  refine List.ext_getElem (by simp) fun i h1 h2 => ?_
  simp

/-- Two tables that agree where a test holds have the same places that meet it. -/
theorem filter_table_congr {α : Type} {n : Nat} {p : α → Bool} {v w : Vector α n}
    (h : ∀ i : Fin n, p v[i] = p w[i] ∧ (p w[i] = true → v[i] = w[i])) :
    v.toList.filter p = w.toList.filter p := by
  rw [table_toList, table_toList, List.filter_map, List.filter_map]
  have hsame : (p ∘ fun i : Fin n => v[i]) = (p ∘ fun i : Fin n => w[i]) := funext fun i => (h i).1
  rw [hsame]
  refine List.map_congr_left fun i hi => (h i).2 ?_
  exact (List.mem_filter.mp hi).2

section
variable (s : State)

/-- The live TRANSPARENT record that is not ABANDONED, as a record. -/
theorem liveTransparent_kind {s : State} {i : RecordIndex} (h : liveTransparent s = some i) :
    s.records[i].kind = some .transparent ∧ s.records[i].state ≠ .free ∧ s.records[i].abandoned = false := by
  have := (lowestIndex_eq_some.mp h).1
  simpa [and_assoc] using this

/-- One record after the supersede of a frame (R64). -/
theorem superseded_records (j : RecordIndex) : (superseded s).records[j] =
    if liveTransparent s = some j then supersededRecord s.records[j] else s.records[j] :=
  supersede_records (s := setRx .trunk .hunt s) rfl j

/-- A record that is not TRANSPARENT is left by a supersede (R64). -/
theorem superseded_record_of_kind {s : State} {j : RecordIndex} (h : s.records[j].kind ≠ some .transparent) :
    (superseded s).records[j] = s.records[j] := by
  rw [superseded_records, if_neg fun hl => h (liveTransparent_kind hl).1]

/-- A test of records that no TRANSPARENT and no free record meets holds after a supersede where it held before. -/
theorem superseded_test {p : Record → Bool} (ht : ∀ r : Record, r.kind = some .transparent → p r = false)
    (hf : p .free = false) (i : RecordIndex) : p (superseded s).records[i] = p s.records[i] ∧
      (p s.records[i] = true → (superseded s).records[i] = s.records[i]) := by
  rw [superseded_records]
  split
  · rename_i hl
    have hk := (liveTransparent_kind hl).1
    have hold := ht _ hk
    refine ⟨?_, fun h => absurd h (by rw [hold]; simp)⟩
    rw [hold]
    unfold supersededRecord
    split
    · exact hf
    · exact ht _ hk
  · exact ⟨rfl, fun _ => rfl⟩

/-- The same for a frame's supersede and a list of the records. -/
theorem superseded_filter {p : Record → Bool} (ht : ∀ r : Record, r.kind = some .transparent → p r = false)
    (hf : p .free = false) : (superseded s).records.toList.filter p = s.records.toList.filter p :=
  filter_table_congr (superseded_test s ht hf)

theorem superseded_slots : (superseded s).slots = s.slots := supersede_slots (s := setRx .trunk .hunt s) rfl

theorem superseded_tagCounter : (superseded s).tagCounter = s.tagCounter :=
  (superseded_sameBut s).2 .tagCounter (by decide) (by decide)

theorem superseded_pins : samePart s (superseded s) .pins := (superseded_sameBut s).2 .pins (by decide) (by decide)

/-- A supersede leaves of a branch all but its queue and STALLED. -/
theorem superseded_branch (b : Branch) : otherBranchKept s.branches[b] (superseded s).branches[b] :=
  supersede_branches (s := setRx .trunk .hunt s) rfl b

theorem superseded_inService (b : Branch) : inService (superseded s) b = inService s b := by
  unfold inService
  rw [(superseded_branch s b).eq]

/-- The deferred count of a branch is left by a supersede (R51). -/
theorem superseded_deferredCount (b : Branch) : deferredCount (superseded s) b = deferredCount s b := by
  unfold deferredCount
  rw [List.countP_eq_length_filter, List.countP_eq_length_filter, superseded_filter]
  · rintro r hr
    rw [hr]
    rfl
  · rfl

/-- The live DEFERRED record of a tag is the same after a supersede (R49). -/
theorem superseded_recordOfTag (tag : Byte) : recordOfTag (superseded s) tag = recordOfTag s tag := by
  unfold recordOfTag
  refine congrArg lowestIndex (funext fun i => ?_)
  exact (superseded_test s (p := fun r => r.kind == some .deferred && r.state != .free && r.tag == some tag &&
    !r.cancelPending) (fun r hr => by rw [hr]; rfl) rfl i).1

/-- The tags that are held are the same after a supersede (R48). -/
theorem superseded_tagHeld (tag : Byte) : tagHeld (superseded s) tag = tagHeld s tag := by
  have hany : ∀ l : List Record, ∀ p : Record → Bool, l.any p = !(l.filter p).isEmpty := by
    intro l p
    induction l with
    | nil => rfl
    | cons r l ih => by_cases hr : p r = true <;> simp [hr, ih]
  unfold tagHeld
  rw [hany, hany, superseded_filter]
  · rintro r hr
    rw [hr]
    rfl
  · rfl

/-- The buffers of a record that the supersede does not free are left by it, and so are a branch's answer and a
snapshot (R104). -/
theorem superseded_heldFrame {h : Holder} (hh : h ∈ exchangeHolders)
    (hr : ∀ i, liveTransparent s = some i → h ≠ .request i ∧ h ≠ .answer i) :
    heldFrame h (superseded s) = heldFrame h s := by
  obtain ⟨hf, -⟩ := exchangeHolders_ne hh
  have ho : h ≠ .owedReply ∧ h ≠ .lastResponse := by constructor <;> rintro rfl <;> exact absurd hh (by decide)
  have howed : heldFrame h (supersedeOwed (setRx .trunk .hunt s)) = heldFrame h s := by
    rw [supersedeOwed_eq]
    split
    · exact heldFrame_returnBuffer_other hf ho.1 _
    · rfl
  have hlive : liveTransparent (supersedeOwed (setRx .trunk .hunt s)) = liveTransparent s := by
    rw [supersedeOwed_eq]
    rfl
  have hrecord : heldFrame h (supersedeRecord (supersedeOwed (setRx .trunk .hunt s))) = heldFrame h s := by
    rw [← howed]
    unfold supersedeRecord
    rw [hlive]
    split
    · rfl
    · rename_i i hi
      obtain ⟨h1, h2⟩ := hr i hi
      split
      · exact heldFrame_freeRecord_other i hf h1 h2 _
      · rfl
  unfold superseded
  rw [(supersede_eq (s := setRx .trunk .hunt s) rfl).2, ← hrecord]
  split
  · exact heldFrame_returnBuffer_other hf ho.2 _
  · rfl

end

end Sys2Proof.Machine
end

section
/-!
Settlement of the statements about the commands that read, and about the envelope and replay (chapter 9).
-/

namespace Sys2Proof.Machine

-- The gate's memory limit counts every thread's arena, so the declarations are elaborated one after another.
set_option Elab.async false

/-! ### Identification and the records on hand -/

/-- The items of LIST_PENDING fit a response (section 10.5). -/
theorem pendingItems_length (s : State) : ((liveDeferred s).map pendingItem).flatten.length ≤ 48 := by
  have hcount : (liveDeferred s).length ≤ 16 := by
    unfold liveDeferred
    exact (List.length_filter_le _ _).trans (by simp)
  have hflat : ∀ l : List Record, ((l.map pendingItem).flatten).length = 3 * l.length := by
    intro l
    induction l with
    | nil => rfl
    | cons r l ih =>
      rw [List.map_cons, List.flatten_cons, List.length_append, ih, List.length_cons]
      simp only [pendingItem, List.length_cons, List.length_nil]
      omega
  rw [hflat]
  omega

/-- The live DEFERRED records that a command finds are those before its frame (R172). -/
theorem Received.liveDeferred {s u : State} (h : Received s u) : liveDeferred u =
    s.records.toList.filter fun r => r.kind == some .deferred && r.state != .free := by
  unfold Sys2Proof.Machine.liveDeferred
  rw [h.records]
  exact superseded_filter s (fun r hr => by rw [hr]; rfl) rfl

/-- The straps as a command finds them. -/
theorem Received.straps {s u : State} (h : Received s u) : u.strapA = s.strapA ∧ u.strapR = s.strapR := by
  obtain ⟨-, ha, hr⟩ := h.sameBut.2 .pins (by decide) (by decide)
  obtain ⟨-, ha', hr'⟩ := superseded_pins s
  exact ⟨ha.trans ha', hr.trans hr'⟩

/-- Settles O28: both commands answer what they find and change nothing. -/
theorem identifyAndListPending : Obligations.IdentifyAndListPending := by
  intro seq s
  refine ⟨fun hs => ?_, fun hs => ?_⟩
  · obtain ⟨u, hu, hexec⟩ := row_received (i := .identify seq) (c := .identify) rfl (by simp) hs (by simp)
    refine ⟨_, hexec, ?_⟩
    rw [← hu.straps.1, ← hu.straps.2]
    exact hu.answeredOnly _ seq .ok (by simp)
  · obtain ⟨u, hu, hexec⟩ := row_received (i := .listPending seq) (c := .listPending) rfl (by simp) hs (by simp)
    refine ⟨_, hexec, ?_⟩
    rw [← hu.liveDeferred]
    have hlen : (byteOfNat (liveDeferred u).length :: ((liveDeferred u).map pendingItem).flatten).length ≤ 56 := by
      have hitems := pendingItems_length u
      rw [List.length_cons]
      omega
    exact hu.answeredOnly 0x14#8 seq .ok hlen

/-! ### Parameters -/

/-- A parameter as a command finds it is one as the supersede of its frame leaves it (R114, R166). -/
theorem Received.paramValue {s u : State} (h : Received s u) (q : Param) :
    paramValue u q = Sys2Proof.Machine.paramValue (superseded s) q := by
  have hparams := h.params
  have hbranch := h.branches
  obtain ⟨p, rfl, -⟩ := h
  cases q with
  | rate p => cases p <;> rfl
  | guard p => cases p <;> rfl
  | charTimeout p => cases p <;> rfl
  | _ => rfl

/-- Settles O29: GET_PARAM answers the value that it finds. -/
theorem getParamReads : Obligations.GetParamReads := by
  intro seq index s hs
  obtain ⟨u, hu, hexec⟩ := row_received (i := .getParam seq index) (c := .getParam) rfl (by simp) hs (by simp)
  refine ⟨_, hexec, ?_⟩
  show match paramOf index with
    | none => AnsweredOnly s 0x02#8 seq .badArgument [] (buildResponse 0x02#8 seq (cmdGetParam index u))
    | some p => AnsweredOnly s 0x02#8 seq .ok (index :: wordBytes (paramValue (superseded s) p))
        (buildResponse 0x02#8 seq (cmdGetParam index u))
  unfold cmdGetParam
  cases paramOf index with
  | none => exact hu.answeredOnly _ seq .badArgument (by simp)
  | some p =>
    dsimp only
    rw [← hu.paramValue]
    exact hu.answeredOnly _ seq .ok (by simp [wordBytes, bytesOfWord])

/-! ### Route entries -/

/-- A clear option that is none of the two (R162). -/
theorem clearOptionOf_eq_none {c : Byte} : clearOptionOf c = none ↔ 2 ≤ c.toNat := by
  unfold clearOptionOf
  constructor
  · intro h
    by_contra hlt
    have hc : c = 0x00#8 ∨ c = 0x01#8 := by bv_omega
    rcases hc with rfl | rfl <;> simp at h
  · intro h
    rw [if_neg (by rintro rfl; simp at h), if_neg (by rintro rfl; simp at h)]

/-- An accepted clear option (R162). -/
theorem clearOptionOf_eq_some {c : Byte} (h : ¬ 2 ≤ c.toNat) : clearOptionOf c = some (decide (c = 0x01#8)) := by
  have hc : c = 0x00#8 ∨ c = 0x01#8 := by bv_omega
  rcases hc with rfl | rfl <;> rfl

/-- READ_ENTRY refuses an argument outside its table (R40). -/
theorem cmdReadEntry_badArgument {bank index clear : Byte} (h : 2 ≤ bank.toNat ∨ 24 ≤ index.toNat ∨ 2 ≤ clear.toNat)
    (s : State) : cmdReadEntry bank index clear s = refuse .badArgument s := by
  unfold cmdReadEntry
  rcases h with h | h | h
  · rw [bankOf_eq_none.mpr h]
  · rw [entryIndexOf_eq_none.mpr h]
    cases bankOf bank <;> rfl
  · rw [clearOptionOf_eq_none.mpr h]
    cases bankOf bank <;> cases entryIndexOf index <;> rfl

/-- What a holder holds depends on the pool alone. -/
theorem heldFrame_of_buffers {s t : State} (h : t.buffers = s.buffers) (k : Holder) :
    heldFrame k t = heldFrame k s := by
  unfold heldFrame
  rw [h]

/-- A change of an entry touches its bank alone. -/
theorem modifyEntry_sameBut (k : Bank) (j : Fin Config.entryCount) (f : RouteEntry → RouteEntry) (s : State) :
    SameBut [bankPart k] s (modifyEntry k j f s) := setBank_sameBut k _ s

/-- Settles O31: the entry is reported as it stands, and its HITS cleared when asked. -/
theorem readEntryReads : Obligations.ReadEntryReads := by
  intro seq bank index clear s hs
  obtain ⟨u, hu, hexec⟩ :=
    row_received (i := .readEntry seq bank index clear) (c := .readEntry) rfl (by simp) hs (by simp)
  have hrow : exec (.readEntry seq bank index clear) s =
      .next (buildResponse 0x08#8 seq (cmdReadEntry bank index clear u)) := hexec
  refine ⟨_, hrow, ?_⟩
  split
  · rename_i hbad
    rw [cmdReadEntry_badArgument hbad]
    exact hu.answeredOnly _ seq .badArgument (by simp)
  · rename_i hgood
    intro k j hk hj e
    have he : (s.bank k)[j] = e := rfl
    clear_value e
    have hclear : ¬ 2 ≤ clear.toNat := fun h => hgood (.inr (.inr h))
    have hread : cmdReadEntry bank index clear u = okay
        ([bank, index, boolByte (u.bank k)[j].valid] ++ entryBytes (u.bank k)[j] ++ wordBytes (u.bank k)[j].hits)
        (if decide (clear = 0x01#8) then modifyEntry k j (fun x => { x with hits := 0 }) u else u) := by
      unfold cmdReadEntry
      rw [bankOf_eq_some.mpr hk, entryIndexOf_eq_some.mpr hj, clearOptionOf_eq_some hclear]
    rw [hread, hu.bank k, he]
    have hlen : ([bank, index, boolByte e.valid] ++ entryBytes e ++ wordBytes e.hits).length ≤ 56 := by
      simp [entryBytes, wordBytes, bytesOfWord]
    obtain ⟨v, hv⟩ : ∃ v, v = if decide (clear = 0x01#8) then modifyEntry k j
        (fun x => { x with hits := 0 }) u else u :=
      ⟨_, rfl⟩
    have hentries : ∀ i, (v.bank k)[i] = if i = j then (if clear = 0x01#8 then { e with hits := 0 } else e)
        else (s.bank k)[i] := by
      intro i
      by_cases hc : clear = 0x01#8
      · rw [hv, if_pos (decide_eq_true hc), modifyEntry_bank, hu.bank, if_pos hc]
        by_cases hi : i = j
        · rw [if_pos hi, if_pos hi, hi, he]
        · rw [if_neg hi, if_neg hi]
      · rw [hv, if_neg (by rw [decide_eq_false hc]; exact Bool.false_ne_true), hu.bank, if_neg hc]
        by_cases hi : i = j
        · rw [if_pos hi, hi, he]
        · rw [if_neg hi]
    have hkept : SameBut [bankPart k] u v := by
      rw [hv]
      split
      · exact modifyEntry_sameBut k j _ u
      · exact SameBut.refl _ u
    have hbuffers : v.buffers = u.buffers := hkept.2 .buffers (by decide) (by cases k <;> decide)
    have hparams : v.params = u.params := hkept.2 .params (by decide) (by cases k <;> decide)
    rw [← hv]
    refine ⟨hu.answered 0x08#8 seq .ok hlen (congrArg GlobalParams.mgmtAddress hparams) ?_, ?_, fun i hi => ?_,
      hu.commandKept 0x08#8 seq .ok _ hkept⟩
    · rw [heldFrame_of_buffers hbuffers]
      exact hu.assembly
    · rw [buildResponse_bank]
      exact (hentries j).trans (if_pos rfl)
    · rw [buildResponse_bank]
      exact (hentries i).trans (if_neg hi)

end Sys2Proof.Machine
end

section
/-!
Settlement of the statements about route entries written, banks swapped, and events, counters and slots read (chapters
2, 7 and 8).
-/

namespace Sys2Proof.Machine

-- The gate's memory limit counts every thread's arena, so the declarations are elaborated one after another.
set_option Elab.async false

/-! ### A command with an effect -/

/-- A command whose effect leaves the parameters and the pool: its answer, and what it leaves of the part (R160,
R161). -/
theorem Received.effect {s u v : State} (h : Received s u) {except : List Part} (hv : SameBut except u v)
    (hp : .params ∉ except) (hb : .buffers ∉ except) (code seq : Byte) (r : ResultCode) {data : List Byte}
    (hlen : data.length ≤ 56) :
    Answered s code seq r data (buildResponse code seq { result := r, data := data, state := v }) ∧
      CommandKept except s (buildResponse code seq { result := r, data := data, state := v }) := by
  refine ⟨h.answered code seq r hlen (congrArg GlobalParams.mgmtAddress (hv.2 .params (by decide) hp)) ?_,
    h.commandKept code seq r data hv⟩
  rw [heldFrame_of_buffers (hv.2 .buffers (by decide) hb)]
  exact h.assembly

/-- A part that is ready for a command is not held in reset. -/
theorem inReset_of_commandReady {s : State} {code seq : Byte} (h : commandReady code seq s = true) :
    s.inReset = false := by
  unfold commandReady trunkReady at h
  simp only [Bool.and_eq_true] at h
  exact inReset_of_hears (receives_hears h.1.1.1)

/-- A command finds the part out of reset. -/
theorem Received.inReset {s u : State} (h : Received s u) : u.inReset = s.inReset := by
  obtain ⟨hr, -, -⟩ := h.sameBut.2 .pins (by decide) (by decide)
  exact hr.trans (superseded_pins s).1

/-! ### Route entries -/

/-- A set of one branch on the line (section 10.4). -/
theorem branchCountOf_eq_one : ∀ c : Byte, (decide (c.toNat < 16) && branchCountOf c == 1) = true ↔
    c = 0x01#8 ∨ c = 0x02#8 ∨ c = 0x04#8 ∨ c = 0x08#8 := by decide

/-- A set of at least one branch on the line (section 10.4). -/
theorem branchCountOf_ne_zero : ∀ c : Byte, (decide (c.toNat < 16) && branchCountOf c != 0) = true ↔
    1 ≤ c.toNat ∧ c.toNat ≤ 15 := by decide

/-- Check 4 of R41, by the kind of the entry. -/
theorem entryCheck4_iff (e0 e3 : Byte) : entryCheck4 e0 e3 = true ↔
    if e0 = 0x00#8 then e3 = 0x01#8 ∨ e3 = 0x02#8 ∨ e3 = 0x04#8 ∨ e3 = 0x08#8 else 1 ≤ e3.toNat ∧ e3.toNat ≤ 15 := by
  unfold entryCheck4
  by_cases h : e0 = 0x00#8
  · rw [if_pos h, if_pos h]
    exact branchCountOf_eq_one e3
  · rw [if_neg h, if_neg h]
    exact branchCountOf_ne_zero e3

/-- Check 5 of R41, by the kind of the entry. -/
theorem entryCheck5_iff (e0 e7 : Byte) : entryCheck5 e0 e7 = true ↔ e7.toNat ≤ (if e0 = 0x00#8 then 3 else 0) := by
  unfold entryCheck5
  by_cases h : e0 = 0x00#8
  · rw [if_pos h, if_pos h, decide_eq_true_iff]
  · rw [if_neg h, if_neg h, beq_iff_eq]
    constructor
    · rintro rfl
      exact Nat.le_refl 0
    · intro h0
      bv_omega

/-- The checks of R41 on the nine bytes, spelled out (R183). -/
theorem entryBytesValid_iff (e0 e1 e2 e3 e4 e5 e6 e7 e8 : Byte) :
    entryBytesValid [e0, e1, e2, e3, e4, e5, e6, e7, e8] = true ↔
      e0.toNat ≤ 1 ∧ e4.toNat ≤ 2 ∧ ¬ (e4 = 0x01#8 ∧ e0 = 0x01#8) ∧ e5.toNat ≤ 1 ∧
        (if e0 = 0x00#8 then e3 = 0x01#8 ∨ e3 = 0x02#8 ∨ e3 = 0x04#8 ∨ e3 = 0x08#8
          else 1 ≤ e3.toNat ∧ e3.toNat ≤ 15) ∧
        e7.toNat ≤ (if e0 = 0x00#8 then 3 else 0) ∧ (e8 = 0x00#8 ∨ (e8 = 0x01#8 ∧ e0 = 0x00#8 ∧ e4 = 0x00#8)) := by
  unfold entryBytesValid
  rw [Bool.and_eq_true, Bool.and_eq_true, Bool.and_eq_true, entryCheck4_iff, entryCheck5_iff]
  simp only [entryCheck3, entryCheck6, Bool.and_eq_true, Bool.or_eq_true, decide_eq_true_iff, beq_iff_eq,
    Bool.not_eq_true', Bool.and_eq_false_iff, beq_eq_false_iff_ne, ne_eq, not_and_or, and_assoc]

/-- Nine bytes, one by one. -/
theorem nineBytes (e : Vector Byte 9) : e.toList = [e[0], e[1], e[2], e[3], e[4], e[5], e[6], e[7], e[8]] :=
  table_toList e

/-- WRITE_ENTRY refuses an argument outside its table (R41). -/
theorem cmdWriteEntry_badArgument {bank index : Byte} (h : 2 ≤ bank.toNat ∨ 24 ≤ index.toNat) (entry : List Byte)
    (s : State) : cmdWriteEntry bank index entry s = refuse .badArgument s := by
  unfold cmdWriteEntry
  rcases h with h | h
  · rw [bankOf_eq_none.mpr h]
  · rw [entryIndexOf_eq_none.mpr h]
    cases bankOf bank <;> rfl

/-- WRITE_ENTRY of a place of a bank (R41). -/
theorem cmdWriteEntry_of_entry {bank index : Byte} {k : Bank} {j : Fin Config.entryCount} (hk : bankCode k = bank)
    (hj : j.val = index.toNat) (entry : List Byte) (s : State) : cmdWriteEntry bank index entry s =
      if k = s.activeBank then refuse .activeBank s
      else if entryBytesValid entry then okay [bank, index] (modifyEntry k j (fun _ => entryOfBytes entry) s)
      else refuse .badArgument s := by
  unfold cmdWriteEntry
  rw [bankOf_eq_some.mpr hk, entryIndexOf_eq_some.mpr hj]

/-- Settles O32: the checks of WRITE_ENTRY in order, and the entry that nine accepted bytes write. -/
theorem writeEntryWrites : Obligations.WriteEntryWrites := by
  intro seq bank index e s hs station
  obtain ⟨u, hu, hexec⟩ := row_received (i := .writeEntry seq bank index e) (c := .writeEntry)
    (args := bank :: index :: e.toList) rfl (by simp) hs (by simp)
  have hrun : runNamed .writeEntry (bank :: index :: e.toList) u = cmdWriteEntry bank index e.toList u :=
    if_pos (by simp)
  rw [hrun] at hexec
  refine ⟨_, hexec, ?_⟩
  split
  · rename_i hbad
    rw [cmdWriteEntry_badArgument hbad]
    exact hu.answeredOnly _ seq .badArgument (by simp)
  · rename_i hgood
    obtain ⟨hbank, hindex⟩ := not_or.mp hgood
    obtain ⟨k, hk⟩ : ∃ k, bankCode k = bank := by
      have hc : bank = 0x00#8 ∨ bank = 0x01#8 := by bv_omega
      rcases hc with rfl | rfl
      · exact ⟨.a, rfl⟩
      · exact ⟨.b, rfl⟩
    have hcheck := cmdWriteEntry_of_entry (j := ⟨index.toNat, Nat.not_le.mp hindex⟩) hk rfl e.toList u
    split
    · rename_i hsame
      have hactive : k = u.activeBank := by
        rw [hu.activeBank]
        exact Option.some.inj ((bankOf_eq_some.mpr hk).symm.trans (bankOf_eq_some.mpr hsame.symm))
      rw [hcheck, if_pos hactive]
      exact hu.answeredOnly _ seq .activeBank (by simp)
    · rename_i hother
      have hinactive : k ≠ u.activeBank := fun h => hother (by rw [← hk, h, hu.activeBank])
      have hchecks := entryBytesValid_iff e[0] e[1] e[2] e[3] e[4] e[5] e[6] e[7] e[8]
      rw [← nineBytes] at hchecks
      by_cases hpass : entryBytesValid e.toList = true
      · refine Eq.mpr (if_neg (not_not.mpr (hchecks.mp hpass))) ?_
        intro k' j hk' hj
        have hsame : k' = k := Option.some.inj ((bankOf_eq_some.mpr hk').symm.trans (bankOf_eq_some.mpr hk))
        rw [hsame, cmdWriteEntry_of_entry hk hj, if_neg hinactive, if_pos hpass]
        obtain ⟨hanswered, hkept⟩ := hu.effect (modifyEntry_sameBut k j (fun _ => entryOfBytes e.toList) u)
          (by cases k <;> decide) (by cases k <;> decide) 0x09#8 seq .ok (data := [bank, index]) (by simp)
        refine ⟨hanswered, ?_, fun i hi => ?_, hkept⟩
        · rw [buildResponse_bank]
          refine ((modifyEntry_bank k j j _ u).trans (if_pos rfl)).trans ?_
          rw [nineBytes]
          rfl
        · rw [buildResponse_bank, ← hu.bank]
          exact (modifyEntry_bank k j i _ u).trans (if_neg hi)
      · refine Eq.mpr (if_pos (fun h => hpass (hchecks.mpr h))) ?_
        rw [hcheck, if_neg hinactive, if_neg hpass]
        exact hu.answeredOnly _ seq .badArgument (by simp)

/-! ### The banks exchanged -/

/-- The bits of the status summary are its items (R150). -/
theorem statusSummary_bits (s : State) : (statusSummary s).getLsbD 0 = attention s ∧
    (statusSummary s).getLsbD 1 = (s.activeBank == .b) := by
  have hbits : ∀ a b c d e f : Bool,
      (summaryBit 0 a ||| summaryBit 1 b ||| summaryBit 2 c ||| summaryBit 3 d ||| summaryBit 4 e |||
        summaryBit 5 f).getLsbD 0 = a ∧
      (summaryBit 0 a ||| summaryBit 1 b ||| summaryBit 2 c ||| summaryBit 3 d ||| summaryBit 4 e |||
        summaryBit 5 f).getLsbD 1 = b := by decide
  exact hbits _ _ _ _ _ _

/-- A change of ACTIVE_BANK alone. -/
theorem activeBank_sameBut (k : Bank) (s : State) : SameBut [.activeBank] s { s with activeBank := k } :=
  ⟨rfl, fun q _ hq => by
    cases q with
    | activeBank => exact absurd (by decide) hq
    | pins | lastCommand => simp only [samePart, and_self]
    | _ => rfl⟩

/-- Settles O35: ACTIVE_BANK changes alone, before the summary of the response is judged. -/
theorem swapBanksSwaps : Obligations.SwapBanksSwaps := by
  intro seq s hs k
  obtain ⟨u, hu, hexec⟩ := row_received (i := .swapBanks seq) (c := .swapBanks) rfl (by simp) hs (by simp)
  have hrow : exec (.swapBanks seq) s = .next (buildResponse 0x0C#8 seq (cmdSwapBanks u)) := hexec
  refine ⟨_, hrow, ?_⟩
  have hk : otherBank u.activeBank = k := by rw [hu.activeBank]
  unfold cmdSwapBanks
  rw [hk]
  obtain ⟨hanswered, hkept⟩ := hu.effect (activeBank_sameBut k u) (by decide) (by decide) 0x0C#8 seq .ok
    (data := [bankCode k]) (by simp)
  refine ⟨hanswered, buildResponse_activeBank _ _ _, ?_, ?_, ?_, hkept⟩
  · rw [(statusSummary_bits _).2, buildResponse_activeBank]
    cases k <;> rfl
  · exact (buildResponse_bankA _ _ _).trans (hu.bank .a)
  · exact (buildResponse_bankB _ _ _).trans (hu.bank .b)

/-! ### Events -/

/-- The response leaves the free count as READ_EVENTS reports it: the previous last response is free (R128). -/
theorem freeCount_buildResponse (code seq : Byte) (r : Reply) :
    freeCount (buildResponse code seq r) = freeCountAnswered r.state := by
  have htake : freeCount (takeResponseBuffer r.state) = freeCountAnswered r.state := by
    rw [← heldCount_free]
    unfold takeResponseBuffer
    rw [heldCount_handOver (by simp), if_neg (by simp), if_neg (by simp)]
    rfl
  rw [← htake]
  exact freeCount_writeBuffer _ _

/-- The flags as two bytes. -/
theorem wordBytes_flags (x : BitVec 12) : wordBytes x.toNat = bytesOfWord (x.setWidth 16) := by
  unfold wordBytes
  rw [BitVec.ofNat_toNat]

/-- A change of the flags alone. -/
theorem flags_sameBut (f : BitVec 12) (s : State) : SameBut [.flags] s { s with flags := f } :=
  ⟨rfl, fun q _ hq => by
    cases q with
    | flags => exact absurd (by decide) hq
    | pins | lastCommand => simp only [samePart, and_self]
    | _ => rfl⟩

/-- Clearing flags of a set changes no other flag. -/
theorem flags_cleared_or (x m r : BitVec 12) : x &&& ~~~m ||| r ||| m = x ||| r ||| m := by
  ext i hi
  simp only [BitVec.getElem_or, BitVec.getElem_and, BitVec.getElem_not]
  cases x[i] <;> cases m[i] <;> cases r[i] <;> rfl

/-- Settles O44: both commands report the part as the response finds it. -/
theorem eventsAreReadAndCleared : Obligations.EventsAreReadAndCleared := by
  intro seq mask s
  refine ⟨fun hs => ?_, fun hs => ?_⟩
  · obtain ⟨u, hu, hexec⟩ := row_received (i := .readEvents seq) (c := .readEvents) rfl (by simp) hs (by simp)
    have hrow : exec (.readEvents seq) s = .next (buildResponse 0x20#8 seq (cmdReadEvents u)) := hexec
    refine ⟨_, hrow, ?_⟩
    rw [wordBytes_flags, wordBytes_flags, freeCount_buildResponse, buildResponse_flags, buildResponse_params,
      buildResponse_completions, buildResponse_activeBank]
    unfold freeRecords
    rw [buildResponse_records]
    exact hu.answeredOnly 0x20#8 seq .ok (by simp [bytesOfWord])
  · obtain ⟨u, hu, hexec⟩ := row_received (i := .clearEvents seq mask) (c := .clearEvents) rfl (by simp) hs
      (by simp [bytesOfWord])
    have hrow : exec (.clearEvents seq mask) s = .next (buildResponse 0x21#8 seq (cmdClearEvents mask u)) := by
      have hmask : runNamed .clearEvents (bytesOfWord mask) u = cmdClearEvents mask u :=
        congrArg (cmdClearEvents · u) (wordOfBytes_bytes mask)
      rw [← hmask]
      exact hexec
    refine ⟨_, hrow, ?_⟩
    unfold cmdClearEvents
    split
    · exact hu.answeredOnly 0x21#8 seq .badArgument (by simp)
    · set f := u.flags &&& ~~~(mask.setWidth 12) with hf
      obtain ⟨hanswered, hkept⟩ := hu.effect (flags_sameBut f u) (by decide) (by decide) 0x21#8 seq .ok
        (data := bytesOfWord (f.setWidth 16)) (by simp [bytesOfWord])
      unfold okay
      set t := buildResponse 0x21#8 seq ⟨.ok, bytesOfWord (f.setWidth 16), { u with flags := f }⟩ with ht
      have hflags : t.flags = f := buildResponse_flags _ _ _
      have hparams : t.params.eventEnable = s.params.eventEnable := by
        rw [ht, buildResponse_params]
        show u.params.eventEnable = _
        rw [hu.params, superseded_params]
      have halert : t.alertAsserted = (f &&& s.params.eventEnable != 0) := by
        unfold State.alertAsserted attention
        rw [hflags, hparams, ht, buildResponse_inReset]
        show (!u.inReset && _) = _
        rw [hu.inReset, inReset_of_commandReady hs]
        rfl
      refine ⟨?_, ?_, ?_, ?_, ?_, hkept⟩
      · rw [hflags, wordBytes_flags]
        exact hanswered
      · rw [hflags, hf, BitVec.and_assoc, BitVec.and_comm (~~~_), BitVec.and_not_self]
        exact BitVec.and_zero
      · rw [hflags, hf, flags_cleared_or, hu.flags]
      · rw [hflags]
        exact halert
      · rw [(statusSummary_bits _).1, halert]
        unfold attention
        rw [hflags, hparams]

/-! ### Counters -/

/-- The response leaves every counter of every group. -/
theorem groupCounters_buildResponse (p : Port) (code seq : Byte) (r : Reply) :
    groupCounters p (buildResponse code seq r) = groupCounters p r.state := by
  cases p with
  | trunk => rfl
  | branch b =>
    unfold groupCounters
    rw [buildResponse_branches]

/-- The trunk has stored all but the CHECK of the frame that reads the counters of branch 0 without clearing them. -/
def countersAsked : State :=
  { State.reset with
    trunk := { State.reset.trunk with port := { State.reset.trunk.port with
      synchronised := true, rx := .assemble { stored := true, got := [0xE0, 0x04, 0x22, 0x01, 0x00, 0x00] } } }
    buffers := updateAt State.reset.buffers 0 fun _ =>
      { holder := .trunkAssembly, chars := [0xE0, 0x04, 0x22, 0x01, 0x00, 0x00] } }

/-- TRUNCATED of the trunk after a row. -/
def truncatedAfter (i : Instr) (s : State) : Option Nat :=
  match exec i s with
  | .next t => some t.trunk.port.counters.truncated
  | .fault _ | .refused _ => none

theorem truncatedAfter_next {i : Instr} {s t : State} (h : exec i s = .next t) :
    truncatedAfter i s = some t.trunk.port.counters.truncated := by
  unfold truncatedAfter
  rw [h]

/-- Refutes O45: the two rows are two frames on the trunk. Where the open frame is the beginning of the one without the
clear option, that row goes on with it, and the row with the clear option truncates it, which counts TRUNCATED (R10):
the groups of the trunk differ after them, although branch 0 is the one that is asked for. -/
theorem not_countersAreReadAndCleared : ¬ Obligations.CountersAreReadAndCleared := by
  intro h
  have hready : commandReady 0x22#8 1 countersAsked = true := by decide +kernel
  obtain ⟨t, ht, -, t', ht', -, -, -, hothers⟩ := (h 1 0 0 countersAsked hready).2 (.branch 0) (by decide)
  have hgroups : groupCounters .trunk t' = groupCounters .trunk t := hothers .trunk (by decide)
  have htruncated : t'.trunk.port.counters.truncated = t.trunk.port.counters.truncated :=
    congrArg (fun l => l.getD 3 0) hgroups
  have hgoesOn : truncatedAfter (.readCounters 1 0 0) countersAsked = some 0 := by decide +kernel
  have hbeginsAgain : truncatedAfter (.readCounters 1 0 1) countersAsked = some 1 := by decide +kernel
  have hzero := (truncatedAfter_next ht).symm.trans hgoesOn
  have hone := (truncatedAfter_next ht').symm.trans hbeginsAgain
  rw [htruncated, hzero] at hone
  exact absurd hone (by decide)

end Sys2Proof.Machine
end

section
/-!
Settlement of the statements about the envelope of a command, replay, and what the poll slots report (chapters 7 and 9).
-/

namespace Sys2Proof.Machine

-- The gate's memory limit counts every thread's arena, so the declarations are elaborated one after another.
set_option Elab.async false

/-! ### Slots -/

/-- A slot argument that names none (section 10.4). -/
theorem slotOf_eq_none {c : Byte} : slotOf c = none ↔ 8 ≤ c.toNat := by
  unfold slotOf indexOf
  constructor
  · intro h
    split at h
    · cases h
    · rename_i hlt
      exact Nat.not_lt.mp hlt
  · intro h
    rw [dif_neg (by show ¬ c.toNat < 8; omega)]

/-- A slot argument that names a slot (section 10.4). -/
theorem slotOf_eq_some {c : Byte} {k : SlotIndex} : slotOf c = some k ↔ k.val = c.toNat := by
  unfold slotOf indexOf
  constructor
  · intro h
    split at h
    · rw [← Option.some.inj h]
    · cases h
  · intro h
    have hlt : c.toNat < Config.slotCount := h ▸ k.isLt
    rw [dif_pos hlt]
    exact congrArg some (Fin.ext h.symm)

/-- The index of a slot as a byte is the argument that names it. -/
theorem byteOfNat_of_toNat {c : Byte} {n : Nat} (h : n = c.toNat) : byteOfNat n = c := by
  unfold byteOfNat
  rw [h, BitVec.ofNat_toNat, BitVec.setWidth_eq]

/-- A poll slot as a command finds it. -/
theorem Received.slot {s u : State} (h : Received s u) (k : SlotIndex) : u.slots[k] = s.slots[k] := by
  rw [h.slots, superseded_slots]

/-- The snapshot of a slot as a command finds it. -/
theorem Received.snapshot {s u : State} (h : Received s u) (k : SlotIndex) :
    Sys2Proof.Machine.heldFrame (.snapshot k) u = Sys2Proof.Machine.heldFrame (.snapshot k) s := by
  rw [h.heldFrame (by simp) (by simp)]
  exact superseded_heldFrame s (by fin_cases k <;> decide) (by simp)

/-- Settles O43: both commands report the slot as they find it. -/
theorem slotReadsShowTheSlot : Obligations.SlotReadsShowTheSlot := by
  intro seq slot offset s
  refine ⟨fun hs => ?_, fun hs => ?_⟩
  · obtain ⟨u, hu, hexec⟩ := row_received (i := .pollRead seq slot) (c := .pollRead) rfl (by simp) hs (by simp)
    have hrow : exec (.pollRead seq slot) s = .next (buildResponse 0x1B#8 seq (cmdPollRead slot u)) := hexec
    refine ⟨_, hrow, ?_⟩
    unfold cmdPollRead
    split
    · rename_i hbad
      rw [slotOf_eq_none.mpr hbad]
      exact hu.answeredOnly 0x1B#8 seq .badArgument (by simp)
    · intro k hk x
      rw [slotOf_eq_some.mpr hk]
      dsimp only
      have hslot := hu.slot k
      have hanswer : hasAnswer u k = (heldFrame (.snapshot k) s).isSome := by
        unfold hasAnswer
        rw [hu.snapshot]
      rw [hanswer]
      generalize u.slots[k] = y at hslot
      subst hslot
      cases hc : x.config with
      | none => exact hu.answeredOnly 0x1B#8 seq .ok (by simp)
      | some c =>
        intro htemplate
        refine hu.answeredOnly 0x1B#8 seq .ok ?_
        simp [wordBytes, bytesOfWord]
        omega
  · obtain ⟨u, hu, hexec⟩ := row_received (i := .readSnapshot seq slot offset) (c := .readSnapshot) rfl (by simp) hs
      (by simp)
    have hrow : exec (.readSnapshot seq slot offset) s =
        .next (buildResponse 0x1C#8 seq (cmdReadSnapshot slot offset u)) := hexec
    refine ⟨_, hrow, ?_⟩
    unfold cmdReadSnapshot
    split
    · rename_i hbad
      rw [slotOf_eq_none.mpr hbad]
      exact hu.answeredOnly 0x1C#8 seq .badArgument (by simp)
    · intro k hk x
      rw [slotOf_eq_some.mpr hk]
      dsimp only
      have hslot := hu.slot k
      rw [hu.snapshot]
      generalize u.slots[k] = y at hslot
      subst hslot
      by_cases hunset : x.state = .unset
      · rw [if_pos hunset, if_pos hunset]
        exact hu.answeredOnly 0x1C#8 seq .slotUnset (by simp)
      · rw [if_neg hunset, if_neg hunset]
        cases heldFrame (.snapshot k) s with
        | none => exact hu.answeredOnly 0x1C#8 seq .nothingReady (by simp)
        | some chars =>
          by_cases hoffset : (frameData chars).length < offset.toNat
          · dsimp only
            rw [if_pos hoffset, if_pos hoffset]
            exact hu.answeredOnly 0x1C#8 seq .badArgument (by simp)
          · dsimp only
            rw [if_neg hoffset, if_neg hoffset]
            have hlen : ([x.seq] ++ wordBytes (x.age.getD 0) ++
                [byteOfNat x.misses, byteOfNat (frameData chars).length] ++
                pieceFrom (frameData chars) offset.toNat).length ≤ 56 := by
              simp [wordBytes, bytesOfWord, pieceFrom, Config.maxPiece]
              omega
            exact hu.answeredOnly 0x1C#8 seq .ok hlen

/-! ### The envelope and replay -/

/-- A supersede changes of the counters of the trunk controller SUPERSEDED alone (R106). -/
theorem superseded_counters (s : State) : (superseded s).trunk.counters =
    { s.trunk.counters with superseded := (superseded s).trunk.counters.superseded } := by
  have htrunk : (superseded s).trunk.counters = (setRx .trunk .hunt s).trunk.withdrawn.counters :=
    (congrArg Trunk.counters (supersede_trunk rfl)).trans (Trunk.settled_counters _)
  rw [htrunk]
  unfold Trunk.withdrawn
  split <;> rfl

/-- A command frame whose buffer goes back to the pool changes nothing but the trunk (R125). -/
theorem Traces.dropped_commandKept {s t : State} {p : Traces} (hfit : p.fits (superseded s))
    (hflags : p.flags ||| receiptFlags = receiptFlags)
    (ht : t = { returnBuffer .trunkAssembly (p.over (superseded s)) with trunk := t.trunk }) :
    heldFrame .trunkAssembly t = none ∧ memoryKept (superseded s) t ∧ CommandKept [.trunk] s t := by
  have hparams := superseded_params s
  have hclear := (superseded_kept s).1
  have hframes : ∀ h, heldFrame h t = heldFrame h (returnBuffer .trunkAssembly (p.over (superseded s))) := by
    intro h
    rw [ht]
    rfl
  have hkept : SameBut receptionParts (superseded s) t := by
    refine (p.over_sameBut (superseded s)).trans (sameBut_reception ?_)
    rw [ht]
    rfl
  refine ⟨?_, ⟨?_, ?_, ?_⟩, hkept.mono (by decide), fun _ => ?_, fun _ => ?_, fun _ h hh => ?_,
    fun h => absurd (by decide) h⟩
  · rw [hframes, heldFrame_returnBuffer_same (by decide)]
  · exact (hkept.2 .lastCommand (by decide) (by decide)).1
  · exact (hkept.2 .lastCommand (by decide) (by decide)).2
  · rw [hframes, Traces.dropped_heldFrame hfit (by decide) (by decide)]
  · exact (hkept.2 .params (by decide) (by decide)).trans hparams
  · have hf : t.flags = (superseded s).flags ||| p.flags := by
      rw [ht]
      rfl
    rw [hf, hclear, BitVec.or_assoc, hflags]
  · obtain ⟨hfree, htrunk⟩ := exchangeHolders_ne hh
    rw [hframes, Traces.dropped_heldFrame hfit hfree htrunk]

/-- A frame for the management address in force reaches the engine (section 2.2). -/
theorem managementFrame_received {s : State} (hs : trunkReady s = true) {data : List Byte} (hd : data.length ≤ 60) :
    ∃ p : Traces, p.fits (superseded s) ∧ p.flags ||| receiptFlags = receiptFlags ∧
      exec (.trunkGoodFrame (settledAddress s) data) s = .next (manage data (p.over (superseded s))) := by
  obtain ⟨p, hfit, -, hflags, -, -, hexec⟩ := trunkGoodFrame_classified hs (settledAddress s) hd
  refine ⟨p, hfit, hflags, hexec.trans ?_⟩
  unfold classify
  rw [if_pos (show settledAddress s = (p.over (superseded s)).params.mgmtAddress from (superseded_mgmtAddress s).symm)]

/-- A code that names a command is the code of that command (section 10.4). -/
theorem commandOf_eq_none {code : Byte} (h : ∀ c, commandByte c ≠ code) : commandOf code = none := by
  have hnames : ∀ code c, commandOf code = some c → commandByte c = code := by decide
  cases hc : commandOf code with
  | none => rfl
  | some c => exact absurd (hnames code c hc) (h c)

/-- A command of a wrong argument length is answered BAD_LENGTH and executes nothing (R162). -/
theorem runNamed_badLength {c : CommandCode} {args : List Byte} (h : allowedLength c args.length = false) (s : State) :
    runNamed c args s = refuse .badLength s := by
  cases c <;> simp only [runNamed] <;> split <;> simp_all [allowedLength]

/-- Settles O27: the three checks of the envelope. -/
theorem envelopeIsChecked : Obligations.EnvelopeIsChecked := by
  refine ⟨fun data s hd hs => ?_, fun code seq args s hl hs => ⟨fun hcode => ?_, fun c hc hlen => ?_⟩⟩
  · obtain ⟨p, hfit, hflags, hexec⟩ := managementFrame_received hs (data := data) (by omega)
    have hshort : manage data (p.over (superseded s)) = discardMalformed (p.over (superseded s)) := by
      unfold manage
      match data with
      | [] | [_] => rfl
    obtain ⟨hheld, hmemory, hkept⟩ := Traces.dropped_commandKept
      (t := discardMalformed (p.over (superseded s))) hfit hflags rfl
    refine ⟨_, hexec.trans (congrArg _ hshort), ?_, hheld, superseded_owed s, hmemory, hkept⟩
    have hcounters := superseded_counters s
    show { (superseded s).trunk.counters with mgmtMalformed := countUp (superseded s).trunk.counters.mgmtMalformed } = _
    rw [hcounters]
  · obtain ⟨u, hu, hexec⟩ := command_received hs hl
    refine ⟨_, hexec, ?_⟩
    unfold runCommand
    rw [commandOf_eq_none hcode]
    exact hu.answeredOnly code seq .badCommand (by simp)
  · obtain ⟨u, hu, hexec⟩ := command_received hs hl
    refine ⟨_, hexec, ?_⟩
    unfold runCommand
    rw [← hc, commandOf_commandByte]
    dsimp only
    rw [runNamed_badLength hlen]
    exact hu.answeredOnly (commandByte c) seq .badLength (by simp)

/-- Settles O25: a replayed command gives its buffer back and owes the stored response again. -/
theorem commandReplayed : Obligations.CommandReplayed := by
  intro code seq args chars s hl hs hcode hseq hnot hchars
  obtain ⟨p, hfit, hflags, hexec⟩ := managementFrame_received hs (data := code :: seq :: args) hl
  have hreplay : manage (code :: seq :: args) (p.over (superseded s)) = replayLast (p.over (superseded s)) := by
    refine if_pos ?_
    unfold isReplay
    rw [show (p.over (superseded s)).lastCode = some code from hcode,
      show (p.over (superseded s)).lastSeq = some seq from hseq]
    simpa using hnot
  obtain ⟨hheld, hmemory, hkept⟩ := Traces.dropped_commandKept
    (t := replayLast (p.over (superseded s))) hfit hflags rfl
  refine ⟨_, hexec.trans (congrArg _ hreplay), ?_, hheld, rfl, hmemory, ?_, hkept⟩
  · have hcounters := superseded_counters s
    show { (superseded s).trunk.counters with replays := countUp (superseded s).trunk.counters.replays } = _
    rw [hcounters]
  · have hframe : heldFrame .lastResponse (returnBuffer .trunkAssembly (p.over (superseded s))) = some chars :=
      (Traces.dropped_heldFrame hfit (by decide) (by decide)).trans hchars
    show TxState.lead { address := frameAddress ((heldFrame .lastResponse (returnBuffer .trunkAssembly
      (p.over (superseded s)))).getD []), data := frameData ((heldFrame .lastResponse (returnBuffer .trunkAssembly
      (p.over (superseded s)))).getD []) } = _
    rw [hframe]
    rfl

end Sys2Proof.Machine
end

section
/-!
What agreement of a branch says, and settlement of the statement about SET_PARAM (sections 1.7 and 9.3).
-/

namespace Sys2Proof.Machine

-- The gate's memory limit counts every thread's arena, so the declarations are elaborated one after another.
set_option Elab.async false

/-! ### What agreement of a branch says -/

/-- A branch agrees with itself, clause by clause. -/
theorem branchAgrees_iff {x : BranchState} : branchAgrees x = true ↔
    (x.port.tx.leading = true ↔ x.status = .lead) ∧ (x.port.tx.sending = true ↔ x.status = .send) ∧
    (x.onLine.isSome = true ↔ x.status.onLine = true) ∧ (x.windowTimer = none ∨ x.status = .await) ∧
    (x.quarantineTimer = none ∨ x.status = .fault) ∧ (x.pendingRate = none ∨ x.status.onLine = true) ∧
    x.contentionRun ≤ 3 ∧ (x.status = .off ∨ x.status = .fault ∨ x.contentionRun < 3) ∧
    (x.status = .off → portSilent x.port = true) := by
  have hbeq : ∀ (a b : Bool), (a == b) = true ↔ (a = true ↔ b = true) := by decide
  simp only [branchAgrees, Bool.and_eq_true, hbeq, beq_iff_eq, Bool.or_eq_true, Option.isNone_iff_eq_none,
    decide_eq_true_eq, bne_iff_ne, and_assoc, or_assoc]
  refine and_congr_right' <| and_congr_right' <| and_congr_right' <| and_congr_right' <| and_congr_right' <|
    and_congr_right' <| and_congr_right' <| and_congr_right' ?_
  tauto

/-- A branch without work on line holds no rate (R22). -/
theorem pendingRate_of_not_onLine {x : BranchState} (h : branchAgrees x = true) (hs : x.status.onLine = false) :
    x.pendingRate = none := by
  obtain ⟨-, -, -, -, -, hrate, -⟩ := branchAgrees_iff.mp h
  exact hrate.resolve_right (by rw [hs]; exact Bool.false_ne_true)

/-! ### What storing a parameter changes -/

/-- The parameters of a branch under a stored one (section 10.7). -/
theorem branchUnder_values (q : Param) (n : Nat) (b : Branch) (x : BranchState) :
    (q ≠ .rate (.branch b) → (branchUnder q n b x).pendingRate.getD (branchUnder q n b x).port.rate =
      x.pendingRate.getD x.port.rate) ∧
    (branchUnder q n b x).port.guard = (if q = .guard (.branch b) then n else x.port.guard) ∧
    (branchUnder q n b x).port.charTimeout = (if q = .charTimeout (.branch b) then n else x.port.charTimeout) ∧
    (branchUnder q n b x).responseWindow = (if q = .responseWindow b then n else x.responseWindow) ∧
    (branchUnder q n b x).queueLimit = (if q = .queueLimit b then n else x.queueLimit) ∧
    (branchUnder q n b x).quarantine = (if q = .quarantine b then n else x.quarantine) := by
  unfold branchUnder
  by_cases hrate : q = .rate (.branch b)
  · rw [if_pos hrate]
    cases x.status.onLine <;> simp [hrate]
  by_cases hguard : q = .guard (.branch b)
  · simp [hguard]
  by_cases htimeout : q = .charTimeout (.branch b)
  · simp [htimeout]
  by_cases hwindow : q = .responseWindow b
  · simp [hwindow]
  by_cases hlimit : q = .queueLimit b
  · simp [hlimit]
  by_cases hquarantine : q = .quarantine b
  · simp [hquarantine]
  simp [hrate, hguard, htimeout, hwindow, hlimit, hquarantine]

/-- A RATE of a branch that holds none reads as stored, at once or held (R22, R97). -/
theorem branchUnder_rate (n : Nat) (b : Branch) {x : BranchState} (h : branchAgrees x = true) :
    (branchUnder (.rate (.branch b)) n b x).pendingRate.getD (branchUnder (.rate (.branch b)) n b x).port.rate = n := by
  unfold branchUnder
  rw [if_pos rfl]
  by_cases hs : x.status.onLine = true
  · rw [if_pos hs]
    rfl
  · rw [if_neg hs]
    show x.pendingRate.getD n = n
    rw [pendingRate_of_not_onLine h (by simpa using hs)]
    rfl

/-- What writing a RATE of a branch comes to, as one update of the part (R97). -/
theorem writeBranchRate_eq (b : Branch) (n : Nat) (s : State) : writeBranchRate b n s =
    { modifyBranch b (branchUnder (.rate (.branch b)) n b) s with
      flags := if s.branches[b].status.onLine then s.flags else truncatedFlags s.branches[b].port s.flags } := by
  have hunder : ∀ x : BranchState, branchUnder (.rate (.branch b)) n b x = if x.status.onLine then
      { x with pendingRate := some n } else { x with port := { x.port with
        rate := n, synchronised := false, charInProgress := false, rx := .hunt, counters := truncatedOnce x.port } } :=
    fun x => if_pos rfl
  unfold writeBranchRate
  cases hs : s.branches[b].status with
  | idle | off | fault =>
    dsimp only
    have hf : modifyBranch b (branchUnder (.rate (.branch b)) n b) s = modifyPort (.branch b) (fun q =>
        { q.cut with rate := n, synchronised := false, charInProgress := false }) s :=
      modifyBranch_congr ((hunder _).trans (if_neg (by rw [hs]; decide)))
    rw [applyRate_eq, hf]
    rfl
  | lead | send | await | recv =>
    dsimp only
    have hf : modifyBranch b (branchUnder (.rate (.branch b)) n b) s =
        modifyBranch b (fun x => { x with pendingRate := some n }) s :=
      modifyBranch_congr ((hunder _).trans (if_pos (by rw [hs]; decide)))
    rw [hf]
    rfl

/-- A parameter of no branch changes none. -/
theorem branchUnder_of_no_branch {q : Param} {b : Branch} (h : q ≠ .rate (.branch b) ∧ q ≠ .guard (.branch b) ∧
    q ≠ .charTimeout (.branch b) ∧ q ≠ .responseWindow b ∧ q ≠ .queueLimit b ∧ q ≠ .quarantine b) (n : Nat)
    (x : BranchState) : branchUnder q n b x = x := by
  obtain ⟨hrate, hguard, htimeout, hwindow, hlimit, hquarantine⟩ := h
  unfold branchUnder
  rw [if_neg hrate, if_neg hguard, if_neg htimeout, if_neg hwindow, if_neg hlimit, if_neg hquarantine]

/-- A change of one branch, told as what it makes of every branch. -/
theorem branches_of_modifyBranch {q : Param} {n : Nat} {b : Branch} {f : BranchState → BranchState}
    (hf : ∀ x, f x = branchUnder q n b x) (hq : ∀ d ≠ b, ∀ x, branchUnder q n d x = x) (s : State) (d : Branch) :
    (modifyBranch b f s).branches[d] = branchUnder q n d s.branches[d] := by
  by_cases hd : d = b
  · subst hd
    exact (modifyBranch_same d f s).trans (hf _)
  · exact (modifyBranch_other hd f s).trans (hq d hd _).symm

/-- What storing a parameter makes of the branches (R97, R167). -/
theorem storeParam_branches (q : Param) (v : Word) (s : State) (d : Branch) :
    (storeParam q v s).branches[d] = branchUnder q v.toNat d s.branches[d] := by
  cases q with
  | mgmtAddress | trunkReserve | holdTime | bufLowMark | eventEnable =>
    exact (branchUnder_of_no_branch (by simp) _ _).symm
  | responseWindow b | queueLimit b | quarantine b =>
    exact branches_of_modifyBranch (fun x => by simp [branchUnder])
      (fun e he x => branchUnder_of_no_branch (by simp [he.symm]) _ x) s d
  | rate p =>
    cases p with
    | trunk => exact (branchUnder_of_no_branch (by simp) _ _).symm
    | branch b =>
      show (writeBranchRate b v.toNat s).branches[d] = _
      rw [writeBranchRate_eq]
      exact branches_of_modifyBranch (fun x => rfl) (fun e he x => branchUnder_of_no_branch (by simp [he.symm]) _ x) s d
  | guard p | charTimeout p =>
    cases p with
    | trunk => exact (branchUnder_of_no_branch (by simp) _ _).symm
    | branch b =>
      exact branches_of_modifyBranch (fun x => by simp [branchUnder])
        (fun e he x => branchUnder_of_no_branch (by simp [he.symm]) _ x) s d

/-- A change of the trunk alone. -/
theorem modifyTrunk_sameBut (f : Trunk → Trunk) (s : State) : SameBut [.trunk] s (modifyTrunk f s) :=
  ⟨rfl, fun q _ hq => by
    cases q with
    | trunk => exact absurd (by decide) hq
    | pins => exact ⟨rfl, rfl, rfl⟩
    | lastCommand => exact ⟨rfl, rfl⟩
    | _ => rfl⟩

/-- A change of the parameters of no port alone. -/
theorem params_sameBut (g : GlobalParams) (s : State) : SameBut [.params] s { s with params := g } :=
  ⟨rfl, fun q _ hq => by
    cases q with
    | params => exact absurd (by decide) hq
    | pins => exact ⟨rfl, rfl, rfl⟩
    | lastCommand => exact ⟨rfl, rfl⟩
    | _ => rfl⟩

/-- The pieces of the part that storing a parameter can touch (section 10.7). -/
theorem storeParam_sameBut (q : Param) (v : Word) (s : State) :
    SameBut ([.trunk, .flags, .params] ++ branchParts) s (storeParam q v s) := by
  have hbranch : ∀ (b : Branch) (f : BranchState → BranchState),
      SameBut ([.trunk, .flags, .params] ++ branchParts) s (modifyBranch b f s) := fun b f =>
    (modifyBranch_sameBut b f s).mono (by fin_cases b <;> decide)
  have hport : ∀ (p : Port) (f : PortState → PortState),
      SameBut ([.trunk, .flags, .params] ++ branchParts) s (modifyPort p f s) := fun p f =>
    (modifyPort_sameBut p f s).mono (by
      cases p with
      | trunk => decide
      | branch b => fin_cases b <;> decide)
  have hparams : ∀ g : GlobalParams, SameBut ([.trunk, .flags, .params] ++ branchParts) s { s with params := g } :=
    fun g => (params_sameBut g s).mono (by decide)
  have htrunk : ∀ f : Trunk → Trunk, SameBut ([.trunk, .flags, .params] ++ branchParts) s (modifyTrunk f s) :=
    fun f => (modifyTrunk_sameBut f s).mono (by decide)
  cases q with
  | mgmtAddress => exact htrunk _
  | trunkReserve | holdTime | bufLowMark | eventEnable => exact hparams _
  | guard p | charTimeout p => exact hport p _
  | responseWindow b | queueLimit b | quarantine b => exact hbranch b _
  | rate p =>
    cases p with
    | trunk => exact htrunk _
    | branch b =>
      show SameBut _ s (writeBranchRate b v.toNat s)
      rw [writeBranchRate_eq]
      exact (hbranch b _).trans ((flags_sameBut _ _).mono (by decide))

/-- The flags after a parameter has been stored: a rate that cuts an open frame short sets LINE_ERROR (R13, R97). -/
theorem storeParam_flags (q : Param) (v : Word) (s : State) : (storeParam q v s).flags ||| receiptFlags =
    s.flags ||| receiptFlags ∧ ∀ b, q = .rate (.branch b) → s.branches[b].status.onLine = false →
      ∀ a, s.branches[b].port.rx = .assemble a → flagSet .lineError (storeParam q v s) = true := by
  cases q with
  | rate p =>
    cases p with
    | trunk => exact ⟨rfl, by simp⟩
    | branch b =>
      have hflags : (storeParam (.rate (.branch b)) v s).flags =
          if s.branches[b].status.onLine then s.flags else truncatedFlags s.branches[b].port s.flags := by
        show (writeBranchRate b v.toNat s).flags = _
        rw [writeBranchRate_eq]
      refine ⟨?_, ?_⟩
      · rw [hflags]
        split
        · rfl
        · unfold truncatedFlags
          split
          · rw [BitVec.or_assoc]
            rfl
          · rfl
          · rfl
      · rintro d hd hoff a ha
        obtain rfl : b = d := by simpa using hd
        unfold flagSet
        rw [hflags, hoff, if_neg Bool.false_ne_true]
        unfold truncatedFlags
        rw [ha]
        exact flagSet_raise_same .lineError s
  | mgmtAddress | trunkReserve | holdTime | bufLowMark | eventEnable => exact ⟨rfl, by simp⟩
  | guard p | charTimeout p => exact ⟨congrArg (· ||| receiptFlags) (modifyPort_flags p _ s), by simp⟩
  | responseWindow b | queueLimit b | quarantine b => exact ⟨rfl, by simp⟩

/-- The trunk after a parameter has been stored (R114, R167). -/
theorem storeParam_trunk (q : Param) (v : Word) (s : State) : (storeParam q v s).trunk = { s.trunk with
    pendingSetting := if q = .mgmtAddress then some (.mgmtAddress (lowByte v))
      else if q = .rate .trunk then some (.trunkRate v.toNat) else s.trunk.pendingSetting
    port := { s.trunk.port with
      guard := if q = .guard .trunk then v.toNat else s.trunk.port.guard
      charTimeout := if q = .charTimeout .trunk then v.toNat else s.trunk.port.charTimeout } } := by
  cases q with
  | rate p =>
    cases p with
    | trunk => simp [storeParam]
    | branch b =>
      show (writeBranchRate b v.toNat s).trunk = _
      rw [writeBranchRate_eq]
      simp
  | guard p | charTimeout p => cases p <;> simp [storeParam]
  | _ => simp [storeParam]

/-- The parameters of no port after one has been stored (R167). -/
theorem storeParam_params (q : Param) (v : Word) (s : State) : (storeParam q v s).params = { s.params with
    trunkReserve := if q = .trunkReserve then v.toNat else s.params.trunkReserve
    holdTime := if q = .holdTime then v.toNat else s.params.holdTime
    bufLowMark := if q = .bufLowMark then v.toNat else s.params.bufLowMark
    eventEnable := if q = .eventEnable then v.setWidth 12 else s.params.eventEnable } := by
  cases q with
  | rate p =>
    cases p with
    | trunk => simp [storeParam]
    | branch b =>
      show (writeBranchRate b v.toNat s).params = _
      rw [writeBranchRate_eq]
      simp
  | guard p | charTimeout p => cases p <;> simp [storeParam]
  | _ => simp [storeParam]

/-- Every other parameter keeps its value (R167). -/
theorem paramValue_storeParam_other {q r : Param} (h : r ≠ q) (v : Word) (s : State) :
    paramValue (storeParam q v s) r = paramValue s r := by
  have hne := h.symm
  cases r with
  | mgmtAddress | trunkReserve | holdTime | bufLowMark | eventEnable =>
    simp only [paramValue, storeParam_params, if_neg hne]
  | rate p =>
    cases p with
    | trunk => simp only [paramValue, storeParam_trunk]
    | branch b =>
      show (storeParam q v s).branches[b].pendingRate.getD (storeParam q v s).branches[b].port.rate = _
      rw [storeParam_branches]
      exact (branchUnder_values q v.toNat b s.branches[b]).1 hne
  | guard p =>
    cases p with
    | trunk =>
      show (storeParam q v s).trunk.port.guard = _
      rw [storeParam_trunk, if_neg hne]
      rfl
    | branch b =>
      obtain ⟨-, hguard, -⟩ := branchUnder_values q v.toNat b s.branches[b]
      show (storeParam q v s).branches[b].port.guard = _
      rw [storeParam_branches, hguard, if_neg hne]
      rfl
  | charTimeout p =>
    cases p with
    | trunk =>
      show (storeParam q v s).trunk.port.charTimeout = _
      rw [storeParam_trunk]
      show (if q = .charTimeout .trunk then _ else _) = _
      rw [if_neg hne]
      rfl
    | branch b =>
      obtain ⟨-, -, htimeout, -⟩ := branchUnder_values q v.toNat b s.branches[b]
      show (storeParam q v s).branches[b].port.charTimeout = _
      rw [storeParam_branches, htimeout, if_neg hne]
      rfl
  | responseWindow b =>
    obtain ⟨-, -, -, hwindow, -⟩ := branchUnder_values q v.toNat b s.branches[b]
    show (storeParam q v s).branches[b].responseWindow = _
    rw [storeParam_branches, hwindow, if_neg hne]
    rfl
  | queueLimit b =>
    obtain ⟨-, -, -, -, hlimit, -⟩ := branchUnder_values q v.toNat b s.branches[b]
    show (storeParam q v s).branches[b].queueLimit = _
    rw [storeParam_branches, hlimit, if_neg hne]
    rfl
  | quarantine b =>
    obtain ⟨-, -, -, -, -, hquarantine⟩ := branchUnder_values q v.toNat b s.branches[b]
    show (storeParam q v s).branches[b].quarantine = _
    rw [storeParam_branches, hquarantine, if_neg hne]
    rfl

/-- A parameter that is not held as the pending setting reads as stored (R166, R167). -/
theorem paramValue_storeParam_same {q : Param} {v : Word} {s : State} (hrange : paramInRange q v = true)
    (hm : q ≠ .mgmtAddress) (hr : q ≠ .rate .trunk) (hs : BranchesAgree s) :
    paramValue (storeParam q v s) q = v.toNat := by
  cases q with
  | mgmtAddress => exact absurd rfl hm
  | trunkReserve | holdTime | bufLowMark => rfl
  | eventEnable =>
    show (v.setWidth 12).toNat = v.toNat
    have hlt : v.toNat < 4096 := by simpa [paramInRange] using hrange
    rw [BitVec.toNat_setWidth, Nat.mod_eq_of_lt (by simpa using hlt)]
  | rate p =>
    cases p with
    | trunk => exact absurd rfl hr
    | branch b =>
      show (storeParam (.rate (.branch b)) v s).branches[b].pendingRate.getD
        (storeParam (.rate (.branch b)) v s).branches[b].port.rate = _
      rw [storeParam_branches]
      exact branchUnder_rate v.toNat b (hs b)
  | guard p =>
    cases p with
    | trunk =>
      show (storeParam (.guard .trunk) v s).trunk.port.guard = _
      rw [storeParam_trunk]
      rfl
    | branch b =>
      obtain ⟨-, hvalue, -⟩ := branchUnder_values (.guard (.branch b)) v.toNat b s.branches[b]
      show (storeParam (.guard (.branch b)) v s).branches[b].port.guard = _
      rw [storeParam_branches, hvalue, if_pos rfl]
  | charTimeout p =>
    cases p with
    | trunk =>
      show (storeParam (.charTimeout .trunk) v s).trunk.port.charTimeout = _
      rw [storeParam_trunk]
      rfl
    | branch b =>
      obtain ⟨-, -, hvalue, -⟩ := branchUnder_values (.charTimeout (.branch b)) v.toNat b s.branches[b]
      show (storeParam (.charTimeout (.branch b)) v s).branches[b].port.charTimeout = _
      rw [storeParam_branches, hvalue, if_pos rfl]
  | responseWindow b =>
    obtain ⟨-, -, -, hvalue, -⟩ := branchUnder_values (.responseWindow b) v.toNat b s.branches[b]
    show (storeParam (.responseWindow b) v s).branches[b].responseWindow = _
    rw [storeParam_branches, hvalue, if_pos rfl]
  | queueLimit b =>
    obtain ⟨-, -, -, -, hvalue, -⟩ := branchUnder_values (.queueLimit b) v.toNat b s.branches[b]
    show (storeParam (.queueLimit b) v s).branches[b].queueLimit = _
    rw [storeParam_branches, hvalue, if_pos rfl]
  | quarantine b =>
    obtain ⟨-, -, -, -, -, hvalue⟩ := branchUnder_values (.quarantine b) v.toNat b s.branches[b]
    show (storeParam (.quarantine b) v s).branches[b].quarantine = _
    rw [storeParam_branches, hvalue, if_pos rfl]

/-! ### SET_PARAM -/

/-- The response leaves every parameter. -/
theorem paramValue_buildResponse (q : Param) (code seq : Byte) (r : Reply) :
    paramValue (buildResponse code seq r) q = paramValue r.state q := by
  cases q with
  | rate p | guard p | charTimeout p =>
    cases p <;> simp only [paramValue, State.port, buildResponse_rate, buildResponse_guard, buildResponse_charTimeout,
      buildResponse_branches]
  | _ => simp only [paramValue, buildResponse_params, buildResponse_branches]

/-- A limit below use is a QUEUE_LIMIT below the deferred count (R51). -/
theorem limitBelowUse_iff {q : Param} {v : Word} {s : State} :
    limitBelowUse q v s = true ↔ ∃ b, q = .queueLimit b ∧ v.toNat < deferredCount s b := by
  cases q <;> simp [limitBelowUse]

/-- The deferred count of a branch as a command finds it. -/
theorem Received.deferredCount {s u : State} (h : Received s u) (b : Branch) :
    Sys2Proof.Machine.deferredCount u b = Sys2Proof.Machine.deferredCount s b := by
  rw [← superseded_deferredCount (s := s)]
  unfold Sys2Proof.Machine.deferredCount
  rw [h.records]

/-- A part that is ready for a command has a ready trunk, and the command is not replayed (R159). -/
theorem commandReady_trunkReady {s : State} {code seq : Byte} (h : commandReady code seq s = true) :
    trunkReady s = true := by
  unfold commandReady at h
  exact ((Bool.and_eq_true _ _).mp h).1

theorem not_replay_of_commandReady {s : State} {code seq : Byte} (h : commandReady code seq s = true) :
    ¬ isReplay (superseded s) code seq = true := by
  unfold commandReady at h
  simpa using ((Bool.and_eq_true _ _).mp h).2

/-- The trunk port that a command leaves runs its character timeout as the frame's last character set it (R9). -/
theorem setParam_gapTimeout {seq index : Byte} {v : Word} {s t : State} (hs : commandReady 0x03#8 seq s = true)
    (ht : exec (.setParam seq index v) s = .next t) : t.trunk.port.gapTimeout = s.trunk.port.charTimeout := by
  obtain ⟨p, -, -, hport, hexec⟩ := trunkGoodFrame_received (commandReady_trunkReady hs) (settledAddress s)
    (data := 0x03#8 :: seq :: index :: bytesOfWord v) (by simp [bytesOfWord])
  set u := p.over (superseded s) with hu
  have hreceived : u.trunk.port.gapTimeout = s.trunk.port.charTimeout := by rw [hport]; rfl
  have hmanage : classify (settledAddress s) (0x03#8 :: seq :: index :: bytesOfWord v) u =
      buildResponse 0x03#8 seq (cmdSetParam index (wordOfBytes (highByte v) (lowByte v)) u) := by
    unfold classify
    rw [if_pos (show settledAddress s = u.params.mgmtAddress from (superseded_mgmtAddress s).symm)]
    unfold manage bytesOfWord
    dsimp only
    rw [if_neg (show ¬ isReplay u 0x03#8 seq = true from not_replay_of_commandReady hs)]
    rfl
  have hstate : (cmdSetParam index (wordOfBytes (highByte v) (lowByte v)) u).state.trunk.port.gapTimeout =
      u.trunk.port.gapTimeout := by
    unfold cmdSetParam
    split
    · rfl
    · split
      · rfl
      · split
        · rfl
        · show (storeParam _ _ u).trunk.port.gapTimeout = _
          rw [storeParam_trunk]
  have hrow := (Laws.exec_commandData (i := .setParam seq index v) rfl (by simp) s).trans hexec
  rw [ht, Host.Outcome.next.injEq] at hrow
  rw [hrow, hmanage]
  exact hstate.trans hreceived

/-- Branches in agreement stay so in a supersede. -/
theorem branchesAgree_of_queuesOnly {s t : State} (h : QueuesOnly s t) (hs : BranchesAgree s) : BranchesAgree t := by
  intro b
  rw [(h b).eq]
  exact hs b

/-- Settles O30: the checks of SET_PARAM in order, and the one value it stores. -/
theorem setParamWrites : Obligations.SetParamWrites := by
  intro seq index v s hs
  obtain ⟨u, hu, hexec⟩ := row_received (i := .setParam seq index v) (c := .setParam)
    (args := index :: bytesOfWord v) rfl (by simp) hs (by simp [bytesOfWord])
  have hrun : runNamed .setParam (index :: bytesOfWord v) u = cmdSetParam index v u :=
    congrArg (cmdSetParam index · u) (wordOfBytes_bytes v)
  rw [hrun] at hexec
  have hrow : exec (.setParam seq index v) s = .next (buildResponse 0x03#8 seq (cmdSetParam index v u)) := hexec
  have hgap := setParam_gapTimeout hs hrow
  refine ⟨_, hrow, ?_⟩
  cases hp : paramOf index with
  | none =>
    have hcmd : cmdSetParam index v u = refuse .badArgument u := by
      unfold cmdSetParam
      rw [hp]
    rw [hcmd]
    exact hu.answeredOnly 0x03#8 seq .badArgument (by simp)
  | some p =>
    have hcmd : cmdSetParam index v u = if !paramInRange p v then refuse .badArgument u
        else if limitBelowUse p v u then refuse .limitBelowUse u
        else okay (index :: bytesOfWord v) (storeParam p v u) := by
      unfold cmdSetParam
      rw [hp]
    dsimp only
    by_cases hrange : paramInRange p v = true
    case neg =>
      rw [Bool.not_eq_true] at hrange
      rw [hcmd, if_pos (show (!paramInRange p v) = true by rw [hrange]; rfl), if_pos hrange]
      exact hu.answeredOnly 0x03#8 seq .badArgument (by simp)
    have hin : ¬ paramInRange p v = false := by rw [hrange]; exact Bool.noConfusion
    rw [if_neg (show ¬ (!paramInRange p v) = true by rw [hrange]; exact Bool.noConfusion)] at hcmd
    rw [if_neg hin]
    have hbelow : limitBelowUse p v u = true ↔ ∃ b, p = .queueLimit b ∧ v.toNat < deferredCount s b := by
      simpa only [hu.deferredCount] using limitBelowUse_iff (q := p) (v := v) (s := u)
    by_cases hlimit : limitBelowUse p v u = true
    · rw [hcmd, if_pos hlimit, if_pos (hbelow.mp hlimit)]
      exact hu.answeredOnly 0x03#8 seq .limitBelowUse (by simp)
    rw [if_neg hlimit] at hcmd
    rw [hcmd] at hgap ⊢
    rw [if_neg (mt hbelow.mpr hlimit)]
    have hkept := storeParam_sameBut p v u
    have htrunk := storeParam_trunk p v u
    have hbuffers : (storeParam p v u).buffers = u.buffers := hkept.2 .buffers (by decide) (by decide)
    have hmgmt : (storeParam p v u).params.mgmtAddress = u.params.mgmtAddress := by rw [storeParam_params]
    have hheld : (heldFrame .trunkAssembly (storeParam p v u)).isSome = true := by
      rw [heldFrame_of_buffers hbuffers]
      exact hu.assembly
    have hcommand := hu.commandKept 0x03#8 seq .ok (index :: bytesOfWord v) hkept
    obtain ⟨hsame, -, -, hframes, -⟩ := hcommand
    obtain ⟨hcounters, hpending, hrate, -, -⟩ := hu.trunk
    set t := buildResponse 0x03#8 seq (okay (index :: bytesOfWord v) (storeParam p v u)) with ht
    have hbranches : ∀ b : Branch, t.branches[b] = branchUnder p v.toNat b (superseded s).branches[b] := by
      intro b
      rw [ht, buildResponse_branches, ← hu.branches]
      exact storeParam_branches p v u b
    have hsetting : t.trunk.pendingSetting = if p = .mgmtAddress then some (.mgmtAddress (lowByte v))
        else if p = .rate .trunk then some (.trunkRate v.toNat) else none := by
      rw [ht, buildResponse_pendingSetting]
      show (storeParam p v u).trunk.pendingSetting = _
      rw [htrunk, hpending]
    have hflags : t.flags = (storeParam p v u).flags := buildResponse_flags _ _ _
    obtain ⟨hreceipt, hline⟩ := storeParam_flags p v u
    refine ⟨hu.answered 0x03#8 seq .ok (by simp) hmgmt hheld, fun other _ _ hne => ?_,
      fun a ha hv => ⟨?_, ?_⟩, fun hr => ⟨?_, ?_⟩, fun hm hr => ⟨fun hagree => ?_, ?_⟩,
      fun b => ⟨hbranches b, fun a hr hoff ha => ?_⟩, ?_, ?_, hgap, ?_, hframes (by decide), hsame.mono ?_⟩
    · rw [ht, paramValue_buildResponse]
      exact (paramValue_storeParam_other hne v u).trans (hu.paramValue other)
    · rw [hsetting, if_pos ha]
      subst ha
      have hle : v.toNat ≤ 0xEF := by
        simp only [paramInRange, Bool.and_eq_true, decide_eq_true_eq] at hrange
        exact hrange.2
      have hbyte : lowByte v = a := by
        refine BitVec.eq_of_toNat_eq ?_
        rw [hv]
        unfold lowByte
        simp
        omega
      rw [hbyte]
    · rw [ht, buildResponse_params]
      show (storeParam p v u).params.mgmtAddress = _
      rw [hmgmt, hu.params, superseded_mgmtAddress]
    · rw [hsetting, hr, if_neg (by simp), if_pos rfl]
    · rw [ht, buildResponse_rate]
      show (storeParam p v u).trunk.port.rate = _
      rw [htrunk]
      exact hrate
    · rw [ht, paramValue_buildResponse]
      refine paramValue_storeParam_same hrange hm hr fun b => ?_
      rw [hu.branches]
      exact branchesAgree_of_queuesOnly (superseded_branch (s := s)) hagree b
    · rw [hsetting, if_neg hm, if_neg hr]
    · have hx := (superseded_branch (s := s) b).eq
      have hub : u.branches[b] = { s.branches[b] with
          queue := u.branches[b].queue, stalled := u.branches[b].stalled } := by
        rw [hu.branches]
        exact hx
      show flagSet .lineError t = true
      unfold flagSet
      rw [hflags]
      refine hline b hr ?_ a ?_
      · rw [hub]
        exact hoff
      · rw [hub]
        exact ha
    · rw [hflags, hreceipt, hu.flags]
    · rw [ht, paramValue_buildResponse]
      rfl
    · rw [ht, buildResponse_counters]
      show (storeParam p v u).trunk.counters = _
      rw [htrunk]
      exact hcounters
    · decide

end Sys2Proof.Machine
end

section
/-!
Settlement of the statements about COLLECT, COLLECT_NEXT and CANCEL (sections 3.8, 3.9 and 9.5).
-/

namespace Sys2Proof.Machine

-- The gate's memory limit counts every thread's arena, so the declarations are elaborated one after another.
set_option Elab.async false

/-! ### A record freed by a command -/

/-- The pieces of the part that freeing a record can touch (R47). -/
theorem freeRecord_sameBut (i : RecordIndex) (s : State) :
    SameBut ([.records, .completions, .buffers] ++ branchParts) s (freeRecord i s) := by
  refine ⟨freeRecord_pending i s, fun q _ hq => ?_⟩
  cases q with
  | records | completions | buffers => exact absurd (by decide) hq
  | branch b => exact absurd (by fin_cases b <;> decide) hq
  | pins => exact ⟨freeRecord_inReset i s, freeRecord_strapA i s, freeRecord_strapR i s⟩
  | params => exact freeRecord_params i s
  | trunk => exact freeRecord_trunk i s
  | bankA => exact freeRecord_bankA i s
  | bankB => exact freeRecord_bankB i s
  | activeBank => exact freeRecord_activeBank i s
  | tagCounter => exact freeRecord_tagCounter i s
  | slots => exact freeRecord_slots i s
  | flags => exact freeRecord_flags i s
  | lastCommand => exact ⟨freeRecord_lastCode i s, freeRecord_lastSeq i s⟩

/-- A change of a record alone. -/
theorem modifyRecord_sameBut (i : RecordIndex) (f : Record → Record) (s : State) :
    SameBut [.records] s (modifyRecord i f s) :=
  ⟨rfl, fun q _ hq => by
    cases q with
    | records => exact absurd (by decide) hq
    | pins => exact ⟨rfl, rfl, rfl⟩
    | lastCommand => exact ⟨rfl, rfl⟩
    | _ => rfl⟩

/-- A change of one record leaves every other. -/
theorem modifyRecord_other (i : RecordIndex) {k : RecordIndex} (h : k ≠ i) (f : Record → Record) (s : State) :
    (modifyRecord i f s).records[k] = s.records[k] := updateAt_other s.records f h

/-- A freed record leaves the queue of every branch (R47). -/
theorem freeRecord_queue (i : RecordIndex) (b : Branch) (s : State) :
    (freeRecord i s).branches[b].queue = s.branches[b].queue.filter fun j => j != i := by
  obtain ⟨stalled, h⟩ := freeRecord_branches i b s
  rw [h]

/-- What a command that frees a record answers, and what it leaves (R47, R69, R71). -/
theorem Received.freed {s u : State} (h : Received s u) (i : RecordIndex) (code seq : Byte) {data : List Byte}
    (hlen : data.length ≤ 56) : let t := buildResponse code seq (okay data (freeRecord i u))
    Answered s code seq .ok data t ∧ t.records[i] = Record.free ∧
      Sys2Proof.Machine.heldFrame (.request i) t = none ∧ Sys2Proof.Machine.heldFrame (.answer i) t = none ∧
      t.completions = (superseded s).completions.filter (fun j => j != i) ∧
      (∀ k ≠ i, t.records[k] = (superseded s).records[k]) ∧
      (∀ b : Branch, t.branches[b].queue = (superseded s).branches[b].queue.filter (fun j => j != i)) ∧
      CommandKept ([.records, .completions, .buffers] ++ branchParts) s t := by
  intro t
  refine ⟨h.answered code seq .ok hlen (congrArg GlobalParams.mgmtAddress (freeRecord_params i u)) ?_, ?_, ?_, ?_, ?_,
    fun k hk => ?_, fun b => ?_, h.commandKept code seq .ok data (freeRecord_sameBut i u)⟩
  · rw [heldFrame_freeRecord_other i (by simp) (by simp) (by simp)]
    exact h.assembly
  · rw [buildResponse_records]
    exact (freeRecord_records i i u).trans (if_pos rfl)
  · rw [heldFrame_buildResponse_other (by simp) (by simp) (by simp)]
    exact heldFrame_freeRecord_request i u
  · rw [heldFrame_buildResponse_other (by simp) (by simp) (by simp)]
    exact heldFrame_freeRecord_answer i u
  · rw [buildResponse_completions, ← h.completions]
    exact freeRecord_completions i u
  · rw [buildResponse_records, ← h.records]
    exact (freeRecord_records i k u).trans (if_neg hk)
  · rw [buildResponse_branches, ← h.branches]
    exact freeRecord_queue i b u

/-- The live DEFERRED record of a tag, as a command finds it (R49). -/
theorem Received.recordOfTag {s u : State} (h : Received s u) (tag : Byte) :
    Sys2Proof.Machine.recordOfTag u tag = Sys2Proof.Machine.recordOfTag s tag := by
  rw [← superseded_recordOfTag s]
  unfold Sys2Proof.Machine.recordOfTag
  rw [h.records]

/-- The record that a tag names is DEFERRED (R49). -/
theorem kind_of_recordOfTag {s : State} {tag : Byte} {i : RecordIndex} (h : recordOfTag s tag = some i) :
    s.records[i].kind = some .deferred ∧ s.records[i].state ≠ .free := by
  obtain ⟨hi, -⟩ := lowestIndex_eq_some.mp h
  simp only [Bool.and_eq_true, beq_iff_eq, bne_iff_ne] at hi
  exact ⟨hi.1.1.1, hi.1.1.2⟩

/-- A DEFERRED record and its answer are not touched by a supersede (R104). -/
theorem Received.deferred_kept {s u : State} (h : Received s u) {i : RecordIndex}
    (hi : s.records[i].kind = some .deferred) : u.records[i] = s.records[i] ∧ answerData u i = answerData s i := by
  refine ⟨?_, ?_⟩
  · rw [h.records]
    exact superseded_record_of_kind (by rw [hi]; decide)
  · have hframe : Sys2Proof.Machine.heldFrame (.answer i) u = Sys2Proof.Machine.heldFrame (.answer i) s := by
      rw [h.heldFrame (by simp) (by simp)]
      refine superseded_heldFrame s (by fin_cases i <;> decide) fun j hj => ⟨by simp, fun e => ?_⟩
      obtain rfl : i = j := by simpa using e
      obtain ⟨hkind, -⟩ := liveTransparent_kind hj
      rw [hkind] at hi
      exact absurd hi (by decide)
    unfold answerData
    rw [hframe]

/-! ### COLLECT and COLLECT_NEXT -/

/-- A piece of an answer fits a response (R68). -/
theorem pieceFrom_length (data : List Byte) (n : Nat) : (pieceFrom data n).length ≤ 48 := by
  unfold pieceFrom
  exact List.length_take_le _ _

/-- A command that frees the record that it returns when the bytes reach the end, and changes nothing else (R69). -/
theorem Received.collected {s u : State} (h : Received s u) (i : RecordIndex) (code seq : Byte) {data : List Byte}
    (hlen : data.length ≤ 56) (last : Bool) :
    let t := buildResponse code seq (okay data (if last then freeRecord i u else u))
    Answered s code seq .ok data t ∧
      (last = true → t.records[i] = Record.free ∧ Sys2Proof.Machine.heldFrame (.answer i) t = none ∧
        t.completions = (superseded s).completions.filter (fun j => j != i) ∧
        (∀ k ≠ i, t.records[k] = (superseded s).records[k]) ∧
        CommandKept ([.records, .completions, .buffers] ++ branchParts) s t) ∧
      (last = false → CommandKept [] s t) := by
  cases last with
  | true =>
    obtain ⟨hanswered, hfree, -, hanswer, hlist, hothers, -, hkept⟩ := h.freed i code seq hlen
    exact ⟨hanswered, fun _ => ⟨hfree, hanswer, hlist, hothers, hkept⟩, fun e => Bool.noConfusion e⟩
  | false =>
    obtain ⟨hanswered, hkept⟩ := h.answeredOnly code seq .ok hlen
    exact ⟨hanswered, fun e => Bool.noConfusion e, fun _ => hkept⟩

/-- Settles O38: both commands read the record as the supersede left it, and free it with its last byte. -/
theorem collectReadsAndFrees : Obligations.CollectReadsAndFrees := by
  refine ⟨fun seq tag offset s hs => ?_, fun seq offset s hs => ?_⟩
  · obtain ⟨u, hu, hexec⟩ := row_received (i := .collect seq tag offset) (c := .collect) rfl (by simp) hs (by simp)
    have hrow : exec (.collect seq tag offset) s = .next (buildResponse 0x11#8 seq (cmdCollect tag offset u)) := hexec
    refine ⟨_, hrow, ?_⟩
    unfold cmdCollect
    rw [hu.recordOfTag]
    cases hi : recordOfTag s tag with
    | none => exact hu.answeredOnly 0x11#8 seq .noSuchTag (by simp)
    | some i =>
      obtain ⟨hkind, -⟩ := kind_of_recordOfTag hi
      obtain ⟨hrecord, hdata⟩ := hu.deferred_kept hkind
      dsimp only
      rw [hdata, hrecord]
      generalize s.records[i] = r
      generalize answerData s i = data
      by_cases hended : r.state ≠ .ended
      · rw [if_pos hended, if_pos hended]
        exact hu.answeredOnly 0x11#8 seq .pending (by simp)
      · rw [if_neg hended, if_neg hended]
        by_cases hoffset : data.length < offset.toNat
        · rw [if_pos hoffset, if_pos hoffset]
          exact hu.answeredOnly 0x11#8 seq .badArgument (by simp)
        · rw [if_neg hoffset, if_neg hoffset]
          have hpiece := pieceFrom_length data offset.toNat
          exact hu.collected i 0x11#8 seq (by simp; omega) (reachesEnd data offset.toNat)
  · obtain ⟨u, hu, hexec⟩ := row_received (i := .collectNext seq offset) (c := .collectNext) rfl (by simp) hs (by simp)
    have hrow : exec (.collectNext seq offset) s = .next (buildResponse 0x12#8 seq (cmdCollectNext offset u)) := hexec
    refine ⟨_, hrow, ?_⟩
    unfold cmdCollectNext
    by_cases hoffset : offset ≠ 0x00#8
    · rw [if_pos hoffset, if_pos hoffset]
      exact hu.answeredOnly 0x12#8 seq .badArgument (by simp)
    · rw [if_neg hoffset, if_neg hoffset, hu.completions]
      cases hlist : (superseded s).completions with
      | nil => exact hu.answeredOnly 0x12#8 seq .nothingReady (by simp)
      | cons i rest =>
        have hanswer : answerData u i = answerData (superseded s) i := by
          unfold answerData
          rw [hu.heldFrame (by simp) (by simp)]
        dsimp only
        rw [hanswer, hu.records]
        generalize (superseded s).records[i] = r
        generalize answerData (superseded s) i = data
        have hpiece := pieceFrom_length data 0
        have hlast : reachesEnd data 0 = decide (data.length ≤ 48) := by
          unfold reachesEnd pieceFrom
          rw [List.drop_zero, List.length_take, Nat.zero_add]
          by_cases hlen : data.length ≤ 48
          · rw [decide_eq_true hlen, beq_iff_eq, Nat.min_eq_right hlen]
          · rw [decide_eq_false hlen, beq_eq_false_iff_ne, Nat.min_eq_left (by show 48 ≤ _; omega)]
            show 48 ≠ _
            omega
        rw [hlast]
        have hlen : ([r.tag.getD 0, r.trunkAddress.getD 0, outcomeOf r, byteOfNat r.attempts, byteOfNat data.length,
            boolByte (decide (data.length ≤ 48))] ++ pieceFrom data 0).length ≤ 56 := by
          rw [List.length_append]
          exact (Nat.add_le_add_left hpiece 6).trans (by decide)
        have hcollected := hu.collected i 0x12#8 seq hlen (decide (data.length ≤ 48))
        rw [hlist] at hcollected
        exact hcollected

/-! ### CANCEL -/

/-- Settles O39: the record that a tag names is withdrawn, marked or discarded by its state. -/
theorem cancelActsByState : Obligations.CancelActsByState := by
  intro seq tag s hs
  obtain ⟨u, hu, hexec⟩ := row_received (i := .cancel seq tag) (c := .cancel) rfl (by simp) hs (by simp)
  have hrow : exec (.cancel seq tag) s = .next (buildResponse 0x13#8 seq (cmdCancel tag u)) := hexec
  refine ⟨_, hrow, ?_⟩
  unfold cmdCancel
  rw [hu.recordOfTag]
  cases hi : recordOfTag s tag with
  | none => exact hu.answeredOnly 0x13#8 seq .noSuchTag (by simp)
  | some i =>
    obtain ⟨hkind, -⟩ := kind_of_recordOfTag hi
    obtain ⟨hrecord, -⟩ := hu.deferred_kept hkind
    dsimp only
    rw [hrecord]
    cases hstate : s.records[i].state with
    | onLine =>
      have hkept := modifyRecord_sameBut i (fun r => { r with cancelPending := true }) u
      obtain ⟨hanswered, hcommand⟩ :=
        hu.effect hkept (by decide) (by decide) 0x13#8 seq .ok (data := [0x02#8]) (by simp)
      refine ⟨fun k hk => ?_, fun _ => ⟨hanswered, ?_, hcommand⟩, fun h => by rcases h with h | h <;> cases h⟩
      · rw [buildResponse_records, ← hu.records]
        exact modifyRecord_other i hk _ u
      · rw [buildResponse_records]
        refine (modifyRecord_same i (fun r => { r with cancelPending := true }) u).trans ?_
        rw [hrecord, ← hstate]
    | queued =>
      obtain ⟨hanswered, hfree, hrequest, hanswer, hlist, hothers, hqueues, hkept⟩ :=
        hu.freed i 0x13#8 seq (data := [0x01#8]) (by simp)
      exact ⟨hothers, nofun, fun _ => ⟨hanswered, hfree, hrequest, hanswer, hlist, hqueues, hkept⟩⟩
    | ended =>
      obtain ⟨hanswered, hfree, hrequest, hanswer, hlist, hothers, hqueues, hkept⟩ :=
        hu.freed i 0x13#8 seq (data := [0x03#8]) (by simp)
      exact ⟨hothers, nofun, fun _ => ⟨hanswered, hfree, hrequest, hanswer, hlist, hqueues, hkept⟩⟩
    | free | delivering =>
      obtain ⟨-, -, -, -, -, hothers, -, -⟩ := hu.freed i 0x13#8 seq (data := [0x03#8]) (by simp)
      exact ⟨hothers, nofun, fun h => by rcases h with h | h <;> cases h⟩

end Sys2Proof.Machine
end

section
/-!
Settlement of the statement about SUBMIT (sections 2.3, 3.4 and 9.5).
-/

namespace Sys2Proof.Machine

-- The gate's memory limit counts every thread's arena, so the declarations are elaborated one after another.
set_option Elab.async false

/-! ### What SUBMIT finds -/

/-- The free count under the traces of a frame: the buffer that it claimed is no longer free (R118). -/
theorem Traces.over_freeCount {p : Traces} {v : State} (hv : p.fits v) :
    freeCount (p.over v) = if p.claimed.isNone then freeCount v else freeCount v - 1 := by
  unfold freeCount
  cases hc : p.claimed with
  | none =>
    rw [countP_table, countP_table]
    refine List.countP_congr fun i _ => ?_
    rw [Traces.over_buffers, hc]
    generalize v.buffers[i] = c
    by_cases ht : c.holder = .trunkAssembly <;> simp [ht]
  | some i =>
    have hfree := hv i hc
    have hcount := countP_updateAt (fun c : Buffer => c.holder == .free) v.buffers i
      { holder := .trunkAssembly, chars := p.chars } (by rw [hfree]; rfl) rfl
    refine Eq.trans ?_ hcount
    rw [countP_table, countP_table]
    refine List.countP_congr fun k _ => ?_
    rw [Traces.over_buffers, hc, updateAt_get]
    by_cases hk : k = i
    · simp [hk]
    · have hki : ¬ i = k := fun h => hk h.symm
      generalize v.buffers[k] = c
      by_cases ht : c.holder = .trunkAssembly <;> simp [hk, hki, ht]

/-- The free count that a command finds (R118). -/
theorem Received.freeCount {s u : State} (h : Received s u) : Sys2Proof.Machine.freeCount u =
    if storing .trunk s then Sys2Proof.Machine.freeCount (superseded s)
    else Sys2Proof.Machine.freeCount (superseded s) - 1 := by
  obtain ⟨p, rfl, hfit, -, hclaim, -⟩ := h
  rw [Traces.over_freeCount hfit, hclaim]

/-- The lookup of a command finds what the banks held before its frame. -/
theorem Received.lookup {s u : State} (h : Received s u) (a : Byte) :
    Sys2Proof.Machine.lookup u a = Sys2Proof.Machine.lookup s a := by
  unfold Sys2Proof.Machine.lookup
  rw [h.activeBank, h.bank]

/-- The entries of the active bank, as a command finds them. -/
theorem Received.activeEntry {s u : State} (h : Received s u) (j : Fin Config.entryCount) :
    Sys2Proof.Machine.activeEntry u j = Sys2Proof.Machine.activeEntry s j := by
  unfold Sys2Proof.Machine.activeEntry
  rw [h.activeBank, h.bank]

/-- A branch as a command finds it, but for its queue and STALLED. -/
theorem Received.branch_eq {s u : State} (h : Received s u) (b : Branch) : u.branches[b] =
    { s.branches[b] with queue := u.branches[b].queue, stalled := u.branches[b].stalled } := by
  rw [h.branches]
  exact (superseded_branch s b).eq

/-- The tag that SUBMIT issues is the one that the counter and the records name before its frame (R48). -/
theorem issuedTag_congr {s t : State} (hc : t.tagCounter = s.tagCounter) (hh : ∀ x, tagHeld t x = tagHeld s x) :
    issuedTag t = issuedTag s := by
  have hfrom : ∀ n x, freeTagFrom t n x = freeTagFrom s n x := by
    intro n
    induction n with
    | zero => exact fun _ => rfl
    | succ n ih =>
      intro x
      unfold freeTagFrom
      rw [hh, ih]
  unfold issuedTag
  rw [hc, hfrom]

/-- A count of FREE records of two at least leaves a lowest one (R44). -/
theorem lowestFreeRecord_of_freeRecords {s : State} (h : freeRecords s ≠ 0) : ∃ i, lowestFreeRecord s = some i := by
  cases hi : lowestFreeRecord s with
  | some i => exact ⟨i, rfl⟩
  | none =>
    refine absurd ?_ h
    unfold freeRecords
    rw [countP_table, List.countP_eq_zero]
    intro i _
    rw [lowestIndex_eq_none.mp hi i]
    exact Bool.false_ne_true

/-! ### A hit and a refusal -/

/-- A selection touches the active bank alone. -/
theorem hitEntry_sameBut (j : Fin Config.entryCount) (s : State) : SameBut [bankPart s.activeBank] s (hitEntry j s) :=
  modifyEntry_sameBut s.activeBank j _ s

/-- A part whose active bank is that of `s` with one hit counted, or none (R27). -/
theorem hitCounted_of_entries {s t : State} {selected : Option (Fin Config.entryCount)}
    (h : t.bank s.activeBank = match selected with
      | some j => (hitEntry j s).bank s.activeBank
      | none => s.bank s.activeBank) : hitCounted s selected t := by
  intro j
  rw [h]
  cases selected with
  | none => rw [if_neg (by simp)]
  | some k =>
    refine (modifyEntry_bank s.activeBank k j _ s).trans ?_
    by_cases hj : j = k
    · rw [if_pos hj, if_pos (by rw [hj])]
    · rw [if_neg hj, if_neg (by simpa using fun e => hj e.symm)]

/-- The active bank once a command has counted a hit of its entry. -/
theorem Received.hitEntry_bank {s u : State} (h : Received s u) (j : Fin Config.entryCount) :
    (hitEntry j u).bank s.activeBank = (hitEntry j s).bank s.activeBank := by
  refine table_ext fun i => ?_
  unfold hitEntry
  rw [h.activeBank, modifyEntry_bank, modifyEntry_bank, h.bank]

/-- A counted refusal touches the trunk and the flags alone (R169). -/
theorem refuseCounted_sameBut (r : ResultCode) (s : State) : SameBut [.trunk, .flags] s (refuseCounted r s).state :=
  (SameBut.trans_append (modifyTrunk_sameBut _ s) (raise_sameBut .refused _)).mono (by decide)

/-- A refusal of SUBMIT that is counted, on a part with an entry hit or none (R169). -/
theorem Received.submitRefused {s u v : State} (h : Received s u) (seq : Byte) (r : ResultCode)
    (hv : SameBut [bankPart s.activeBank] u v) :
    SubmitRefused s seq r (buildResponse 0x10#8 seq (refuseCounted r v)) := by
  have hkept := SameBut.trans_append hv (refuseCounted_sameBut r v)
  obtain ⟨hanswered, hcommand⟩ := h.effect hkept (by cases s.activeBank <;> decide) (by cases s.activeBank <;> decide)
    0x10#8 seq r (data := []) (by simp)
  refine ⟨hanswered, hcommand, ?_, ?_⟩
  · rw [buildResponse_counters]
    show countUp v.trunk.counters.refused = _
    have htrunk : v.trunk = u.trunk := hv.2 .trunk (by decide) (by cases s.activeBank <;> decide)
    rw [htrunk, h.trunk.1, superseded_counters]
  · unfold flagSet
    rw [buildResponse_flags]
    exact flagSet_raise_same .refused _

/-! ### An accepted SUBMIT -/

/-- A command whose effect keeps the flags but for those of reception. -/
theorem CommandKept.of_flags {s t : State} {except : List Part} (h : CommandKept (except ++ [.flags]) s t)
    (hflags : t.flags ||| receiptFlags = s.flags ||| receiptFlags) : CommandKept except s t := by
  obtain ⟨hsame, hparams, -, hframes, htrunk⟩ := h
  have hmem : ∀ {q : Part}, q ≠ .flags → q ∉ except → q ∉ except ++ [.flags] := by
    intro q hq hn hm
    rcases List.mem_append.mp hm with hm | hm
    · exact hn hm
    · exact hq (List.mem_singleton.mp hm)
  refine ⟨hsame.mono fun q hq => ?_, fun hn => hparams (hmem (by decide) hn), fun _ => hflags,
    fun hn => hframes (hmem (by decide) hn), fun hn => htrunk (hmem (by decide) hn)⟩
  rcases List.mem_append.mp hq with hq | hq
  · rcases List.mem_append.mp hq with hq | hq
    · exact List.mem_append_left _ hq
    · rw [List.mem_singleton.mp hq]
      exact List.mem_append_right _ (by decide)
  · exact List.mem_append_right _ hq

/-- The response moves no buffer of another block (R125). -/
theorem buildResponse_buffer {code seq : Byte} {r : Reply} {n : Fin Config.bufferCount}
    (ha : r.state.buffers[n].holder ≠ .trunkAssembly) (hl : r.state.buffers[n].holder ≠ .lastResponse) :
    (buildResponse code seq r).buffers[n] = r.state.buffers[n] := by
  have hreturned : (returnBuffer .lastResponse r.state).buffers[n] = r.state.buffers[n] := by
    rw [returnBuffer_buffers, if_neg hl]
  have htaken : (takeResponseBuffer r.state).buffers[n] = r.state.buffers[n] := by
    unfold takeResponseBuffer
    rw [handOver_buffers, hreturned, if_neg ha]
  show (writeBuffer .lastResponse _ (takeResponseBuffer r.state)).buffers[n] = _
  rw [writeBuffer_buffers, htaken, if_neg hl]

/-- What an accepted SUBMIT makes of the part, as one update (R48, R52, R123). -/
theorem createDeferred_eq (i : RecordIndex) (a : Byte) (data : List Byte) (e : RouteEntry) {s : State}
    (hfree : 0 < freeCount s) : ∃ n, s.buffers[n].holder = .free ∧ createDeferred i a data e s =
      { modifyBranch (stationBranch e) (fun x => { x with queue := x.queue ++ [i] }) s with
        records := updateAt s.records i fun _ =>
          deferredRecord (issuedTag s) a (outgoing e a) (stationBranch e) e.retries
        tagCounter := nextTag (issuedTag s)
        buffers := updateAt s.buffers n fun _ => { holder := .request i, chars := mkFrame a data }
        flags := claimedFlags s } := by
  obtain ⟨n, -, hn, hclaim⟩ := claimBuffer_eq hfree (h := .request i) (by simp) (mkFrame a data)
  refine ⟨n, hn, ?_⟩
  unfold createDeferred
  rw [hclaim]
  rfl

/-- The pieces of the part that an accepted SUBMIT can touch (R48, R52, R123). -/
theorem createDeferred_sameBut (i : RecordIndex) (a : Byte) (data : List Byte) (e : RouteEntry) {s : State}
    (hfree : 0 < freeCount s) :
    SameBut ([.records, .tagCounter, .buffers] ++ branchParts ++ [.flags]) s (createDeferred i a data e s) := by
  obtain ⟨n, -, heq⟩ := createDeferred_eq i a data e hfree
  rw [heq]
  refine ⟨rfl, fun q _ hq => ?_⟩
  cases q with
  | records | tagCounter | buffers | flags => exact absurd (by decide) hq
  | branch b => exact absurd (by fin_cases b <;> decide) hq
  | pins => exact ⟨rfl, rfl, rfl⟩
  | lastCommand => exact ⟨rfl, rfl⟩
  | _ => rfl

/-- What an accepted SUBMIT answers, and what it leaves of the part with a hit counted (R48, R52, R123). -/
theorem Received.submitted {s u w : State} (h : Received s u) (hw : SameBut [bankPart s.activeBank] u w) (seq a : Byte)
    (data : List Byte) (e : RouteEntry) {i : RecordIndex} (hfree : 0 < Sys2Proof.Machine.freeCount w) :
    let b := stationBranch e
    let t := buildResponse 0x10#8 seq (okay [issuedTag w, branchCode b] (createDeferred i a data e w))
    Answered s 0x10#8 seq .ok [issuedTag w, BitVec.ofNat 8 b.val] t ∧ t.tagCounter = nextTag (issuedTag w) ∧
      (∀ d : Branch, t.branches[d] = { (superseded s).branches[d] with
        queue := if d = b then (superseded s).branches[d].queue ++ [i] else (superseded s).branches[d].queue }) ∧
      holdsFrame (.request i) (mkFrame a data) t ∧
      t.records[i] = deferredRecord (issuedTag w) a (outgoing e a) b e.retries ∧
      (∀ k ≠ i, t.records[k] = (superseded s).records[k]) ∧
      CommandKept ([bankPart s.activeBank, .records, .tagCounter, .buffers] ++ branchParts) s t := by
  intro b t
  obtain ⟨n, hn, heq⟩ := createDeferred_eq i a data e hfree
  have hkept := SameBut.trans_append hw (createDeferred_sameBut i a data e hfree)
  have hbuffers : w.buffers = u.buffers := hw.2 .buffers (by decide) (by cases s.activeBank <;> decide)
  have hrecords : w.records = (superseded s).records :=
    (hw.2 .records (by decide) (by cases s.activeBank <;> decide)).trans h.records
  have hbranches : ∀ d : Branch, w.branches[d] = (superseded s).branches[d] := fun d =>
    (hw.2 (.branch d) (by fin_cases d <;> decide) (by cases s.activeBank <;> simp [bankPart])).trans (h.branches d)
  have hflags : w.flags = u.flags := hw.2 .flags (by decide) (by cases s.activeBank <;> decide)
  have hheld : (Sys2Proof.Machine.heldFrame .trunkAssembly (createDeferred i a data e w)).isSome = true := by
    show (Sys2Proof.Machine.heldFrame .trunkAssembly (claimBuffer (.request i) (mkFrame a data) w)).isSome = true
    rw [heldFrame_claimBuffer_other (by simp) (by simp), heldFrame_of_buffers hbuffers]
    exact h.assembly
  have hmgmt : (createDeferred i a data e w).params.mgmtAddress = u.params.mgmtAddress := by
    have hparams := hkept.2 .params (by decide) (by cases s.activeBank <;> decide)
    exact congrArg GlobalParams.mgmtAddress hparams
  have hcommand := h.commandKept 0x10#8 seq .ok [issuedTag w, branchCode b] hkept
  refine ⟨h.answered 0x10#8 seq .ok (by simp) hmgmt hheld, ?_, fun d => ?_, ⟨n, ?_⟩, ?_, fun k hk => ?_,
    CommandKept.of_flags hcommand ?_⟩
  · show (buildResponse _ _ _).tagCounter = _
    rw [buildResponse_tagCounter]
    show (createDeferred i a data e w).tagCounter = _
    rw [heq]
  · show (buildResponse _ _ _).branches[d] = _
    rw [buildResponse_branches]
    show (createDeferred i a data e w).branches[d] = _
    rw [heq]
    show (modifyBranch b (fun x => { x with queue := x.queue ++ [i] }) w).branches[d] = _
    rw [← hbranches]
    by_cases hd : d = b
    · rw [hd, if_pos rfl]
      exact modifyBranch_same b _ w
    · rw [if_neg hd]
      exact modifyBranch_other hd _ w
  · have hbuffer : (createDeferred i a data e w).buffers[n] = { holder := .request i, chars := mkFrame a data } := by
      rw [heq]
      exact updateAt_same _ _ _
    have hresponse := buildResponse_buffer (code := 0x10#8) (seq := seq) (n := n)
      (r := okay [issuedTag w, branchCode b] (createDeferred i a data e w))
      (by show (createDeferred i a data e w).buffers[n].holder ≠ _; rw [hbuffer]; simp)
      (by show (createDeferred i a data e w).buffers[n].holder ≠ _; rw [hbuffer]; simp)
    exact hresponse.trans hbuffer
  · show (buildResponse _ _ _).records[i] = _
    rw [buildResponse_records]
    show (createDeferred i a data e w).records[i] = _
    rw [heq]
    exact updateAt_same _ _ _
  · show (buildResponse _ _ _).records[k] = _
    rw [buildResponse_records, ← hrecords]
    show (createDeferred i a data e w).records[k] = _
    rw [heq]
    exact updateAt_other _ _ hk
  · show (buildResponse _ _ _).flags ||| _ = _
    rw [buildResponse_flags, ← h.flags, ← hflags]
    show (createDeferred i a data e w).flags ||| _ = _
    rw [heq]
    obtain ⟨f, hf, hreceipt⟩ := claimedFlags_trace w
    show claimedFlags w ||| _ = _
    rw [hf, BitVec.or_assoc, hreceipt]

/-! ### SUBMIT -/

/-- SUBMIT leaves the banks once a hit has been counted (R169). -/
theorem submitThrough_bank (a : Byte) (data : List Byte) (e : RouteEntry) (s : State) (k : Bank) :
    (submitThrough a data e s).state.bank k = s.bank k := by
  have hcreated : ∀ i, (createDeferred i a data e s).bank k = s.bank k := by
    intro i
    cases k
    · exact claimBuffer_bankA _ _ s
    · exact claimBuffer_bankB _ _ s
  unfold submitThrough
  dsimp only
  repeat' split
  all_goals first | rfl | exact hcreated _

/-- Settles O36: the checks of SUBMIT in order, each on the part that its frame has superseded. -/
theorem submitChecksAndCreates : Obligations.SubmitChecksAndCreates := by
  intro seq a data s hlen hs v left
  obtain ⟨u, hu, hexec⟩ := row_received (i := .submit seq a data) (c := .submit) (args := a :: data) rfl (by simp) hs
    (by simpa using hlen)
  have hrow : exec (.submit seq a data) s = .next (buildResponse 0x10#8 seq (cmdSubmit a data u)) := hexec
  have hmgmt : u.params.mgmtAddress = settledAddress s := by rw [hu.params, superseded_mgmtAddress]
  refine ⟨_, hrow, ?_⟩
  unfold cmdSubmit
  rw [hmgmt, hu.lookup]
  by_cases haddress : isStationAddress a = false ∨ a = settledAddress s
  · rw [if_pos haddress, if_pos (by simpa using haddress)]
    exact hu.answeredOnly 0x10#8 seq .badArgument (by simp)
  rw [if_neg haddress, if_neg (by simpa using haddress)]
  cases hj : lookup s a with
  | none =>
    have hrefused := hu.submitRefused seq .noRoute (SameBut.refl _ u)
    refine ⟨hrefused, hitCounted_of_entries ?_⟩
    rw [buildResponse_bank]
    exact hu.bank s.activeBank
  | some j =>
    dsimp only
    rw [hu.activeEntry]
    have hw : SameBut [bankPart s.activeBank] u (hitEntry j u) := by
      rw [← hu.activeBank]
      exact hitEntry_sameBut j u
    have hrecords : (hitEntry j u).records = v.records :=
      (hw.2 .records (by decide) (by cases s.activeBank <;> decide)).trans hu.records
    have hbuffers : (hitEntry j u).buffers = u.buffers := hw.2 .buffers (by decide) (by cases s.activeBank <;> decide)
    have hparams : (hitEntry j u).params = u.params := hw.2 .params (by decide) (by cases s.activeBank <;> decide)
    have hbranch : (hitEntry j u).branches[(stationBranch (activeEntry s j))] =
        { s.branches[(stationBranch (activeEntry s j))] with
          queue := u.branches[(stationBranch (activeEntry s j))].queue
          stalled := u.branches[(stationBranch (activeEntry s j))].stalled } :=
      (hw.2 (.branch (stationBranch (activeEntry s j)))
        (by generalize (stationBranch (activeEntry s j)) = d; fin_cases d <;> decide)
        (by cases s.activeBank <;> simp [bankPart])).trans (hu.branch_eq (stationBranch (activeEntry s j)))
    have hservice : inService (hitEntry j u) (stationBranch (activeEntry s j)) =
        inService s (stationBranch (activeEntry s j)) := by
      unfold inService
      rw [hbranch]
    have hlimit : (hitEntry j u).branches[(stationBranch (activeEntry s j))].queueLimit =
        s.branches[(stationBranch (activeEntry s j))].queueLimit := by rw [hbranch]
    have hdeferred : deferredCount (hitEntry j u) (stationBranch (activeEntry s j)) =
        deferredCount s (stationBranch (activeEntry s j)) := by
      rw [← hu.deferredCount]
      unfold deferredCount
      rw [hrecords, ← hu.records]
    have hfreeRecords : freeRecords (hitEntry j u) = freeRecords v := by
      unfold freeRecords
      rw [hrecords]
    have hlowest : lowestFreeRecord (hitEntry j u) = lowestFreeRecord v := by
      unfold lowestFreeRecord
      rw [hrecords]
    have hcount : freeCount (hitEntry j u) = left := by
      have hsame : freeCount (hitEntry j u) = freeCount u := by
        unfold freeCount
        rw [hbuffers]
      rw [hsame, hu.freeCount]
    have hreserve : (hitEntry j u).params.trunkReserve = s.params.trunkReserve := by
      rw [hparams, hu.params, superseded_params]
    have htag : issuedTag (hitEntry j u) = issuedTag s := by
      refine issuedTag_congr ?_ fun x => ?_
      · exact (hw.2 .tagCounter (by decide) (by cases s.activeBank <;> decide)).trans
          (hu.tagCounter.trans (superseded_tagCounter s))
      · rw [← superseded_tagHeld s]
        unfold tagHeld
        rw [hrecords]
    refine ⟨hitCounted_of_entries ?_, ?_⟩
    · rw [buildResponse_bank, submitThrough_bank]
      exact hu.hitEntry_bank j
    unfold submitThrough
    dsimp only
    rw [hservice, hlimit, hdeferred, hfreeRecords, hlowest]
    by_cases hmode : (activeEntry s j).mode = .block
    · rw [if_pos hmode, if_pos hmode]
      exact hu.submitRefused seq .routeBlocked hw
    rw [if_neg hmode, if_neg hmode]
    by_cases hvoid : outgoing (activeEntry s j) a = 0x00#8
    · rw [if_pos hvoid, if_pos (show outgoing (activeEntry s j) a = voidAddress from hvoid)]
      exact hu.effect hw (by cases s.activeBank <;> decide) (by cases s.activeBank <;> decide) 0x10#8 seq .badArgument
        (by simp)
    rw [if_neg hvoid, if_neg (show ¬ outgoing (activeEntry s j) a = voidAddress from hvoid)]
    by_cases hoff : inService s (stationBranch (activeEntry s j)) = false
    · rw [if_pos hoff, if_pos (show (!inService s (stationBranch (activeEntry s j))) = true by rw [hoff]; rfl)]
      exact hu.submitRefused seq .branchOff hw
    rw [if_neg hoff, if_neg (show ¬ (!inService s (stationBranch (activeEntry s j))) = true by simpa using hoff)]
    by_cases hfull : s.branches[(stationBranch (activeEntry s j))].queueLimit ≤
        deferredCount s (stationBranch (activeEntry s j))
    · rw [if_pos hfull, if_pos hfull]
      exact hu.submitRefused seq .queueFull hw
    rw [if_neg hfull, if_neg hfull]
    by_cases htable : freeRecords v < 2
    · rw [if_pos htable, if_pos htable]
      exact hu.submitRefused seq .tableFull hw
    rw [if_neg htable, if_neg htable]
    have hgate : gateOpen (hitEntry j u) = true ↔ ¬ left ≤ s.params.trunkReserve := by
      unfold gateOpen
      rw [hcount, hreserve, decide_eq_true_iff, Nat.not_le]
    by_cases hbuffer : left ≤ s.params.trunkReserve
    · rw [if_pos hbuffer, if_pos (by simpa using fun h => hgate.mp h hbuffer)]
      exact hu.submitRefused seq .noBuffer hw
    rw [if_neg hbuffer, if_neg (by simpa using hgate.mpr hbuffer)]
    obtain ⟨i, hi⟩ := lowestFreeRecord_of_freeRecords (s := v) (by omega)
    rw [hi]
    obtain ⟨hanswered, htagCounter, hqueues, hholds, hrecord, hothers, hkept⟩ :=
      hu.submitted hw seq a data (activeEntry s j) (i := i) (by rw [hcount]; omega)
    rw [htag] at hanswered htagCounter hqueues hholds hrecord hothers hkept
    dsimp only
    rw [htag]
    exact ⟨hanswered, htagCounter, hqueues, ⟨i, rfl, hholds, hrecord, hothers⟩, hkept⟩

end Sys2Proof.Machine
end

section
/-!
Settlement of the statements about the commands that change a poll slot (sections 7.5 and 9.6).
-/

namespace Sys2Proof.Machine

-- The gate's memory limit counts every thread's arena, so the declarations are elaborated one after another.
set_option Elab.async false

/-! ### What the slot commands touch -/

/-- A branch argument that names none (section 10.4). -/
theorem branchOf_eq_none {c : Byte} : branchOf c = none ↔ 4 ≤ c.toNat := by
  unfold branchOf indexOf
  constructor
  · intro h
    split at h
    · cases h
    · rename_i hlt
      exact Nat.not_lt.mp hlt
  · intro h
    rw [dif_neg (by show ¬ c.toNat < 4; omega)]

/-- A branch argument that names a branch (section 10.4). -/
theorem branchOf_eq_some {c : Byte} {b : Branch} : branchOf c = some b ↔ b.val = c.toNat := by
  unfold branchOf indexOf
  constructor
  · intro h
    split at h
    · rw [← Option.some.inj h]
    · cases h
  · intro h
    have hlt : c.toNat < Config.branchCount := h ▸ b.isLt
    rw [dif_pos hlt]
    exact congrArg some (Fin.ext h.symm)

/-- A change of a slot alone. -/
theorem modifySlot_sameBut (k : SlotIndex) (f : Slot → Slot) (s : State) : SameBut [.slots] s (modifySlot k f s) :=
  ⟨rfl, fun q _ hq => by
    cases q with
    | slots => exact absurd (by decide) hq
    | pins => exact ⟨rfl, rfl, rfl⟩
    | lastCommand => exact ⟨rfl, rfl⟩
    | _ => rfl⟩

/-- A change of one slot leaves every other. -/
theorem modifySlot_other {i k : SlotIndex} (h : i ≠ k) (f : Slot → Slot) (s : State) :
    (modifySlot k f s).slots[i] = s.slots[i] := updateAt_other s.slots f h

/-- A change of the pool alone. -/
theorem returnBuffer_sameBut (h : Holder) (s : State) : SameBut [.buffers] s (returnBuffer h s) :=
  ⟨rfl, fun q _ hq => by
    cases q with
    | buffers => exact absurd (by decide) hq
    | pins => exact ⟨rfl, rfl, rfl⟩
    | lastCommand => exact ⟨rfl, rfl⟩
    | _ => rfl⟩

/-- The snapshot of a slot is discarded with nothing but the slot and the pool touched (R136). -/
theorem discardSnapshot_sameBut (k : SlotIndex) (s : State) : SameBut [.slots, .buffers] s (discardSnapshot k s) :=
  (SameBut.trans_append (returnBuffer_sameBut (.snapshot k) s) (modifySlot_sameBut k _ _)).mono (by decide)

/-- A slot whose snapshot has been discarded (R136). -/
theorem discardSnapshot_slot (k : SlotIndex) (s : State) : (discardSnapshot k s).slots[k] =
    { s.slots[k] with seq := 0, age := none, misses := 0, overruns := 0 } := modifySlot_same k _ _

/-! ### POLL_SET -/

/-- The checks of POLL_SET on address, period and template (R139). -/
theorem pollConfigValid_iff {a : Byte} {period : Word} {template : List Byte} :
    pollConfigValid a period template = true ↔
    ¬ (isStationAddress a = false ∨ period.toNat < 10 ∨ 60000 < period.toNat ∨ 16 < template.length) := by
  unfold pollConfigValid
  simp only [Bool.and_eq_true, decide_eq_true_eq, not_or, Bool.not_eq_false, Nat.not_lt, and_assoc]

/-- A slot written anew without its snapshot: what the command answers and what it leaves (R139, R140). -/
theorem Received.slotWritten {s u : State} (h : Received s u) (seq : Byte) {slot : Byte} {k : SlotIndex}
    (hk : k.val = slot.toNat) (f : Slot → Slot) :
    let t := buildResponse 0x18#8 seq (slotReply k (modifySlot k f (discardSnapshot k u)))
    let y := f { s.slots[k] with seq := 0, age := none, misses := 0, overruns := 0 }
    Answered s 0x18#8 seq .ok [slot, slotStateByte y.state] t ∧ t.slots[k] = y ∧
      Sys2Proof.Machine.heldFrame (.snapshot k) t = none ∧ (∀ i ≠ k, t.slots[i] = s.slots[i]) ∧
      CommandKept [.slots, .buffers] s t := by
  intro t y
  have hkept : SameBut [.slots, .buffers] u (modifySlot k f (discardSnapshot k u)) :=
    (discardSnapshot_sameBut k u).trans ((modifySlot_sameBut k f _).mono (by decide))
  have hslot : (modifySlot k f (discardSnapshot k u)).slots[k] = y := by
    rw [modifySlot_same, discardSnapshot_slot, h.slot]
  have hreply : slotReply k (modifySlot k f (discardSnapshot k u)) =
      okay [slot, slotStateByte y.state] (modifySlot k f (discardSnapshot k u)) := by
    unfold slotReply
    rw [hslot, byteOfNat_of_toNat hk]
  have hframes : ∀ g, Sys2Proof.Machine.heldFrame g (modifySlot k f (discardSnapshot k u)) =
      Sys2Proof.Machine.heldFrame g (returnBuffer (.snapshot k) u) := fun g => heldFrame_of_buffers rfl g
  have ht : t = buildResponse 0x18#8 seq (okay [slot, slotStateByte y.state] (modifySlot k f (discardSnapshot k u))) :=
    congrArg (buildResponse 0x18#8 seq) hreply
  rw [ht]
  refine ⟨h.answered 0x18#8 seq .ok (by simp) (congrArg GlobalParams.mgmtAddress
    (hkept.2 .params (by decide) (by decide))) ?_, ?_, ?_, fun i hi => ?_, h.commandKept 0x18#8 seq .ok _ hkept⟩
  · rw [hframes, heldFrame_returnBuffer_other (by simp) (by simp)]
    exact h.assembly
  · rw [buildResponse_slots]
    exact hslot
  · rw [heldFrame_buildResponse_other (by simp) (by simp) (by simp)]
    exact (hframes _).trans (heldFrame_returnBuffer_same (by simp) u)
  · rw [buildResponse_slots, ← h.slot]
    exact (modifySlot_other hi f _).trans (modifySlot_other hi _ _)

/-- Settles O40: the checks of both forms in order, and the slot that each leaves. -/
theorem pollSetConfigures : Obligations.PollSetConfigures := by
  intro seq slot branch a period template s htemplate hs
  refine ⟨?_, ?_⟩
  · obtain ⟨u, hu, hexec⟩ := row_received (i := .pollSet seq slot branch a period template) (c := .pollSet)
      (args := [slot, branch, a] ++ bytesOfWord period ++ template) rfl (by simp) hs
      (by simp [bytesOfWord]; omega)
    have hrun : runNamed .pollSet ([slot, branch, a] ++ bytesOfWord period ++ template) u =
        cmdPollSet slot branch a period template u :=
      congrArg (cmdPollSet slot branch a · template u) (wordOfBytes_bytes period)
    rw [hrun] at hexec
    refine ⟨_, hexec, ?_⟩
    unfold cmdPollSet
    by_cases hslot : 8 ≤ slot.toNat
    · rw [if_pos hslot, slotOf_eq_none.mpr hslot]
      exact hu.answeredOnly _ seq .badArgument (by simp)
    rw [if_neg hslot]
    intro k hk
    rw [slotOf_eq_some.mpr hk]
    dsimp only
    rw [hu.slot]
    by_cases hrunning : s.slots[k].state.running = true
    · rw [if_pos hrunning, if_pos hrunning]
      exact hu.answeredOnly _ seq .slotActive (by simp)
    rw [if_neg hrunning, if_neg hrunning]
    by_cases hbranch : 4 ≤ branch.toNat
    · rw [if_pos (.inl hbranch), branchOf_eq_none.mpr hbranch]
      exact hu.answeredOnly _ seq .badArgument (by simp)
    rw [branchOf_eq_some (b := ⟨branch.toNat, Nat.not_le.mp hbranch⟩).mpr rfl]
    dsimp only
    by_cases hvalid : pollConfigValid a period template = true
    · have hchecks := pollConfigValid_iff.mp hvalid
      rw [if_neg (show ¬ (!pollConfigValid a period template) = true by rw [hvalid]; exact Bool.noConfusion),
        if_neg (not_or.mpr ⟨hbranch, hchecks⟩)]
      intro b hb
      obtain rfl : (⟨branch.toNat, Nat.not_le.mp hbranch⟩ : Branch) = b := Fin.ext hb.symm
      exact hu.slotWritten seq hk _
    · have hchecks := not_not.mp (mt pollConfigValid_iff.mpr hvalid)
      rw [if_pos (show (!pollConfigValid a period template) = true by simpa using hvalid), if_pos (.inr hchecks)]
      exact hu.answeredOnly _ seq .badArgument (by simp)
  · obtain ⟨u, hu, hexec⟩ := row_received (i := .pollSetUnset seq slot) (c := .pollSet) rfl (by simp) hs (by simp)
    have hrow : exec (.pollSetUnset seq slot) s = .next (buildResponse 0x18#8 seq (cmdPollSetUnset slot u)) := hexec
    refine ⟨_, hrow, ?_⟩
    unfold cmdPollSetUnset
    by_cases hslot : 8 ≤ slot.toNat
    · rw [if_pos hslot, slotOf_eq_none.mpr hslot]
      exact hu.answeredOnly 0x18#8 seq .badArgument (by simp)
    rw [if_neg hslot]
    intro k hk
    rw [slotOf_eq_some.mpr hk]
    dsimp only
    rw [hu.slot]
    by_cases hrunning : s.slots[k].state.running = true
    · rw [if_pos hrunning, if_pos hrunning]
      exact hu.answeredOnly 0x18#8 seq .slotActive (by simp)
    rw [if_neg hrunning, if_neg hrunning]
    exact hu.slotWritten seq hk _

/-! ### POLL_START -/

/-- Two changes of one slot are one. -/
theorem modifySlot_modifySlot (k : SlotIndex) (f g : Slot → Slot) (s : State) :
    modifySlot k f (modifySlot k g s) = modifySlot k (fun x => f (g x)) s := by
  unfold modifySlot
  dsimp only
  rw [updateAt_updateAt]

/-- The expiry of an ARMED slot, as one update of the part (R132, R133). -/
theorem slotExpire_of_armed {s : State} {k : SlotIndex} {c : SlotConfig} (hc : s.slots[k].config = some c)
    (ha : s.slots[k].state = .armed) : slotExpire k s = if inService s c.branch then
        modifySlot k (fun x => { x with state := .due, countdown := c.period }) s
      else modifyBranchCounters c.branch (fun y => { y with skips := countUp y.skips })
        (modifySlot k (fun x => { x with countdown := c.period, misses := missUp x.misses }) s) := by
  unfold slotExpire slotSkip slotMiss
  rw [hc, ha]
  dsimp only
  rw [modifySlot_modifySlot, modifySlot_modifySlot]

/-- A reply with the slot as it then stands (section 10.5). -/
theorem Received.slotReplied {s u v : State} (h : Received s u) {except : List Part} (hv : SameBut except u v)
    (hp : .params ∉ except) (hb : .buffers ∉ except) (code seq : Byte) {slot : Byte} {k : SlotIndex}
    (hk : k.val = slot.toNat) {x : Slot} (hx : v.slots[k] = x) :
    let t := buildResponse code seq (slotReply k v)
    Answered s code seq .ok [slot, slotStateByte x.state] t ∧ t.slots[k] = x ∧ CommandKept except s t := by
  intro t
  have ht : t = buildResponse code seq (okay [slot, slotStateByte x.state] v) := by
    refine congrArg (buildResponse code seq) ?_
    unfold slotReply
    rw [hx, byteOfNat_of_toNat hk]
  rw [ht]
  obtain ⟨hanswered, hkept⟩ := h.effect hv hp hb code seq .ok (data := [slot, slotStateByte x.state]) (by simp)
  exact ⟨hanswered, by rw [buildResponse_slots]; exact hx, hkept⟩

/-- The other slots under a reply that reports one of them. -/
theorem buildResponse_other_slots {s u v : State} (h : Received s u) {k : SlotIndex}
    (hv : ∀ i ≠ k, v.slots[i] = u.slots[i]) (code seq : Byte) (j : SlotIndex) :
    ∀ i ≠ k, (buildResponse code seq (slotReply j v)).slots[i] = s.slots[i] := by
  intro i hi
  rw [buildResponse_slots, ← h.slot]
  exact hv i hi

/-- A branch is in service for a command as it was before its frame. -/
theorem Received.inService {s u : State} (h : Received s u) (b : Branch) :
    Sys2Proof.Machine.inService u b = Sys2Proof.Machine.inService s b := by
  unfold Sys2Proof.Machine.inService
  rw [h.branch_eq]

/-- A change of the counters of a branch touches that branch alone. -/
theorem modifyBranchCounters_sameBut (b : Branch) (f : BranchCounters → BranchCounters) (s : State) :
    SameBut [.branch b] s (modifyBranchCounters b f s) := by
  unfold modifyBranchCounters
  exact modifyBranch_sameBut b _ s

/-- The counters of a branch once they have been changed. -/
theorem modifyBranchCounters_counters (b : Branch) (f : BranchCounters → BranchCounters) (s : State) :
    (modifyBranchCounters b f s).branches[b].counters = f s.branches[b].counters := by
  unfold modifyBranchCounters
  rw [modifyBranch_same]

/-- A reply with a slot whose expiry its branch has skipped (R133). -/
theorem Received.slotSkipped {s u : State} (h : Received s u) (code seq : Byte) {slot : Byte} {k : SlotIndex}
    (hk : k.val = slot.toNat) (f : Slot → Slot) (b : Branch) :
    let t := buildResponse code seq (slotReply k
      (modifyBranchCounters b (fun y => { y with skips := countUp y.skips }) (modifySlot k f u)))
    Answered s code seq .ok [slot, slotStateByte (f s.slots[k]).state] t ∧ t.slots[k] = f s.slots[k] ∧
      t.branches[b].counters.skips = countUp s.branches[b].counters.skips ∧ (∀ i ≠ k, t.slots[i] = s.slots[i]) ∧
      CommandKept [.slots, .branch b] s t := by
  have hkept : SameBut [.slots, .branch b] u
      (modifyBranchCounters b (fun y => { y with skips := countUp y.skips }) (modifySlot k f u)) :=
    SameBut.trans_append (modifySlot_sameBut k f u) (modifyBranchCounters_sameBut b _ (modifySlot k f u))
  have hskips := congrArg BranchCounters.skips
    (modifyBranchCounters_counters b (fun y => { y with skips := countUp y.skips }) (modifySlot k f u))
  have hslots : (modifyBranchCounters b (fun y => { y with skips := countUp y.skips }) (modifySlot k f u)).slots =
      (modifySlot k f u).slots := modifyBranch_slots b _ _
  generalize modifyBranchCounters b (fun y => { y with skips := countUp y.skips }) (modifySlot k f u) = v at *
  have hplace : v.slots[k] = f s.slots[k] := by rw [hslots, modifySlot_same, h.slot]
  obtain ⟨hanswered, hwritten, hcommand⟩ := h.slotReplied hkept (by simp) (by simp) code seq hk hplace
  refine ⟨hanswered, hwritten, ?_, buildResponse_other_slots h (fun i hi => ?_) code seq k, hcommand⟩
  · rw [buildResponse_branches]
    refine hskips.trans ?_
    show countUp u.branches[b].counters.skips = _
    rw [h.branch_eq]
  · rw [hslots]
    exact modifySlot_other hi f u

/-- Settles O41: the checks of POLL_START in order, and the slot that it arms. -/
theorem pollStartArms : Obligations.PollStartArms := by
  intro seq slot delay s hs
  obtain ⟨u, hu, hexec⟩ := row_received (i := .pollStart seq slot delay) (c := .pollStart)
    (args := slot :: bytesOfWord delay) rfl (by simp) hs (by simp [bytesOfWord])
  have hrun : runNamed .pollStart (slot :: bytesOfWord delay) u = cmdPollStart slot delay u :=
    congrArg (cmdPollStart slot · u) (wordOfBytes_bytes delay)
  rw [hrun] at hexec
  refine ⟨_, hexec, ?_⟩
  unfold cmdPollStart
  by_cases hslot : 8 ≤ slot.toNat
  · rw [if_pos hslot, slotOf_eq_none.mpr hslot]
    exact hu.answeredOnly _ seq .badArgument (by simp)
  rw [if_neg hslot]
  intro k hk
  rw [slotOf_eq_some.mpr hk]
  dsimp only
  have hfound := hu.slot k
  rw [hfound]
  cases hstate : s.slots[k].state with
  | unset =>
    cases s.slots[k].config <;> exact hu.answeredOnly _ seq .slotUnset (by simp)
  | armed | due | onLine | stopping =>
    cases s.slots[k].config <;> exact hu.answeredOnly _ seq .slotActive (by simp)
  | stopped =>
    cases hconfig : s.slots[k].config with
    | none => trivial
    | some c =>
      dsimp only
      by_cases hdelay : c.period < delay.toNat
      · rw [if_pos hdelay, if_pos hdelay]
        exact hu.answeredOnly _ seq .badArgument (by simp)
      rw [if_neg hdelay, if_neg hdelay]
      set arm : Slot → Slot := fun x => { x with state := .armed, countdown := delay.toNat } with harm
      have harmed : (modifySlot k arm u).slots[k] = arm s.slots[k] := by rw [modifySlot_same, hfound]
      by_cases hzero : delay = 0
      · rw [if_pos hzero, if_neg (not_not.mpr hzero)]
        have hexpired := slotExpire_of_armed (s := modifySlot k arm u) (k := k) (c := c) (by rw [harmed]; exact hconfig)
          (by rw [harmed])
        have hservice : inService (modifySlot k arm u) c.branch = inService s c.branch := hu.inService c.branch
        rw [hservice] at hexpired
        by_cases hon : inService s c.branch = true
        · rw [if_pos hon] at hexpired
          rw [if_pos hon, hexpired, modifySlot_modifySlot]
          refine ⟨buildResponse_other_slots hu (fun i hi => modifySlot_other hi _ u) _ seq k, ?_⟩
          obtain ⟨hanswered, hwritten, hkept⟩ := hu.slotReplied (modifySlot_sameBut k _ u) (by decide) (by decide)
            (commandByte .pollStart) seq hk (modifySlot_same k _ u)
          rw [hfound] at hanswered hwritten
          exact ⟨hanswered, hwritten.trans (by rw [harm, ← hconfig]), hkept⟩
        · rw [if_neg hon] at hexpired
          rw [if_neg hon, hexpired, modifySlot_modifySlot]
          obtain ⟨hanswered, hwritten, hskips, hothers, hkept⟩ := hu.slotSkipped (commandByte .pollStart) seq hk
            (fun x => { arm x with countdown := c.period, misses := missUp (arm x).misses }) c.branch
          exact ⟨hothers, hanswered, hwritten.trans (by rw [harm, ← hconfig]), hskips, hkept⟩
      · rw [if_neg hzero, if_pos hzero]
        refine ⟨buildResponse_other_slots hu (fun i hi => modifySlot_other hi _ u) _ seq k, ?_⟩
        obtain ⟨hanswered, hwritten, hkept⟩ := hu.slotReplied (modifySlot_sameBut k arm u) (by decide) (by decide)
          (commandByte .pollStart) seq hk harmed
        exact ⟨hanswered, hwritten.trans (by rw [harm, ← hconfig]), hkept⟩

/-! ### POLL_STOP -/

/-- The end of idle stalls touches the branches alone (R80). -/
theorem endIdleStalls_sameBut (s : State) : SameBut branchParts s (endIdleStalls s) :=
  ⟨rfl, fun q _ hq => by
    cases q with
    | branch b => exact absurd (by fin_cases b <;> decide) hq
    | pins => exact ⟨rfl, rfl, rfl⟩
    | lastCommand => exact ⟨rfl, rfl⟩
    | _ => rfl⟩

/-- Work of a branch is what its queue and the slots say (R80). -/
theorem hasWork_congr {s t : State} {b : Branch} (hq : t.branches[b].queue = s.branches[b].queue)
    (hs : t.slots = s.slots) : hasWork t b = hasWork s b := by
  unfold hasWork lowestDueSlot slotDueOn
  rw [hq, hs]

/-- A branch whose stall ends with its work, on what is then its work (R80). -/
theorem endIdleStalls_stalled (b : Branch) (s : State) : (endIdleStalls s).branches[b] = { s.branches[b] with
    stalled := s.branches[b].stalled && hasWork s b } := by
  rw [endIdleStalls_branches]
  cases hasWork s b with
  | true =>
    rw [if_pos rfl, Bool.and_true]
  | false =>
    rw [if_neg Bool.false_ne_true, Bool.and_false]

/-- An ARMED or DUE slot that is stopped: the answer, the slot, and the stalls that end with the work (R80, R142). -/
theorem Received.slotWithdrawn {s u : State} (h : Received s u) (seq : Byte) {slot : Byte} {k : SlotIndex}
    (hk : k.val = slot.toNat) :
    let t := buildResponse 0x1A#8 seq (slotReply k
      (endIdleStalls (modifySlot k (fun x => { x with state := .stopped, countdown := 0 }) u)))
    Answered s 0x1A#8 seq .ok [slot, 0x01#8] t ∧
      t.slots[k] = { s.slots[k] with state := .stopped, countdown := 0 } ∧ (∀ i ≠ k, t.slots[i] = s.slots[i]) ∧
      (∀ b : Branch, t.branches[b] = { (superseded s).branches[b] with
        stalled := (superseded s).branches[b].stalled && hasWork t b }) ∧
          CommandKept ([.slots] ++ branchParts) s t := by
  have hslot : (modifySlot k (fun x => { x with state := .stopped, countdown := 0 }) u).slots[k] =
      { s.slots[k] with state := .stopped, countdown := 0 } := by rw [modifySlot_same, h.slot]
  have hothers : ∀ i ≠ k, (modifySlot k (fun x => { x with state := .stopped, countdown := 0 }) u).slots[i] =
      u.slots[i] := fun i hi => modifySlot_other hi _ u
  have hkept := modifySlot_sameBut k (fun x => { x with state := .stopped, countdown := 0 }) u
  have hbranches : ∀ b : Branch, (modifySlot k (fun x => { x with state := .stopped, countdown := 0 }) u).branches[b] =
      (superseded s).branches[b] := h.branches
  generalize modifySlot k (fun x => { x with state := .stopped, countdown := 0 }) u = v at *
  have hended := SameBut.trans_append hkept (endIdleStalls_sameBut v)
  have hslots : (endIdleStalls v).slots = v.slots := mapBranches_slots _ v
  have hstalled := fun b => endIdleStalls_stalled b v
  generalize endIdleStalls v = w at *
  rw [← hslots] at hslot
  obtain ⟨hanswered, hwritten, hcommand⟩ := h.slotReplied hended (by decide) (by decide) 0x1A#8 seq hk hslot
  refine ⟨hanswered, hwritten, buildResponse_other_slots h (fun i hi => ?_) 0x1A#8 seq k, fun b => ?_, hcommand⟩
  · rw [hslots]
    exact hothers i hi
  · have hbranch : (buildResponse 0x1A#8 seq (slotReply k w)).branches[b] =
        { v.branches[b] with stalled := v.branches[b].stalled && hasWork v b } := by
      rw [buildResponse_branches]
      exact hstalled b
    have hwork : hasWork (buildResponse 0x1A#8 seq (slotReply k w)) b = hasWork v b :=
      hasWork_congr (by rw [hbranch]) ((buildResponse_slots _ _ _).trans hslots)
    rw [hwork, hbranch, hbranches]

/-- Settles O42: the slot is stopped by its state. -/
theorem pollStopStops : Obligations.PollStopStops := by
  intro seq slot s hs
  obtain ⟨u, hu, hexec⟩ := row_received (i := .pollStop seq slot) (c := .pollStop) rfl (by simp) hs (by simp)
  have hrow : exec (.pollStop seq slot) s = .next (buildResponse 0x1A#8 seq (cmdPollStop slot u)) := hexec
  refine ⟨_, hrow, ?_⟩
  unfold cmdPollStop
  by_cases hslot : 8 ≤ slot.toNat
  · rw [if_pos hslot, slotOf_eq_none.mpr hslot]
    exact hu.answeredOnly 0x1A#8 seq .badArgument (by simp)
  rw [if_neg hslot]
  intro k hk
  rw [slotOf_eq_some.mpr hk]
  dsimp only
  have hfound := hu.slot k
  have hreply : ∀ v : State, ∀ st, v.slots[k].state = st →
      slotReply k v = okay [slot, slotStateByte st] v := by
    rintro v _ rfl
    unfold slotReply
    rw [byteOfNat_of_toNat hk]
  rw [hfound]
  cases hstate : s.slots[k].state with
  | unset =>
    rw [if_pos rfl]
    exact hu.answeredOnly 0x1A#8 seq .slotUnset (by simp)
  | stopped =>
    have hstop : stopSlot k u = u := by
      unfold stopSlot
      rw [hfound, hstate]
    rw [if_neg (by simp), hstop, hreply u .stopped (by rw [hfound, hstate])]
    exact hu.answeredOnly 0x1A#8 seq .ok (by simp)
  | stopping =>
    have hstop : stopSlot k u = u := by
      unfold stopSlot
      rw [hfound, hstate]
    rw [if_neg (by simp), hstop, hreply u .stopping (by rw [hfound, hstate])]
    exact hu.answeredOnly 0x1A#8 seq .ok (by simp)
  | onLine =>
    have hstop : stopSlot k u = modifySlot k (fun x => { x with state := .stopping }) u := by
      unfold stopSlot
      rw [hfound, hstate]
    have hslot : (modifySlot k (fun x => { x with state := .stopping }) u).slots[k] =
        { s.slots[k] with state := .stopping } := by rw [modifySlot_same, hfound]
    rw [if_neg (by simp), hstop]
    obtain ⟨hanswered, hwritten, hkept⟩ :=
      hu.slotReplied (modifySlot_sameBut k _ u) (by decide) (by decide) 0x1A#8 seq hk hslot
    exact ⟨hanswered, hwritten, buildResponse_other_slots hu (fun i hi => modifySlot_other hi _ u) 0x1A#8 seq k, hkept⟩
  | armed | due =>
    have hstop : stopSlot k u =
        endIdleStalls (modifySlot k (fun x => { x with state := .stopped, countdown := 0 }) u) := by
      unfold stopSlot
      rw [hfound, hstate]
    rw [if_neg (by simp), hstop]
    exact hu.slotWithdrawn seq hk

end Sys2Proof.Machine
end

section
/-!
Settlement of the statement about RESTART (section 9.9).
-/

namespace Sys2Proof.Machine

-- The gate's memory limit counts every thread's arena, so the declarations are elaborated one after another.
set_option Elab.async false

/-! ### What RESTART makes of each block -/

/-- A branch after RESTART, field by field (R74, R98). -/
theorem restartBranch_fields (x : BranchState) : let y := restartBranch x
    y.status = (if x.status = .off then .off else .idle) ∧ y.queue = [] ∧ y.onLine = none ∧ y.stalled = false ∧
      y.contentionRun = 0 ∧ y.lastServed = .poll ∧ y.windowTimer = none ∧ y.quarantineTimer = none ∧
      (x.status ≠ .off → y.port.tx = .quiet ∧ y.port.rx = .hunt ∧ y.pendingRate = none ∧
        y.port.rate = x.pendingRate.getD x.port.rate) ∧
      y.responseWindow = x.responseWindow ∧ y.queueLimit = x.queueLimit ∧ y.quarantine = x.quarantine ∧
      y.port.lineRest = x.port.lineRest := by
  unfold restartBranch
  by_cases hoff : x.status = .off
  · simp [hoff]
  · cases hrate : x.pendingRate <;> simp [hoff]

/-- The parameters of a branch after RESTART, and its counters (R22, R98). -/
theorem restartBranch_kept (x : BranchState) : let y := restartBranch x
    y.pendingRate.getD y.port.rate = x.pendingRate.getD x.port.rate ∧ y.port.guard = x.port.guard ∧
      y.port.charTimeout = x.port.charTimeout ∧ y.counters = .zero ∧ y.port.counters = .zero := by
  unfold restartBranch
  by_cases hoff : x.status = .off
  · simp [hoff]
  · cases hrate : x.pendingRate <;> simp [hoff]

/-- A slot after RESTART (R144). -/
theorem restartSlot_fields (x : Slot) : let y := restartSlot x
    y.config = x.config ∧ y.misses = 0 ∧ y.overruns = 0 ∧ y.seq = 0 ∧ y.age = none ∧
      match x.state, x.config with
      | .armed, some c | .due, some c | .onLine, some c => y.state = .armed ∧ y.countdown = c.period
      | .stopping, _ => y.state = .stopped ∧ y.countdown = 0
      | .stopped, _ => y.state = .stopped
      | .unset, _ => y.state = .unset
      | _, none => True := by
  unfold restartSlot
  cases x.state <;> cases x.config <;> simp

/-- A buffer after RESTART (R129, R178). -/
theorem restartPart_buffers (s : State) (n : Fin Config.bufferCount) :
    (restartPart s).buffers[n] = restartBuffer s.buffers[n] := mapTable_get _ _ _

/-- A branch after RESTART. -/
theorem restartPart_branches (s : State) (b : Branch) : (restartPart s).branches[b] = restartBranch s.branches[b] :=
  mapTable_get _ _ _

/-- A slot after RESTART. -/
theorem restartPart_slots (s : State) (k : SlotIndex) : (restartPart s).slots[k] = restartSlot s.slots[k] :=
  mapTable_get _ _ _

/-- The command's frame is kept by RESTART (R178). -/
theorem heldFrame_restartPart_assembly (s : State) :
    heldFrame .trunkAssembly (restartPart s) = heldFrame .trunkAssembly s := by
  have hplace : ∀ n : Fin Config.bufferCount,
      ((restartPart s).buffers[n].holder == Holder.trunkAssembly) = (s.buffers[n].holder == .trunkAssembly) ∧
      (s.buffers[n].holder = .trunkAssembly → (restartPart s).buffers[n] = s.buffers[n]) := by
    intro n
    rw [restartPart_buffers]
    unfold restartBuffer
    by_cases hn : s.buffers[n].holder = .trunkAssembly
    · rw [if_pos (.inl hn)]
      exact ⟨rfl, fun _ => rfl⟩
    · refine ⟨?_, fun h => absurd h hn⟩
      have hne : (s.buffers[n].holder == .trunkAssembly) = false := beq_eq_false_iff_ne.mpr hn
      rw [hne]
      split
      · exact hne
      · rfl
  rw [heldFrame_eq_lowest, heldFrame_eq_lowest]
  have hlowest : (lowestIndex fun n => (restartPart s).buffers[n].holder == .trunkAssembly) =
      lowestIndex fun n => s.buffers[n].holder == .trunkAssembly := congrArg lowestIndex (funext fun n => (hplace n).1)
  rw [hlowest]
  cases hn : lowestIndex fun n => s.buffers[n].holder == .trunkAssembly with
  | none => rfl
  | some n =>
    have hheld : s.buffers[n].holder = .trunkAssembly := by simpa using (lowestIndex_eq_some.mp hn).1
    exact congrArg (fun c : Buffer => some c.chars) ((hplace n).2 hheld)

/-- The frames of every other block are returned by RESTART (R178). -/
theorem heldFrame_restartPart_other {h : Holder} (hf : h ≠ .free) (ht : h ≠ .trunkAssembly) (hl : h ≠ .lastResponse)
    (s : State) : heldFrame h (restartPart s) = none := by
  refine heldFrame_eq_none.mpr fun n hn => ?_
  rw [restartPart_buffers] at hn
  unfold restartBuffer at hn
  split at hn
  · rename_i hkept
    rw [hn] at hkept
    exact hkept.elim ht hl
  · exact hf hn.symm

/-- The pieces of the part that RESTART can touch (R177, R178). -/
theorem restartPart_sameBut (s : State) :
    SameBut ([.records, .tagCounter, .completions, .slots, .buffers, .trunk] ++ branchParts) s (restartPart s) :=
  ⟨rfl, fun q _ hq => by
    cases q with
    | records | tagCounter | completions | slots | buffers | trunk => exact absurd (by decide) hq
    | branch b => exact absurd (by fin_cases b <;> decide) hq
    | pins => exact ⟨rfl, rfl, rfl⟩
    | lastCommand => exact ⟨rfl, rfl⟩
    | _ => rfl⟩

/-- Every parameter keeps its value through RESTART (R177). -/
theorem paramValue_restartPart (s : State) (q : Param) : paramValue (restartPart s) q = paramValue s q := by
  have hkept := fun b : Branch => restartBranch_kept s.branches[b]
  have hfields := fun b : Branch => restartBranch_fields s.branches[b]
  have hbranches := restartPart_branches s
  generalize ht : restartPart s = t at hbranches
  have htrunk : t.trunk.port.rate = s.trunk.port.rate ∧ t.trunk.port.guard = s.trunk.port.guard ∧
      t.trunk.port.charTimeout = s.trunk.port.charTimeout := by
    rw [← ht]
    exact ⟨rfl, rfl, rfl⟩
  have hparams : t.params = s.params := by
    rw [← ht]
    rfl
  obtain ⟨hrate, hguard, htimeout⟩ := htrunk
  cases q with
  | rate p | guard p | charTimeout p =>
    cases p with
    | trunk => simp only [paramValue, State.port, hrate, hguard, htimeout]
    | branch b =>
      obtain ⟨hbranchRate, hbranchGuard, hbranchTimeout, -⟩ := hkept b
      simp only [paramValue, State.port, hbranches, hbranchRate, hbranchGuard, hbranchTimeout]
  | responseWindow b | queueLimit b | quarantine b =>
    obtain ⟨-, -, -, -, -, -, -, -, -, hwindow, hlimit, hquarantine, -⟩ := hfields b
    simp only [paramValue, hbranches, hwindow, hlimit, hquarantine]
  | _ => simp only [paramValue, hparams]

/-- Every counter of every group is zero after RESTART (R178). -/
theorem groupCounters_restartPart (p : Port) (s : State) : ∀ n ∈ groupCounters p (restartPart s), n = 0 := by
  cases p with
  | trunk => simp [groupCounters, trunkCounterList, restartPart, PortCounters.zero, TrunkCounters.zero]
  | branch b =>
    obtain ⟨-, -, -, hcounters, hport⟩ := restartBranch_kept s.branches[b]
    show ∀ n ∈ branchCounterList (restartPart s).branches[b].port.counters (restartPart s).branches[b].counters, n = 0
    rw [restartPart_branches, hcounters, hport]
    simp [branchCounterList, PortCounters.zero, BranchCounters.zero]

/-- The response of RESTART holds the only buffer that is not free (R178). -/
theorem Received.freeCount_restarted {s u : State} (h : Received s u) (hst : storing .trunk s = false)
    (hheld : Sys2Proof.Machine.heldFrame .trunkAssembly s = none) :
    freeCountAnswered (restartPart u) = 47 := by
  obtain ⟨p, rfl, hfit, -, hclaim, -⟩ := h
  rw [hst] at hclaim
  obtain ⟨i, hi⟩ := Option.isSome_iff_exists.mp (Option.isNone_eq_false_iff.mp hclaim)
  have hnone : ∀ n : Fin Config.bufferCount, (superseded s).buffers[n].holder ≠ .trunkAssembly := by
    refine heldFrame_eq_none.mp ?_
    rw [← hheld]
    exact heldFrame_supersede_other (by simp) (by simp) (by simp) (by simp) (by simp) rfl
  have hempty : (List.replicate Config.bufferCount Buffer.empty).countP (fun c => c.holder == .free) = 48 := by decide
  have hcount := countP_updateAt (fun c : Buffer => c.holder == .free)
      (Vector.replicate Config.bufferCount Buffer.empty)
    i { holder := .trunkAssembly, chars := p.chars } (by rw [Fin.getElem_fin, Vector.getElem_replicate]; rfl) rfl
  rw [Vector.toList_replicate, hempty] at hcount
  refine Eq.trans ?_ hcount
  unfold freeCountAnswered Sys2Proof.Machine.freeCount
  refine congrArg (fun v : Vector Buffer Config.bufferCount => v.toList.countP _) (table_ext fun n => ?_)
  have hplace := hnone n
  have hreplicate : (Vector.replicate Config.bufferCount Buffer.empty)[n] = Buffer.empty := by
    rw [Fin.getElem_fin, Vector.getElem_replicate]
  rw [returnBuffer_buffers, restartPart_buffers, Traces.over_buffers, updateAt_get, hi, hreplicate]
  generalize (superseded s).buffers[n] = c at hplace
  by_cases hn : n = i
  · subst hn
    simp [restartBuffer]
  · have hni : ¬ i = n := fun h => hn h.symm
    by_cases hlast : c.holder = .lastResponse <;> simp [restartBuffer, hn, hni, hplace, hlast, Buffer.empty]

/-- Settles O47: each block as RESTART leaves it, and the parameters that it keeps. -/
theorem restartClearsTheTraffic : Obligations.RestartClearsTheTraffic := by
  intro seq s hs
  obtain ⟨u, hu, hexec⟩ := row_received (i := .restart seq) (c := .restart) rfl (by simp) hs (by simp)
  have hrow : exec (.restart seq) s = .next (buildResponse 0x2F#8 seq (okay [] (restartPart u))) := hexec
  have hkept := restartPart_sameBut u
  have hassembly : (heldFrame .trunkAssembly (restartPart u)).isSome = true := by
    rw [heldFrame_restartPart_assembly]
    exact hu.assembly
  have hanswered := hu.answered 0x2F#8 seq .ok (data := []) (by simp) (v := restartPart u) rfl hassembly
  have hcommand := hu.commandKept 0x2F#8 seq .ok [] hkept
  refine ⟨_, hrow, hanswered, fun i => ?_, ?_, ?_, fun p _ => ?_, fun b => ?_, fun k => ?_, fun hst hheld => ?_,
    fun p => ?_, hcommand⟩
  · rw [buildResponse_records]
    exact (Fin.getElem_fin _ _ _).trans (Vector.getElem_replicate _)
  · exact buildResponse_completions _ _ _
  · exact buildResponse_tagCounter _ _ _
  · rw [groupCounters_buildResponse]
    exact groupCounters_restartPart p u
  · have hbranch : (buildResponse 0x2F#8 seq (okay [] (restartPart u))).branches[b] = restartBranch u.branches[b] := by
      rw [buildResponse_branches]
      exact restartPart_branches u b
    have hfields := restartBranch_fields u.branches[b]
    rw [hbranch]
    rw [hu.branch_eq] at hfields ⊢
    exact hfields
  · have hslot : (buildResponse 0x2F#8 seq (okay [] (restartPart u))).slots[k] = restartSlot s.slots[k] := by
      rw [buildResponse_slots, ← hu.slot]
      exact restartPart_slots u k
    have hsnapshot : heldFrame (.snapshot k) (buildResponse 0x2F#8 seq (okay [] (restartPart u))) = none := by
      rw [heldFrame_buildResponse_other (by simp) (by simp) (by simp)]
      exact heldFrame_restartPart_other (by simp) (by simp) (by simp) u
    obtain ⟨hconfig, hmisses, hoverruns, hseq, hage, hstate⟩ := restartSlot_fields s.slots[k]
    rw [hslot, hsnapshot]
    exact ⟨hconfig, hmisses, hoverruns, hseq, hage, rfl, hstate⟩
  · rw [freeCount_buildResponse]
    exact hu.freeCount_restarted hst hheld
  · rw [paramValue_buildResponse]
    exact (paramValue_restartPart u p).trans (hu.paramValue p)

end Sys2Proof.Machine
end

section
/-!
Settlement of the statements about the classification of trunk frames: discarded and accepted station frames (section
2.2).
-/

namespace Sys2Proof.Machine

-- The gate's memory limit counts every thread's arena, so the declarations are elaborated one after another.
set_option Elab.async false

/-! ### A frame as it is classified -/

/-- The traces under which a whole stored frame is classified (R104, R118). -/
structure FrameReceived (s : State) (chars : List Byte) (p : Traces) : Prop where
  fits : p.fits (superseded s)
  text : p.chars = chars
  flags : p.flags ||| receiptFlags = receiptFlags
  claimed : p.claimed.isNone = storing .trunk s
  held : heldFrame .trunkAssembly (p.over (superseded s)) = some chars
  port : (p.over (superseded s)).trunk.port = receivedPort chars s

/-- A ready trunk hands a whole frame to the classifier under its traces (R104). -/
theorem frame_received {s : State} (hs : trunkReady s = true) (a : Byte) {data : List Byte} (hd : data.length ≤ 60) :
    ∃ p, FrameReceived s (mkFrame a data) p ∧
      exec (.trunkGoodFrame a data) s = .next (classify a data (p.over (superseded s))) := by
  obtain ⟨hstored, p, hfit, hchars, hflags, hclaim, hheld, hassembled⟩ := assembled_traces hs a (mkFrame a data)
  obtain ⟨hrest, hgap, hcounters⟩ := Traces.over_port_of_assembled hassembled
  let q : Traces := { p with counters := { p.counters with framesRxGood := countUp p.counters.framesRxGood } }
  have hsup := q.over_supersede (v := setRx .trunk .hunt s) hfit rfl
  refine ⟨q, ⟨hsup.2, hchars, hflags, hclaim, ?_, ?_⟩, ?_⟩
  · have hkeep : heldFrame .trunkAssembly (superseded s) = heldFrame .trunkAssembly s :=
      heldFrame_supersede_other (by simp) (by simp) (by simp) (by simp) (by simp) rfl
    rw [← hchars]
    exact q.over_assembly (by rw [hkeep]; exact hheld)
  · obtain ⟨hcounted, htimeout⟩ := receiveAddress_trunk_port a s
    have hport : (q.over (superseded s)).trunk.port = { (superseded s).trunk.port with
        lineRest := p.lineRest, charInProgress := false, gapTimeout := p.gapTimeout
        counters := { p.counters with framesRxGood := countUp p.counters.framesRxGood } } := rfl
    rw [hport, hrest, hgap, hcounters]
    unfold receivedPort
    split
    · rfl
    · rw [hcounted, htimeout]
  · rw [trunkGoodFrame_assembled hs a hd hstored, hassembled]
    show Host.Outcome.next (classify a data (supersede (q.over (setRx .trunk .hunt s)))) = _
    rw [hsup.1]
    rfl

section
variable {s : State} {chars : List Byte} {p : Traces}

/-- The part that a frame is classified on is one that a command would find. -/
theorem FrameReceived.received (h : FrameReceived s chars p) : Received s (p.over (superseded s)) :=
  ⟨p, rfl, h.fits, h.flags, h.claimed, by rw [h.held]; rfl⟩

/-- The frame stands in a buffer of the trunk (R118). -/
theorem FrameReceived.buffer (h : FrameReceived s chars p) :
    ∃ n : Fin Config.bufferCount, (p.over (superseded s)).buffers[n] =
      { holder := .trunkAssembly, chars := chars } := by
  have hheld := h.held
  rw [heldFrame_eq_lowest, Option.map_eq_some_iff] at hheld
  obtain ⟨n, hn, hchars⟩ := hheld
  have hholder : (p.over (superseded s)).buffers[n].holder = .trunkAssembly := by
    simpa using (lowestIndex_eq_some.mp hn).1
  refine ⟨n, ?_⟩
  rw [← hholder, ← hchars]

/-- A frame that is dropped, whatever is counted and flagged: the trunk, the pool and the memory (R32, R125). -/
theorem FrameReceived.dropped (h : FrameReceived s chars p) {t : State} {counters : TrunkCounters} {m : BitVec 12}
    (htrunk : t.trunk = { (superseded s).trunk with port := (p.over (superseded s)).trunk.port, counters := counters })
    (hbuffers : t.buffers = (returnBuffer .trunkAssembly (p.over (superseded s))).buffers)
    (hlast : t.lastCode = (superseded s).lastCode ∧ t.lastSeq = (superseded s).lastSeq)
    (hflags : t.flags = (superseded s).flags ||| p.flags ||| m) :
    FrameDropped chars counters m s t ∧ heldFrame .trunkAssembly t = none ∧ exchangeFramesKept (superseded s) t := by
  have howed := superseded_owed s
  have hclear := (superseded_kept s).1
  have hframes : ∀ {g : Holder}, g ≠ .free → g ≠ .trunkAssembly → heldFrame g t = heldFrame g (superseded s) :=
    fun hf hg => (heldFrame_of_buffers hbuffers _).trans (Traces.dropped_heldFrame h.fits hf hg)
  refine ⟨⟨?_, ?_, hframes (by decide) (by decide), ⟨hlast.1, hlast.2, hframes (by decide) (by decide)⟩, ?_, ?_, ?_⟩,
    ?_, fun g hg => ?_⟩
  · rw [htrunk, h.port]
  · rw [htrunk]
    exact howed
  · rw [hflags, hclear, flags_or_receipt h.flags]
  · have hcount : freeCount t = freeCount (returnBuffer .trunkAssembly (p.over (superseded s))) := by
      unfold freeCount
      rw [hbuffers]
    rw [hcount]
    exact Traces.dropped_freeCount h.fits
  · rw [hbuffers]
    exact Traces.dropped_places h.fits
  · rw [heldFrame_of_buffers hbuffers]
    exact heldFrame_returnBuffer_same (by decide) _
  · obtain ⟨hf, hg⟩ := exchangeHolders_ne hg
    exact hframes hf hg

end

/-- What an effect on the part that a frame has superseded leaves, when it touches the named pieces alone. -/
theorem Received.kept {s u v : State} (h : Received s u) {except : List Part} (hv : SameBut except u v) :
    CommandKept except s v := by
  have hkept : ∀ q ∈ allParts, q ∉ except → samePart u v q := hv.2
  refine ⟨?_, fun hq => ?_, fun hq => ?_, fun hq k hk => ?_, fun hq => ?_⟩
  · refine (h.sameBut.mono ?_).trans (hv.mono fun q hq => List.mem_append_left _ hq)
    intro q hq
    refine List.mem_append_right _ ?_
    revert q
    decide
  · exact (hkept .params (by decide) hq).trans (h.params.trans (superseded_params s))
  · have hflags : v.flags = u.flags := hkept .flags (by decide) hq
    rw [hflags, h.flags]
  · obtain ⟨hf, ht⟩ := exchangeHolders_ne hk
    rw [heldFrame_of_buffers (hkept .buffers (by decide) hq), h.heldFrame hf ht]
  · have htrunk : v.trunk = u.trunk := hkept .trunk (by decide) hq
    rw [htrunk]
    exact h.trunk

/-- A part that keeps the frames of every other block keeps the pool as far as `CommandKept` says it. -/
theorem CommandKept.of_frames {s t : State} {except : List Part} (h : CommandKept (except ++ [.buffers]) s t)
    (hframes : exchangeFramesKept (superseded s) t) : CommandKept except s t := by
  obtain ⟨hsame, hparams, hflags, -, htrunk⟩ := h
  have hmem : ∀ {q : Part}, q ≠ .buffers → q ∉ except → q ∉ except ++ [.buffers] := by
    intro q hq hn hm
    rcases List.mem_append.mp hm with hm | hm
    · exact hn hm
    · exact hq (List.mem_singleton.mp hm)
  refine ⟨hsame.mono fun q hq => ?_, fun hn => hparams (hmem (by decide) hn), fun hn => hflags (hmem (by decide) hn),
    fun _ => hframes, fun hn => htrunk (hmem (by decide) hn)⟩
  rcases List.mem_append.mp hq with hq | hq
  · rcases List.mem_append.mp hq with hq | hq
    · exact List.mem_append_left _ hq
    · rw [List.mem_singleton.mp hq]
      exact List.mem_append_right _ (by decide)
  · exact List.mem_append_right _ hq

/-! ### Where the classifier sends a frame -/

/-- A frame to a station or a group other than the management address is looked up (section 2.2). -/
theorem classify_routed {s u : State} (hu : Received s u) {a : Byte}
    (ha : isStationAddress a = true ∨ isGroupAddress a = true) (hm : a ≠ settledAddress s) (data : List Byte) :
    classify a data u = classifyRouted a u := by
  have hmgmt : u.params.mgmtAddress = settledAddress s := by rw [hu.params, superseded_mgmtAddress]
  have hrange : 1 ≤ a.toNat ∧ a.toNat ≤ 0xFE := by
    simp only [isStationAddress, isGroupAddress, Bool.and_eq_true, decide_eq_true_eq] at ha
    omega
  unfold classify
  rw [hmgmt, if_neg hm, if_neg (by rintro rfl; exact absurd hrange (by decide)),
    if_neg (by rintro rfl; exact absurd hrange (by decide))]

/-- A looked-up frame, by what it selects (R34, R35, R37). -/
theorem Received.classifyRouted {s u : State} (h : Received s u) (a : Byte) :
    Sys2Proof.Machine.classifyRouted a u = match Sys2Proof.Machine.lookup s a with
      | none => discardUnrouted u
      | some j =>
        if (Sys2Proof.Machine.activeEntry s j).mode ≠ .pass ∨ outgoing (Sys2Proof.Machine.activeEntry s j) a =
          voidAddress then
          discardUnrouted (hitEntry j u)
        else match (Sys2Proof.Machine.activeEntry s j).kind with
          | .station => acceptTransparent a (Sys2Proof.Machine.activeEntry s j) (hitEntry j u)
          | .group => acceptGroup (outgoing (Sys2Proof.Machine.activeEntry s j) a)
            (Sys2Proof.Machine.activeEntry s j).branches (hitEntry j u) := by
  unfold Sys2Proof.Machine.classifyRouted
  rw [h.lookup]
  cases Sys2Proof.Machine.lookup s a with
  | none => rfl
  | some j =>
    dsimp only
    rw [h.activeEntry]
    by_cases hmode : (Sys2Proof.Machine.activeEntry s j).mode = .pass
    · by_cases hvoid : outgoing (Sys2Proof.Machine.activeEntry s j) a = voidAddress
      · rw [if_neg (not_not.mpr hmode), if_pos hvoid, if_pos (.inr hvoid)]
      · refine (if_neg (not_not.mpr hmode)).trans ((if_neg hvoid).trans (Eq.trans ?_
          (if_neg (not_or.mpr ⟨not_not.mpr hmode, hvoid⟩)).symm))
        cases (Sys2Proof.Machine.activeEntry s j).kind <;> rfl
    · rw [if_pos hmode, if_pos (.inl hmode)]

/-- The part with a hit of the selected entry counted, or none (R27, R34). -/
def withHit (selected : Option (Fin Config.entryCount)) (u : State) : State :=
  match selected with
  | none => u
  | some j => hitEntry j u

/-- A counted hit touches nothing but the active bank. -/
theorem Received.withHit {s u : State} (h : Received s u) (selected : Option (Fin Config.entryCount)) :
    SameBut [bankPart s.activeBank] u (withHit selected u) ∧
      hitCounted s selected (Sys2Proof.Machine.withHit selected u) := by
  cases selected with
  | none => exact ⟨SameBut.refl _ u, hitCounted_of_entries (h.bank s.activeBank)⟩
  | some j =>
    refine ⟨?_, hitCounted_of_entries (h.hitEntry_bank j)⟩
    rw [← h.activeBank]
    exact hitEntry_sameBut j u

/-- What is counted of hits is what the active bank says. -/
theorem hitCounted_congr {s t t' : State} {selected : Option (Fin Config.entryCount)} (h : hitCounted s selected t)
    (hbank : t'.bank s.activeBank = t.bank s.activeBank) : hitCounted s selected t' := by
  unfold hitCounted
  rw [hbank]
  exact h

/-- The part with a hit counted holds the frame as the part without (R27). -/
theorem FrameReceived.hit {s : State} {chars : List Byte} {p : Traces} (h : FrameReceived s chars p)
    (selected : Option (Fin Config.entryCount)) : let u := p.over (superseded s)
    let w := withHit selected u
    w.trunk = u.trunk ∧ w.buffers = u.buffers ∧ w.flags = u.flags ∧ w.lastCode = u.lastCode ∧ w.lastSeq = u.lastSeq ∧
      w.records = u.records ∧ w.params = u.params ∧ ∀ b : Branch, w.branches[b] = u.branches[b] := by
  intro u w
  obtain ⟨-, hkept⟩ := (h.received.withHit selected).1
  have hbank : ∀ q : Part, q ≠ .bankA → q ≠ .bankB → q ∉ [bankPart s.activeBank] := by
    intro q ha hb
    cases s.activeBank <;> simpa [bankPart]
  refine ⟨hkept .trunk (by decide) (hbank _ (by decide) (by decide)),
    hkept .buffers (by decide) (hbank _ (by decide) (by decide)),
    hkept .flags (by decide) (hbank _ (by decide) (by decide)), ?_, ?_,
    hkept .records (by decide) (hbank _ (by decide) (by decide)),
    hkept .params (by decide) (hbank _ (by decide) (by decide)),
    fun b => hkept (.branch b) (by fin_cases b <;> decide) (hbank _ (by simp) (by simp))⟩
  · exact (hkept .lastCommand (by decide) (hbank _ (by decide) (by decide))).1
  · exact (hkept .lastCommand (by decide) (hbank _ (by decide) (by decide))).2

/-! ### Unrouted frames -/

/-- Settles O20: a frame that is not routed is discarded, with the hit of the entry that it selected. -/
theorem unroutedFrameDiscarded : Obligations.UnroutedFrameDiscarded := by
  intro a data s hd hs _ ha hm hlookup counters
  obtain ⟨p, hp, hexec⟩ := frame_received hs a hd
  have hu := hp.received
  have hclass : classify a data (p.over (superseded s)) =
      discardUnrouted (withHit (lookup s a) (p.over (superseded s))) := by
    rw [classify_routed hu ha hm, hu.classifyRouted]
    cases hj : lookup s a with
    | none => rfl
    | some j => exact if_pos (hlookup j hj)
  obtain ⟨hsame, hhit⟩ := hu.withHit (lookup s a)
  obtain ⟨htrunk, hbuffers, hflags, hcode, hseq, -⟩ := hp.hit (lookup s a)
  generalize withHit (lookup s a) (p.over (superseded s)) = w at *
  have hsum : (discardUnrouted w).trunk = { w.trunk with
    counters := { w.trunk.counters with unrouted := countUp w.trunk.counters.unrouted } } := rfl
  obtain ⟨hdropped, hheld, hframes⟩ := hp.dropped (t := discardUnrouted w) (m := flagMask .unrouted)
    (counters := { counters with unrouted := countUp counters.unrouted }) (by rw [hsum, htrunk]; rfl)
    (by
      show mapTable _ w.buffers = _
      rw [hbuffers]
      rfl)
    ⟨hcode, hseq⟩
    (by
      rw [discardUnrouted_flags, hflags]
      rfl)
  refine ⟨_, hexec.trans (congrArg _ hclass), hdropped, flagSet_raise_same _ _, hheld, hitCounted_congr hhit ?_, ?_⟩
  · cases s.activeBank <;> rfl
  · refine CommandKept.of_frames (hu.kept (except := [bankPart s.activeBank, .trunk, .flags] ++ [.buffers]) ?_) hframes
    exact (SameBut.trans_append hsame (discardUnrouted_sameBut w)).mono (by cases s.activeBank <;> decide)

end Sys2Proof.Machine
end

section
/-!
Settlement of the statements about station frames that select a PASS entry (sections 2.2, 3.3 and 5.4).
-/

namespace Sys2Proof.Machine

-- The gate's memory limit counts every thread's arena, so the declarations are elaborated one after another.
set_option Elab.async false

/-! ### Accepted frames -/

/-- A hand-over touches the pool alone. -/
theorem handOver_sameBut (h g : Holder) (s : State) : SameBut [.buffers] s (handOver h g s) :=
  ⟨rfl, fun q _ hq => by
    cases q with
    | buffers => exact absurd (by decide) hq
    | pins => exact ⟨rfl, rfl, rfl⟩
    | lastCommand => exact ⟨rfl, rfl⟩
    | _ => rfl⟩

/-- A station frame to a branch in service, with a record FREE, as one update of the part (R35, R123). -/
theorem acceptTransparent_accepted {a : Byte} {e : RouteEntry} {s : State} {i : RecordIndex}
    (hservice : inService s (stationBranch e) = true) (hi : lowestFreeRecord s = some i) : acceptTransparent a e s =
      { modifyBranch (stationBranch e) (fun x => { x with queue := i :: x.queue }) s with
        buffers := (handOver .trunkAssembly (.request i) s).buffers
        records := updateAt s.records i fun _ =>
          transparentRecord a (outgoing e a) (stationBranch e) e.retries e.notify
        trunk := { s.trunk with owed := .pendingAnswer i } } := by
  unfold acceptTransparent
  rw [if_neg (by rw [hservice]; exact Bool.noConfusion), hi]
  rfl

/-- The pieces of the part that an accepted station frame can touch (R35). -/
theorem acceptTransparent_sameBut {a : Byte} {e : RouteEntry} {s : State} {i : RecordIndex}
    (hservice : inService s (stationBranch e) = true) (hi : lowestFreeRecord s = some i) :
    SameBut ([.trunk, .buffers, .records] ++ branchParts) s (acceptTransparent a e s) := by
  rw [acceptTransparent_accepted hservice hi]
  refine ⟨rfl, fun q _ hq => ?_⟩
  cases q with
  | trunk | buffers | records => exact absurd (by decide) hq
  | branch b => exact absurd (by fin_cases b <;> decide) hq
  | pins => exact ⟨rfl, rfl, rfl⟩
  | lastCommand => exact ⟨rfl, rfl⟩
  | _ => rfl

/-- A frame whose buffer has gone to the request of a record (R123). -/
theorem FrameReceived.handedOver {s : State} {chars : List Byte} {p : Traces} (h : FrameReceived s chars p)
    {t w : State} {i : RecordIndex} (hw : w.buffers = (p.over (superseded s)).buffers)
    (ht : t.buffers = (handOver .trunkAssembly (.request i) w).buffers) :
    holdsFrame (.request i) chars t ∧ heldFrame .trunkAssembly t = none := by
  refine ⟨?_, ?_⟩
  · obtain ⟨n, hn⟩ := h.buffer
    refine ⟨n, ?_⟩
    rw [ht, handOver_buffers, hw, hn, if_pos rfl]
  · rw [heldFrame_of_buffers ht]
    exact heldFrame_handOver_from (by simp) w

/-- The FREE records that a frame finds are those that its supersede leaves. -/
theorem lowestFreeRecord_congr {s t : State} (h : t.records = s.records) : lowestFreeRecord t = lowestFreeRecord s := by
  unfold lowestFreeRecord
  rw [h]

/-- There is a lowest FREE record unless the count of FREE records is 0 (R44). -/
theorem lowestFreeRecord_eq_none {s : State} : lowestFreeRecord s = none ↔ freeRecords s = 0 := by
  unfold lowestFreeRecord freeRecords
  rw [lowestIndex_eq_none, countP_table, List.countP_eq_zero]
  exact ⟨fun h i _ => by rw [h i]; exact Bool.false_ne_true, fun h i => by simpa using h i (List.mem_finRange i)⟩

/-- The class of a selected entry is that of the address (R26). -/
theorem kind_of_lookup {s : State} {a : Byte} {j : Fin Config.entryCount} (h : lookup s a = some j) :
    (isStationAddress a = true → (activeEntry s j).kind = .station) ∧
      (isGroupAddress a = true → (activeEntry s j).kind = .group) := by
  obtain ⟨hmatch, -⟩ := lookup_eq_some.mp h
  have hdisjoint : ¬ (isStationAddress a = true ∧ isGroupAddress a = true) := by
    simp only [isStationAddress, isGroupAddress, Bool.and_eq_true, decide_eq_true_eq]
    omega
  unfold entryMatches at hmatch
  rw [Bool.and_eq_true] at hmatch
  obtain ⟨-, hclass⟩ := hmatch
  unfold activeEntry
  cases hk : (s.bank s.activeBank)[j].kind with
  | station =>
    rw [hk] at hclass
    exact ⟨fun _ => rfl, fun hg => absurd ⟨hclass, hg⟩ hdisjoint⟩
  | group =>
    rw [hk] at hclass
    exact ⟨fun hst => absurd ⟨hst, hclass⟩ hdisjoint, fun _ => rfl⟩

/-- A looked-up frame that selects a PASS entry with an outgoing address goes on by the kind of the entry (R35, R37). -/
theorem Received.classifyRouted_pass {s u : State} (h : Received s u) {a : Byte} {j : Fin Config.entryCount}
    (hj : Sys2Proof.Machine.lookup s a = some j) (hmode : (Sys2Proof.Machine.activeEntry s j).mode = .pass)
    (hvoid : outgoing (Sys2Proof.Machine.activeEntry s j) a ≠ 0x00#8) :
    Sys2Proof.Machine.classifyRouted a u = match (Sys2Proof.Machine.activeEntry s j).kind with
      | .station => acceptTransparent a (Sys2Proof.Machine.activeEntry s j) (hitEntry j u)
      | .group => acceptGroup (outgoing (Sys2Proof.Machine.activeEntry s j) a)
          (Sys2Proof.Machine.activeEntry s j).branches (hitEntry j u) := by
  have hpass : ¬ ((Sys2Proof.Machine.activeEntry s j).mode ≠ .pass ∨
      outgoing (Sys2Proof.Machine.activeEntry s j) a = voidAddress) := not_or.mpr ⟨not_not.mpr hmode, hvoid⟩
  rw [h.classifyRouted, hj]
  dsimp only
  refine (if_neg hpass).trans ?_
  cases (Sys2Proof.Machine.activeEntry s j).kind <;> rfl

/-- Settles O21: the record, its place at the head of the queue, the frame as its REQUEST, and what is owed. -/
theorem transparentFrameAccepted : Obligations.TransparentFrameAccepted := by
  intro a data j i s hd hs _ ha hm hj e b hmode hvoid hservice hi
  obtain ⟨p, hp, hexec⟩ := frame_received hs a hd
  have hu := hp.received
  have hclass : classify a data (p.over (superseded s)) =
      acceptTransparent a e (withHit (some j) (p.over (superseded s))) := by
    rw [classify_routed hu (.inl ha) hm, hu.classifyRouted_pass hj hmode hvoid, (kind_of_lookup hj).1 ha]
    rfl
  obtain ⟨hsame, hhit⟩ := hu.withHit (some j)
  obtain ⟨htrunk, hbuffers, hflags, hcode, hseq, hrecords, -, hbranches⟩ := hp.hit (some j)
  generalize withHit (some j) (p.over (superseded s)) = w at *
  have hrecordsV : w.records = (superseded s).records := hrecords
  have hbranchesV : ∀ d : Branch, w.branches[d] = (superseded s).branches[d] := hbranches
  have hserving : inService w b = true := by
    rw [← hservice, ← superseded_inService s]
    unfold inService
    rw [hbranchesV]
  have hfree : lowestFreeRecord w = some i := (lowestFreeRecord_congr hrecordsV).trans hi
  have heq := acceptTransparent_accepted (a := a) hserving hfree
  have hkept := acceptTransparent_sameBut (a := a) hserving hfree
  obtain ⟨hholds, hassembly⟩ := hp.handedOver (t := acceptTransparent a e w) (i := i) hbuffers (by rw [heq])
  refine ⟨_, hexec.trans (congrArg _ hclass), ?_, fun k hk => ?_, ?_, fun d hd => ?_, hholds, hassembly, ?_,
    hitCounted_congr hhit ?_, ?_⟩
  · rw [heq]
    exact updateAt_same _ _ _
  · rw [heq, ← hrecordsV]
    exact updateAt_other _ _ hk
  · rw [heq, ← hbranchesV]
    exact modifyBranch_same b _ w
  · rw [heq, ← hbranchesV]
    exact modifyBranch_other hd _ w
  · rw [heq]
  · rw [heq]
    cases s.activeBank <;> rfl
  · exact hu.kept ((SameBut.trans_append hsame hkept).mono (by cases s.activeBank <;> decide))

/-! ### Refused frames -/

/-- A supersede leaves no buffer for the owed reply, when one was held only as an answer or a proxy frame (R104). -/
theorem superseded_owedReply {s : State} (h : OwedAgrees s) : heldFrame .owedReply (superseded s) = none := by
  obtain ⟨hheld, -⟩ := h
  have howed : heldFrame .owedReply (supersedeOwed (setRx .trunk .hunt s)) = none := by
    rw [supersedeOwed_eq]
    split
    · exact heldFrame_returnBuffer_same (by simp) _
    · rename_i hgiven
      show heldFrame .owedReply s = none
      cases hx : heldFrame .owedReply s with
      | none => rfl
      | some chars =>
        have hgivenS : ¬ s.trunk.owed.given = true := hgiven
        rcases hheld (by rw [hx]; rfl) with ho | ho <;> exact absurd (by rw [ho]; rfl) hgivenS
  have hrecord : heldFrame .owedReply (supersedeRecord (supersedeOwed (setRx .trunk .hunt s))) = none := by
    rw [← howed]
    unfold supersedeRecord
    split
    · rfl
    · split
      · exact heldFrame_freeRecord_other _ (by simp) (by simp) (by simp) _
      · rfl
  unfold superseded
  rw [(supersede_eq (s := setRx .trunk .hunt s) rfl).2, ← hrecord]
  split
  · exact heldFrame_returnBuffer_other (by simp) (by simp) _
  · rfl

/-- A free count is not 0 where a frame has claimed its buffer (R121). -/
theorem FrameReceived.freeCount {s : State} {chars : List Byte} {p : Traces} (h : FrameReceived s chars p)
    (hst : storing .trunk s = false) :
    Sys2Proof.Machine.freeCount (p.over (superseded s)) + 1 = Sys2Proof.Machine.freeCount (superseded s) := by
  have hclaim := h.claimed
  rw [hst] at hclaim
  obtain ⟨i, hi⟩ := Option.isSome_iff_exists.mp (Option.isNone_eq_false_iff.mp hclaim)
  have hpos : Sys2Proof.Machine.freeCount (superseded s) ≠ 0 := by
    intro h0
    have hnone := lowestIndex_eq_none.mp (lowestFreeBuffer_eq_none.mpr h0) i
    rw [h.fits i hi] at hnone
    exact absurd hnone (by decide)
  rw [Traces.over_freeCount h.fits, hclaim, if_neg Bool.false_ne_true]
  omega

/-- The proxy status frame of a refusal, in the trunk and the pool (R36, R111). -/
theorem FrameReceived.proxied {s : State} {chars : List Byte} {p : Traces} (h : FrameReceived s chars p)
    (howed : OwedAgrees s) {w : State} (htrunk : w.trunk = (p.over (superseded s)).trunk)
    (hbuffers : w.buffers = (p.over (superseded s)).buffers) (hflags : w.flags = (p.over (superseded s)).flags)
    (hlast : w.lastCode = (superseded s).lastCode ∧ w.lastSeq = (superseded s).lastSeq)
    (hmgmt : w.params.mgmtAddress = settledAddress s) (a reason : Byte) :
    let t := oweProxy .trunkAssembly a reason (raise .refused (countRefused w))
    t.trunk = { (superseded s).trunk with
      owed := .proxy
      counters := { (superseded s).trunk.counters with refused := countUp (superseded s).trunk.counters.refused }
      port := { receivedPort chars s with
        tx := .lead { address := settledAddress s, data := [0x7F#8, a, reason] }
        guardInUse := s.trunk.port.guard } } ∧
    heldFrame .owedReply t = some (mkFrame (settledAddress s) [0x7F#8, a, reason]) ∧
    t.flags ||| receiptFlags = s.flags ||| receiptFlags ||| flagMask .refused ∧
    Sys2Proof.Machine.freeCount t = Sys2Proof.Machine.freeCount (p.over (superseded s)) ∧
    heldFrame .trunkAssembly t = none ∧ memoryKept (superseded s) t ∧ exchangeFramesKept (superseded s) t := by
  intro t
  set f := mkFrame (settledAddress s) [0x7F#8, a, reason] with hf
  have hpool : t.buffers = (handOver .trunkAssembly .owedReply (writeBuffer .trunkAssembly f w)).buffers := by
    rw [hf, ← hmgmt]
    rfl
  have hframes : ∀ g, heldFrame g t =
      heldFrame g (handOver .trunkAssembly .owedReply (writeBuffer .trunkAssembly f w)) :=
    fun g => heldFrame_of_buffers hpool g
  have hothers : ∀ {g : Holder}, g ≠ .free → g ≠ .trunkAssembly → g ≠ .owedReply →
      heldFrame g t = heldFrame g (superseded s) := by
    intro g hfree hassembly hreply
    rw [hframes, heldFrame_handOver_other hassembly hreply, heldFrame_writeBuffer_other hassembly,
      heldFrame_of_buffers hbuffers, Traces.over_heldFrame h.fits hfree hassembly]
  have hnone : heldFrame .owedReply (writeBuffer .trunkAssembly f w) = none := by
    rw [heldFrame_writeBuffer_other (by simp), heldFrame_of_buffers hbuffers,
      Traces.over_heldFrame h.fits (by simp) (by simp), superseded_owedReply howed]
  have hproxy : heldFrame .owedReply t = some f := by
    rw [hframes, heldFrame_handOver_to (by simp) _ hnone, heldFrame_writeBuffer_same, heldFrame_of_buffers hbuffers,
      h.held]
    rfl
  have hkept : t.lastCode = w.lastCode ∧ t.lastSeq = w.lastSeq :=
    (oweProxy_kept .trunkAssembly a reason (raise .refused (countRefused w))).sameBut.2 .lastCommand
    (by decide) (by decide)
  refine ⟨?_, hproxy, ?_, ?_, ?_, ⟨?_, ?_, hothers (by simp) (by simp) (by simp)⟩, fun g hg => ?_⟩
  · have hsend : t.trunk = { w.trunk with
        owed := .proxy
        counters := { w.trunk.counters with refused := countUp w.trunk.counters.refused }
        port := { w.trunk.port with
          tx := .lead { address := frameAddress ((heldFrame .owedReply t).getD [])
                        data := frameData ((heldFrame .owedReply t).getD []) }
          guardInUse := w.trunk.port.guard } } := rfl
    obtain ⟨-, -, hguard, -⟩ := superseded_kept s
    have hport : w.trunk.port = receivedPort chars s := by rw [htrunk, h.port]
    have hreceived : (receivedPort chars s).guard = s.trunk.port.guard := hguard
    rw [hsend, hproxy, hport, hreceived, htrunk, hf]
    show _ = _
    rw [Option.getD_some, frameAddress_mkFrame, frameData_mkFrame _ (by simp)]
    rfl
  · have hsum : t.flags = w.flags ||| flagMask .refused := rfl
    rw [hsum, hflags, Traces.over_flags, (superseded_kept s).1, flags_or_receipt h.flags]
  · have hcount : Sys2Proof.Machine.freeCount t =
        Sys2Proof.Machine.freeCount (handOver .trunkAssembly .owedReply (writeBuffer .trunkAssembly f w)) := by
      unfold Sys2Proof.Machine.freeCount
      rw [hpool]
    rw [hcount, ← heldCount_free, heldCount_handOver (by simp), if_neg (by simp), if_neg (by simp), heldCount_free,
      freeCount_writeBuffer]
    unfold Sys2Proof.Machine.freeCount
    rw [hbuffers]
  · rw [hframes]
    exact heldFrame_handOver_from (by simp) _
  · exact hkept.1.trans hlast.1
  · exact hkept.2.trans hlast.2
  · obtain ⟨hfree, hassembly⟩ := exchangeHolders_ne hg
    exact hothers hfree hassembly (by rintro rfl; exact absurd hg (by decide))

/-- Writing a buffer touches the pool alone. -/
theorem writeBuffer_sameBut (h : Holder) (chars : List Byte) (s : State) :
    SameBut [.buffers] s (writeBuffer h chars s) :=
  ⟨rfl, fun q _ hq => by
    cases q with
    | buffers => exact absurd (by decide) hq
    | pins => exact ⟨rfl, rfl, rfl⟩
    | lastCommand => exact ⟨rfl, rfl⟩
    | _ => rfl⟩

/-- A reply that is owed touches the trunk alone (R102). -/
theorem oweReply_sameBut (kind : OwedReply) (h : Holder) (s : State) : SameBut [.trunk] s (oweReply kind h s) :=
  (modifyTrunk_sameBut _ s).trans (modifyPort_sameBut .trunk _ _)

/-- A refusal of a station frame touches the trunk, the pool and the flags alone (R36). -/
theorem refuseTransparent_sameBut (a reason : Byte) (notify : Bool) (s : State) :
    SameBut receptionParts s (refuseTransparent a reason notify s) := by
  have hcounted : SameBut receptionParts s (raise .refused (countRefused s)) :=
    (SameBut.trans_append (modifyTrunk_sameBut _ s) (raise_sameBut .refused (countRefused s))).mono (by decide)
  unfold refuseTransparent
  dsimp only
  generalize raise .refused (countRefused s) = v at hcounted
  refine hcounted.trans ?_
  cases notify with
  | true =>
    rw [if_pos rfl]
    unfold oweProxy
    exact ((writeBuffer_sameBut _ _ v).mono (by decide)).trans
      (((handOver_sameBut _ _ _).mono (by decide)).trans ((oweReply_sameBut _ _ _).mono (by decide)))
  | false =>
    rw [if_neg Bool.false_ne_true]
    exact (returnBuffer_sameBut _ v).mono (by decide)

/-- The reason of a refusal (R36). -/
theorem acceptTransparent_refused {a : Byte} {e : RouteEntry} {w : State}
    (h : inService w (stationBranch e) = false ∨ lowestFreeRecord w = none) : acceptTransparent a e w =
      refuseTransparent a (if inService w (stationBranch e) = false then 0x04#8 else 0x05#8) e.notify w := by
  unfold acceptTransparent
  by_cases hoff : inService w (stationBranch e) = false
  · dsimp only
    rw [hoff, if_pos (show (!false) = true from rfl), if_pos rfl]
    rfl
  · rw [if_neg hoff, if_neg (show ¬ (!inService w (stationBranch e)) = true by simpa using hoff),
      h.resolve_left hoff]
    rfl

/-- Settles O22: the refusal is counted and flagged, and its buffer owed as a proxy frame or free again. -/
theorem transparentFrameRefused : Obligations.TransparentFrameRefused := by
  intro a data j s hd hs _ ha hm hj e hmode hvoid hcause howed reason counters
  obtain ⟨p, hp, hexec⟩ := frame_received hs a hd
  have hu := hp.received
  have hclass : classify a data (p.over (superseded s)) =
      acceptTransparent a e (withHit (some j) (p.over (superseded s))) := by
    rw [classify_routed hu (.inl ha) hm, hu.classifyRouted_pass hj hmode hvoid, (kind_of_lookup hj).1 ha]
    rfl
  obtain ⟨hsame, hhit⟩ := hu.withHit (some j)
  obtain ⟨htrunk, hbuffers, hflags, hcode, hseq, hrecords, hparams, hbranches⟩ := hp.hit (some j)
  generalize withHit (some j) (p.over (superseded s)) = w at *
  have hbranchesV : ∀ d : Branch, w.branches[d] = (superseded s).branches[d] := hbranches
  have hservice : inService w (stationBranch e) = inService s (stationBranch e) := by
    rw [← superseded_inService s]
    unfold inService
    rw [hbranchesV]
  have hrefused : inService w (stationBranch e) = false ∨ lowestFreeRecord w = none := by
    rw [hservice]
    exact hcause.imp_right fun h0 => (lowestFreeRecord_congr hrecords).trans (lowestFreeRecord_eq_none.mpr h0)
  have heq := acceptTransparent_refused (a := a) hrefused
  rw [hservice] at heq
  have hmgmt : w.params.mgmtAddress = settledAddress s := by rw [hparams, hu.params, superseded_mgmtAddress]
  rw [hclass.trans heq] at hexec
  have hflag : flagSet .refused (raise .refused (countRefused w)) = true := flagSet_raise_same .refused _
  cases hnotify : e.notify with
  | true =>
    rw [hnotify] at hexec
    obtain ⟨hport, hproxy, hsum, hcount, hassembly, hmemory, hframes⟩ :=
      hp.proxied howed htrunk hbuffers hflags ⟨hcode, hseq⟩ hmgmt a reason
    have hkept := refuseTransparent_sameBut a reason true w
    refine ⟨_, hexec, hflag, hassembly, hitCounted_congr hhit ?_, hmemory,
      fun _ => ⟨hport, hproxy, hsum, fun hst _ => ?_⟩, nofun, ?_⟩
    · cases s.activeBank <;> rfl
    · exact (congrArg (· + 1) hcount).trans (hp.freeCount hst)
    · refine CommandKept.of_frames (hu.kept (except := [bankPart s.activeBank, .trunk, .flags] ++ [.buffers]) ?_)
        hframes
      exact (SameBut.trans_append hsame hkept).mono (by cases s.activeBank <;> decide)
  | false =>
    rw [hnotify] at hexec
    have htrunkSum : (returnBuffer .trunkAssembly (raise .refused (countRefused w))).trunk = { w.trunk with
        counters := { w.trunk.counters with refused := countUp w.trunk.counters.refused } } := rfl
    obtain ⟨hdropped, hassembly, hframes⟩ := hp.dropped
      (t := returnBuffer .trunkAssembly (raise .refused (countRefused w))) (m := flagMask .refused)
      (counters := counters)
      (by rw [htrunkSum, htrunk]; rfl)
      (by
        show mapTable _ w.buffers = _
        rw [hbuffers]
        rfl)
      ⟨hcode, hseq⟩
      (by
        show w.flags ||| _ = _
        rw [hflags]
        rfl)
    have hkept := refuseTransparent_sameBut a reason false w
    have ⟨_, _, hreply, hmemory, _⟩ := hdropped
    refine ⟨_, hexec, hflag, hassembly, hitCounted_congr hhit ?_, hmemory, nofun,
      fun _ => ⟨hdropped, hreply.trans (superseded_owedReply howed)⟩, ?_⟩
    · cases s.activeBank <;> rfl
    · refine CommandKept.of_frames (hu.kept (except := [bankPart s.activeBank, .trunk, .flags] ++ [.buffers]) ?_)
        hframes
      exact (SameBut.trans_append hsame hkept).mono (by cases s.activeBank <;> decide)

end Sys2Proof.Machine
end

section
/-!
Settlement of the statement about group frames and the all-call (sections 2.2 and 3.3).
-/

namespace Sys2Proof.Machine

-- The gate's memory limit counts every thread's arena, so the declarations are elaborated one after another.
set_option Elab.async false

/-! ### The branches of a set in service -/

/-- The branches that a set is served on (R33, R37). -/
theorem inSet_inServiceSet (s : State) (x : BranchSet) (b : Branch) :
    inSet (inServiceSet s x) b = (inSet x b && inService s b) := by
  have hfold : ∀ g : Branch → Bool, inServiceSet s x = (List.finRange Config.branchCount).foldl
      (fun y b => if (inSet x b && inService s b) then setWith y b else y) 0 := fun _ => rfl
  have hbits : ∀ g0 g1 g2 g3 : Bool,
      let y0 : BranchSet := if g0 then setWith 0 0 else 0
      let y1 := if g1 then setWith y0 1 else y0
      let y2 := if g2 then setWith y1 2 else y1
      let y3 := if g3 then setWith y2 3 else y2
      inSet y3 0 = g0 ∧ inSet y3 1 = g1 ∧ inSet y3 2 = g2 ∧ inSet y3 3 = g3 := by decide
  obtain ⟨h0, h1, h2, h3⟩ := hbits (inSet x 0 && inService s 0) (inSet x 1 && inService s 1)
      (inSet x 2 && inService s 2)
    (inSet x 3 && inService s 3)
  match b with
  | 0 => exact h0
  | 1 => exact h1
  | 2 => exact h2
  | 3 => exact h3

/-- A set is empty when no branch is in it. -/
theorem eq_zero_of_inSet {x : BranchSet} (h : ∀ b, inSet x b = false) : x = 0 := by
  revert x
  decide

/-! ### The three ways of a group frame -/

/-- A group frame with no branch of its set in service (R37). -/
theorem acceptGroup_quiet {line : Byte} {x : BranchSet} {s : State} (h : ∀ b, (inSet x b && inService s b) = false) :
    acceptGroup line x s = countRefused (returnBuffer .trunkAssembly s) := by
  unfold acceptGroup
  have hzero : inServiceSet s x = 0 := eq_zero_of_inSet fun b => (inSet_inServiceSet s x b).trans (h b)
  dsimp only
  rw [if_pos hzero]

/-- A group frame with a branch in service and no record FREE (R37). -/
theorem acceptGroup_full {line : Byte} {x : BranchSet} {s : State} (h : ∃ b, (inSet x b && inService s b) = true)
    (hi : lowestFreeRecord s = none) :
    acceptGroup line x s = raise .refused (countRefused (returnBuffer .trunkAssembly s)) := by
  obtain ⟨b, hb⟩ := h
  have hset : inServiceSet s x ≠ 0 := by
    intro hzero
    rw [← inSet_inServiceSet, hzero] at hb
    exact absurd hb (by revert b; decide)
  unfold acceptGroup
  dsimp only
  rw [if_neg hset, hi]

/-- A group frame that is accepted, as one update of the part (R37, R123). -/
theorem acceptGroup_accepted {line : Byte} {x : BranchSet} {s : State} {i : RecordIndex}
    (h : ∃ b, (inSet x b && inService s b) = true) (hi : lowestFreeRecord s = some i) : acceptGroup line x s =
      { mapBranches (fun b y => if inSet (inServiceSet s x) b then { y with queue := y.queue ++ [i] } else y) s with
        buffers := (handOver .trunkAssembly (.request i) s).buffers
        records := updateAt s.records i fun _ => groupRecord line (inServiceSet s x) } := by
  obtain ⟨b, hb⟩ := h
  have hset : inServiceSet s x ≠ 0 := by
    intro hzero
    rw [← inSet_inServiceSet, hzero] at hb
    exact absurd hb (by revert b; decide)
  unfold acceptGroup
  dsimp only
  rw [if_neg hset, hi]
  rfl

/-- The pieces of the part that an accepted group frame can touch (R37). -/
theorem acceptGroup_sameBut {line : Byte} {x : BranchSet} {s : State} {i : RecordIndex}
    (h : ∃ b, (inSet x b && inService s b) = true) (hi : lowestFreeRecord s = some i) :
    SameBut ([.buffers, .records] ++ branchParts) s (acceptGroup line x s) := by
  rw [acceptGroup_accepted h hi]
  refine ⟨rfl, fun q _ hq => ?_⟩
  cases q with
  | buffers | records => exact absurd (by decide) hq
  | branch b => exact absurd (by fin_cases b <;> decide) hq
  | pins => exact ⟨rfl, rfl, rfl⟩
  | lastCommand => exact ⟨rfl, rfl⟩
  | _ => rfl

/-- A buffer handed to the request of a record, place by place (R123). -/
theorem FrameReceived.handedOver_places {s : State} {chars : List Byte} {p : Traces} (h : FrameReceived s chars p)
    {t w : State} {i : RecordIndex} (hw : w.buffers = (p.over (superseded s)).buffers)
    (ht : t.buffers = (handOver .trunkAssembly (.request i) w).buffers) :
    (∀ g ∈ exchangeHolders, g ≠ .request i → heldFrame g t = heldFrame g (superseded s)) ∧
      heldFrame .lastResponse t = heldFrame .lastResponse (superseded s) ∧
      ∀ n : Fin Config.bufferCount,
        if (superseded s).buffers[n].holder = .free ∨ (superseded s).buffers[n].holder = .trunkAssembly then
          t.buffers[n].holder = .free ∨ t.buffers[n] = { holder := .request i, chars := chars }
        else t.buffers[n] = (superseded s).buffers[n] := by
  have hframes : ∀ {g : Holder}, g ≠ .free → g ≠ .trunkAssembly → g ≠ .request i →
      heldFrame g t = heldFrame g (superseded s) := by
    intro g hf ha hr
    rw [heldFrame_of_buffers ht, heldFrame_handOver_other ha hr, heldFrame_of_buffers hw,
      Traces.over_heldFrame h.fits hf ha]
  refine ⟨fun g hg hr => ?_, hframes (by simp) (by simp) (by simp), fun n => ?_⟩
  · obtain ⟨hf, ha⟩ := exchangeHolders_ne hg
    exact hframes hf ha hr
  · have hclaimed := h.fits n
    have htext := h.text
    rw [ht, handOver_buffers, hw, Traces.over_buffers]
    generalize (superseded s).buffers[n] = c at hclaimed
    by_cases hassembly : c.holder = .trunkAssembly
    · simp [hassembly, htext]
    · by_cases hc : p.claimed = some n
      · simp [hc, hclaimed hc, htext]
      · by_cases hfree : c.holder = .free <;> simp [hassembly, hc, hfree]

/-- Settles O23: the frame is delivered to the branches of its set in service, or refused in one of two ways. -/
theorem groupFrameDelivered : Obligations.GroupFrameDelivered := by
  intro a data s hd hs hstation line x selected hcase u serving refused
  obtain ⟨p, hp, hexec⟩ := frame_received hs a hd
  have hu := hp.received
  have hclass : classify a data (p.over (superseded s)) =
      acceptGroup line x (withHit selected (p.over (superseded s))) := by
    have hmgmt : (p.over (superseded s)).params.mgmtAddress = settledAddress s := by
      rw [hu.params, superseded_mgmtAddress]
    have hrange : 1 ≤ (settledAddress s).toNat ∧ (settledAddress s).toNat ≤ 0xEF := by
      simpa [isStationAddress] using hstation
    rcases hcase with ⟨rfl, rfl, rfl, rfl⟩ | ⟨hgroup, rfl, j, hj, hmode, rfl, hvoid, rfl⟩
    · unfold classify
      rw [hmgmt, if_neg (fun h => absurd hrange (by rw [← h]; decide)), if_neg (by decide)]
      exact if_pos rfl
    · have hm : a ≠ settledAddress s := by
        rintro rfl
        simp only [isGroupAddress, Bool.and_eq_true, decide_eq_true_eq] at hgroup
        omega
      rw [classify_routed hu (.inr hgroup) hm, hu.classifyRouted_pass hj hmode hvoid, (kind_of_lookup hj).2 hgroup, hj]
      rfl
  obtain ⟨hsame, hhit⟩ := hu.withHit selected
  obtain ⟨htrunk, hbuffers, hflags, hcode, hseq, hrecords, hparams, hbranches⟩ := hp.hit selected
  generalize withHit selected (p.over (superseded s)) = w at *
  have hrecordsV : w.records = u.records := hrecords
  have hbranchesV : ∀ d : Branch, w.branches[d] = u.branches[d] := hbranches
  have hserving : ∀ b, (inSet x b && inService w b) = serving b := by
    intro b
    show _ = (inSet x b && inService s b)
    rw [← superseded_inService s]
    unfold inService
    rw [hbranchesV]
  have hlowest : lowestFreeRecord w = lowestFreeRecord u := lowestFreeRecord_congr hrecordsV
  have hcounted : (countRefused (returnBuffer .trunkAssembly w)).trunk = { w.trunk with
      counters := { w.trunk.counters with refused := countUp w.trunk.counters.refused } } := rfl
  have hcountedTrunk : (countRefused (returnBuffer .trunkAssembly w)).trunk = { u.trunk with
      port := (p.over u).trunk.port, counters := refused } := by
    rw [hcounted, htrunk]
    rfl
  have hcountedBuffers : (countRefused (returnBuffer .trunkAssembly w)).buffers =
      (returnBuffer .trunkAssembly (p.over u)).buffers := by
    show mapTable _ w.buffers = _
    rw [hbuffers]
    rfl
  have hcountedSame : SameBut [.trunk, .buffers] w (countRefused (returnBuffer .trunkAssembly w)) :=
    (SameBut.trans_append (returnBuffer_sameBut .trunkAssembly w) (modifyTrunk_sameBut _ _)).mono (by decide)
  by_cases hany : ∃ b, serving b = true
  · have hanyW : ∃ b, (inSet x b && inService w b) = true := by simpa only [hserving] using hany
    have hsome : ¬ ∀ b, serving b = false := by
      obtain ⟨b, hb⟩ := hany
      exact fun h => absurd (h b) (by rw [hb]; exact Bool.noConfusion)
    cases hi : lowestFreeRecord u with
    | none =>
      have heq := acceptGroup_full (line := line) hanyW (hlowest.trans hi)
      obtain ⟨hdropped, hassembly, hframes⟩ := hp.dropped
        (t := raise .refused (countRefused (returnBuffer .trunkAssembly w))) (m := flagMask .refused) hcountedTrunk
        hcountedBuffers ⟨hcode, hseq⟩
        (by
          show w.flags ||| _ = _
          rw [hflags]
          rfl)
      have ⟨_, howed, _, hmemory, _⟩ := hdropped
      refine ⟨_, hexec.trans (congrArg _ (hclass.trans heq)), howed, hassembly, hmemory, hitCounted_congr hhit ?_,
        fun _ i hi' => absurd hi' (by simp), fun h => absurd h hsome,
        fun _ _ => ⟨hdropped, flagSet_raise_same .refused _, ?_⟩⟩
      · cases s.activeBank <;> rfl
      · refine CommandKept.of_frames (hu.kept (except := [bankPart s.activeBank, .trunk, .flags] ++ [.buffers]) ?_)
          hframes
        exact (SameBut.trans_append hsame (SameBut.trans_append hcountedSame (raise_sameBut .refused _))).mono
          (by cases s.activeBank <;> decide)
    | some i =>
      have hiW := hlowest.trans hi
      have heq := acceptGroup_accepted (line := line) hanyW hiW
      have hkept := acceptGroup_sameBut (line := line) hanyW hiW
      have hpool : (acceptGroup line x w).buffers = (handOver .trunkAssembly (.request i) w).buffers := by rw [heq]
      have hport : (acceptGroup line x w).trunk = (p.over u).trunk := by
        rw [heq]
        exact htrunk
      obtain ⟨hholds, hassembly⟩ := hp.handedOver hbuffers hpool
      obtain ⟨hframes, hmemory, hplaces⟩ := hp.handedOver_places hbuffers hpool
      have hlast := hkept.2 .lastCommand (by decide) (by decide)
      have hrecord : (acceptGroup line x w).records[i] = groupRecord line (inServiceSet w x) := by
        rw [heq]
        exact updateAt_same _ _ _
      refine ⟨_, hexec.trans (congrArg _ hclass), ?_, hassembly, ⟨hlast.1.trans hcode, hlast.2.trans hseq, hmemory⟩,
        hitCounted_congr hhit ?_, fun _ i' hi' => ?_, fun h => absurd h hsome, fun _ h0 => ?_⟩
      · rw [hport]
        exact superseded_owed s
      · rw [heq]
        cases s.activeBank <;> rfl
      · obtain rfl : i = i' := Option.some.inj hi'
        refine ⟨?_, fun b => ?_, fun k hk => ?_, hholds, hframes, hplaces, fun b => ?_, ?_, ?_⟩
        · rw [hrecord]
          rfl
        · rw [hrecord]
          exact (inSet_inServiceSet w x b).trans (hserving b)
        · rw [heq, ← hrecordsV]
          exact updateAt_other _ _ hk
        · rw [heq, ← hbranchesV]
          show (mapBranches _ w).branches[b] = _
          unfold mapBranches
          refine (tableOf_get _ b).trans ?_
          have hin : inSet (inServiceSet w x) b = serving b := (inSet_inServiceSet w x b).trans (hserving b)
          dsimp only
          rw [hin]
          cases serving b <;> rfl
        · rw [hport, ← hp.port]
          rfl
        · exact hu.kept ((SameBut.trans_append hsame hkept).mono (by cases s.activeBank <;> decide))
      · rw [lowestFreeRecord_eq_none.mpr h0] at hi
        exact absurd hi (by simp)
  · have hnone : ∀ b, serving b = false := fun b => by simpa using fun h => hany ⟨b, h⟩
    have heq := acceptGroup_quiet (line := line) fun b => (hserving b).trans (hnone b)
    obtain ⟨hdropped, hassembly, hframes⟩ := hp.dropped
      (t := countRefused (returnBuffer .trunkAssembly w)) (m := 0) hcountedTrunk hcountedBuffers ⟨hcode, hseq⟩
      (by
        show w.flags = _
        rw [hflags, flags_or_zero]
        rfl)
    have ⟨_, howed, _, hmemory, _⟩ := hdropped
    refine ⟨_, hexec.trans (congrArg _ (hclass.trans heq)), howed, hassembly, hmemory, hitCounted_congr hhit ?_,
      fun h => absurd h hany, fun _ => ⟨hdropped, ?_⟩, fun h => absurd h hany⟩
    · cases s.activeBank <;> rfl
    · refine CommandKept.of_frames (hu.kept (except := [bankPart s.activeBank, .trunk] ++ [.buffers]) ?_) hframes
      exact (SameBut.trans_append hsame hcountedSame).mono (by cases s.activeBank <;> decide)

end Sys2Proof.Machine
end

section
/-! The grants of the arbiter and what it leaves of a branch without one (section 4.2). -/

namespace Sys2Proof.Machine

-- The gate's memory limit counts every thread's arena, so the declarations are elaborated one after another.
set_option Elab.async false

/-! ### The steps of a grant -/

theorem claimBuffer_claims {b : Branch} {s : State} (hfree : 0 < freeCount s) :
    let t := claimBuffer (.branchAnswer b) [] s
    answerBufferClaimed b s t ∧ t.flags = claimedFlags s ∧ SameBut [.buffers, .flags] s t := by
  obtain ⟨n, hn, hholder, heq⟩ := claimBuffer_eq hfree (h := .branchAnswer b) nofun []
  refine ⟨⟨n, hholder, fun j hj => ?_, ?_, fun j hj => ?_⟩, claimBuffer_flags hfree (h := .branchAnswer b)
    nofun [], ?_, ?_⟩
  · simpa using (lowestIndex_eq_some.mp hn).2 j hj
  · rw [claimBuffer_buffers hn]
    exact updateAt_same ..
  · rw [claimBuffer_buffers hn]
    exact updateAt_other _ _ hj
  · exact claimBuffer_pending ..
  · intro p _ hp
    cases p <;> simp_all [samePart]

theorem assign_branch (b : Branch) (i : RecordIndex) (f : TxFrame) (s : State) :
    (assign b i f s).branches[b] = { s.branches[b] with
      status := .lead, onLine := some i, stalled := false
      port := { s.branches[b].port with tx := .lead f, guardInUse := s.branches[b].port.guard } } := by
  unfold assign enterLead
  rw [modifyPort_branch_same, modifyBranch_same]

theorem assign_sameBut (b : Branch) (i : RecordIndex) (f : TxFrame) (s : State) :
    SameBut [.branch b] s (assign b i f s) :=
  (modifyBranch_sameBut b _ s).trans (modifyPort_sameBut (.branch b) _ _)

theorem setServed_branch (b : Branch) (m : Served) (s : State) :
    (setServed b m s).branches[b] = { s.branches[b] with lastServed := m } := modifyBranch_same ..

theorem setServed_sameBut (b : Branch) (m : Served) (s : State) : SameBut [.branch b] s (setServed b m s) :=
  modifyBranch_sameBut b _ s

/-- What every grant of a station record leaves: the answer buffer claimed, and only the branch and the named parts
touched (R81, R122). -/
theorem claimed_then {b : Branch} {s u t : State} {e : List Part} (hfree : 0 < freeCount s)
    (hu : u = claimBuffer (.branchAnswer b) [] s) (ht : SameBut e u t) (hb : .buffers ∉ e) (hf : .flags ∉ e) :
    answerBufferClaimed b s t ∧ t.flags = claimedFlags s ∧ SameBut ([.buffers, .flags] ++ e) s t := by
  subst hu
  obtain ⟨⟨n, hfirst, hlow, hn, hother⟩, hflags, hsame⟩ := claimBuffer_claims (b := b) hfree
  have hbuffers : t.buffers = (claimBuffer (.branchAnswer b) [] s).buffers := ht.2 .buffers (by decide) hb
  refine ⟨⟨n, hfirst, hlow, by rw [hbuffers]; exact hn, fun j hj => by rw [hbuffers]; exact hother j hj⟩,
    (ht.2 .flags (by decide) hf).trans hflags, hsame.trans_append ht⟩

theorem requestFrame_of {i : RecordIndex} {s t : State} (hline : t.records[i].lineAddress = s.records[i].lineAddress)
    (hframe : heldFrame (.request i) t = heldFrame (.request i) s) : requestFrame i t = recordFrame i s := by
  unfold requestFrame recordFrame frameToSend
  rw [hline, hframe]

/-- The grant of a TRANSPARENT or DEFERRED record (R81). -/
theorem grantRecord_granted (b : Branch) (i : RecordIndex) {s : State} (hfree : 0 < freeCount s) :
    let t := grantRecord b i s
    t.branches[b] = grantedBranch s.branches[b] i (recordFrame i s) s.branches[b].lastServed ∧
      t.records[i] = { s.records[i] with state := .onLine } ∧ (∀ k ≠ i, t.records[k] = s.records[k]) ∧
      answerBufferClaimed b s t ∧ t.flags = claimedFlags s ∧ SameBut [.branch b, .records, .buffers, .flags] s t := by
  let u := claimBuffer (.branchAnswer b) [] s
  let v := modifyRecord i (fun r => { r with state := .onLine }) (dequeue b i u)
  have hu : u.records = s.records ∧ u.branches = s.branches :=
    ⟨claimBuffer_records .., claimBuffer_branches ..⟩
  have hv : SameBut ([.branch b] ++ [.records] ++ [.branch b]) u (assign b i (requestFrame i v) v) :=
    ((modifyBranch_sameBut b _ u).trans_append (modifyRecord_sameBut i _ _)).trans_append (assign_sameBut b i _ v)
  obtain ⟨hclaim, hflags, hsame⟩ := claimed_then hfree rfl hv (by simp) (by simp)
  have hrecord : v.records[i] = { s.records[i] with state := .onLine } := by
    rw [← hu.1]
    exact updateAt_same ..
  have hframe : requestFrame i v = recordFrame i s :=
    requestFrame_of (by rw [hrecord])
      (heldFrame_claimBuffer_other (h := .branchAnswer b) (g := .request i) nofun nofun [] s)
  refine ⟨?_, hrecord, fun k hk => (modifyRecord_other i hk _ _).trans (by rw [← hu.1]; rfl), hclaim, hflags,
    hsame.mono (by simp)⟩
  refine (assign_branch b i _ v).trans ?_
  have hbranch : v.branches[b] = { s.branches[b] with queue := s.branches[b].queue.filter fun j => j != i } := by
    rw [← hu.2]
    exact modifyBranch_same ..
  rw [hbranch, hframe]
  rfl

/-- The grant of a GROUP record (R62, R81). -/
theorem grantGroup_granted (b : Branch) (i : RecordIndex) (s : State) :
    let t := grantGroup b i s
    t.branches[b] = grantedBranch s.branches[b] i (recordFrame i s) s.branches[b].lastServed ∧
      t.records[i] = { s.records[i] with
        pendingSet := setWithout s.records[i].pendingSet b, sendingSet := setWith s.records[i].sendingSet b } ∧
      (∀ k ≠ i, t.records[k] = s.records[k]) ∧ SameBut [.branch b, .records] s t := by
  let v := modifyRecord i
    (fun r => { r with pendingSet := setWithout r.pendingSet b, sendingSet := setWith r.sendingSet b }) (dequeue b i s)
  have hrecord : v.records[i] = { s.records[i] with
      pendingSet := setWithout s.records[i].pendingSet b, sendingSet := setWith s.records[i].sendingSet b } :=
    updateAt_same ..
  have hframe : requestFrame i v = recordFrame i s := requestFrame_of (by rw [hrecord]) rfl
  have hbranch : v.branches[b] = { s.branches[b] with queue := s.branches[b].queue.filter fun j => j != i } :=
    modifyBranch_same ..
  refine ⟨(assign_branch b i _ v).trans ?_, hrecord, fun k hk => modifyRecord_other i hk _ _, ?_⟩
  · rw [hbranch, hframe]
    rfl
  · exact (((modifyBranch_sameBut b _ s).trans_append (modifyRecord_sameBut i _ _)).trans_append
      (assign_sameBut b i _ v)).mono (by simp)

/-- The grant of a DUE slot (R53, R81, R134). -/
theorem grantSlot_granted {b : Branch} {k : SlotIndex} {i : RecordIndex} {c : SlotConfig} {s : State}
    (hfree : 0 < freeCount s) (hi : lowestFreeRecord s = some i) (hc : s.slots[k].config = some c) :
    let t := grantSlot b k s
    t.branches[b] = { grantedBranch s.branches[b] i { address := c.lineAddress, data := c.template }
        s.branches[b].lastServed with queue := s.branches[b].queue } ∧
      t.records[i] = cyclicRecord b k c.lineAddress ∧ (∀ j ≠ i, t.records[j] = s.records[j]) ∧
      t.slots[k] = { s.slots[k] with state := .onLine } ∧ (∀ j ≠ k, t.slots[j] = s.slots[j]) ∧
      answerBufferClaimed b s t ∧ t.flags = claimedFlags s ∧
      SameBut [.branch b, .records, .buffers, .flags, .slots] s t := by
  let u := claimBuffer (.branchAnswer b) [] s
  let v := modifySlot k (fun x => { x with state := .onLine })
    (modifyRecord i (fun _ => cyclicRecord b k c.lineAddress) u)
  let f : TxFrame := { address := c.lineAddress, data := c.template }
  have heq : grantSlot b k s = assign b i f v := by
    unfold grantSlot
    rw [hi, hc]
  have hu : u.records = s.records ∧ u.branches = s.branches ∧ u.slots = s.slots :=
    ⟨claimBuffer_records .., claimBuffer_branches .., claimBuffer_slots ..⟩
  have hv : SameBut ([.records] ++ [.slots] ++ [.branch b]) u (assign b i f v) :=
    ((modifyRecord_sameBut i _ u).trans_append (modifySlot_sameBut k _ _)).trans_append (assign_sameBut b i f v)
  obtain ⟨hclaim, hflags, hsame⟩ := claimed_then hfree rfl hv (by simp) (by simp)
  have hkept : (assign b i f v).records = v.records ∧ (assign b i f v).slots = v.slots :=
    ⟨(assign_sameBut b i f v).2 .records (by decide) (by simp), (assign_sameBut b i f v).2 .slots (by decide) (by simp)⟩
  have hrecord : v.records[i] = cyclicRecord b k c.lineAddress := updateAt_same u.records i _
  have hother : ∀ j ≠ i, v.records[j] = s.records[j] := fun j hj =>
    (updateAt_other u.records _ hj).trans (by rw [hu.1])
  have hslot : v.slots[k] = { s.slots[k] with state := .onLine } :=
    (updateAt_same u.slots k _).trans (by rw [hu.2.2])
  have hslots : ∀ j ≠ k, v.slots[j] = s.slots[j] := fun j hj => (updateAt_other u.slots _ hj).trans (by rw [hu.2.2])
  have hbranch : v.branches[b] = s.branches[b] := by
    rw [← hu.2.1]
    rfl
  rw [heq]
  dsimp only
  rw [hkept.1, hkept.2]
  refine ⟨(assign_branch b i f v).trans ?_, hrecord, hother, hslot, hslots, hclaim, hflags, hsame.mono (by simp)⟩
  rw [hbranch]
  rfl

/-! ### The choice -/

theorem exec_arbitration {b : Branch} {s : State} (hr : s.inReset = false) :
    exec (.arbitration b) s = .next (arbitrate b s) := by
  change Host.Outcome.next (if s.inReset then s else arbitrate b s) = _
  rw [hr]
  rfl

theorem freeCount_pos_of_gateOpen {s : State} (h : gateOpen s = true) : 0 < freeCount s := by
  simp only [gateOpen, decide_eq_true_eq] at h
  omega

theorem hasWork_of_find {b : Branch} {s : State} {q : RecordIndex → Bool} {i : RecordIndex}
    (h : s.branches[b].queue.find? q = some i) : hasWork s b = true := by
  have hmem := List.mem_of_find?_eq_some h
  unfold hasWork
  cases hq : s.branches[b].queue with
  | nil => rw [hq] at hmem; simp at hmem
  | cons _ _ => rfl

theorem arbitrate_granted {b : Branch} {s t : State} (hidle : s.branches[b].status = .idle) (hw : hasWork s b = true)
    (h : chooseGrant b s = some t) : arbitrate b s = t := by
  unfold arbitrate
  rw [if_pos hidle, if_pos hw, h]

theorem tryTransparent_of_candidate {b : Branch} {s : State} {i : RecordIndex}
    (hi : transparentCandidate b s = some i) (hg : gateOpen s = true) :
    tryTransparent b s = some (grantRecord b i s) := by
  unfold tryTransparent
  rw [hi]
  exact if_pos hg

theorem tryTransparent_eq_none {b : Branch} {s : State} (h : transparentReady b s = false) :
    tryTransparent b s = none := by
  unfold tryTransparent
  unfold transparentReady at h
  cases hi : transparentCandidate b s with
  | none => rfl
  | some i =>
    rw [hi] at h
    exact if_neg (by simpa using h)

theorem tryQueueClass_eq_none {b : Branch} {s : State} (h : queueReady b s = false) : tryQueueClass b s = none := by
  unfold tryQueueClass
  unfold queueReady at h
  cases hi : queueCandidate b s with
  | none => rfl
  | some i =>
    rw [hi] at h
    obtain ⟨hkind, hgate⟩ := Bool.or_eq_false_iff.mp h
    exact (if_neg (by simpa using hkind)).trans (if_neg (by simp [hgate]))

theorem tryPollClass_eq_none {b : Branch} {s : State} (h : pollReady b s = false) : tryPollClass b s = none := by
  unfold tryPollClass
  unfold pollReady at h
  cases hk : lowestDueSlot s b with
  | none => rfl
  | some k =>
    rw [hk] at h
    exact if_neg (by simpa using h)

/-- The queue class is chosen when it was not served last, or the poll class cannot be granted (R79). -/
theorem chooseGrant_queue {b : Branch} {s t : State} (ht : transparentReady b s = false)
    (hp : s.branches[b].lastServed = .poll ∨ pollReady b s = false) (h : tryQueueClass b s = some t) :
    chooseGrant b s = some t := by
  unfold chooseGrant
  rw [tryTransparent_eq_none ht]
  cases hm : s.branches[b].lastServed with
  | poll => simp [h]
  | queue =>
    have hnone := tryPollClass_eq_none (hp.resolve_left (by rw [hm]; decide))
    simp [h, hnone]

/-- The poll class is chosen when it was not served last, or the queue class cannot be granted (R79). -/
theorem chooseGrant_poll {b : Branch} {s t : State} (ht : transparentReady b s = false)
    (hq : s.branches[b].lastServed = .queue ∨ queueReady b s = false) (h : tryPollClass b s = some t) :
    chooseGrant b s = some t := by
  unfold chooseGrant
  rw [tryTransparent_eq_none ht]
  cases hm : s.branches[b].lastServed with
  | queue => simp [h]
  | poll =>
    have hnone := tryQueueClass_eq_none (hq.resolve_left (by rw [hm]; decide))
    simp [h, hnone]

theorem chooseGrant_eq_none {b : Branch} {s : State} (ht : transparentReady b s = false)
    (hq : queueReady b s = false) (hp : pollReady b s = false) : chooseGrant b s = none := by
  unfold chooseGrant
  rw [tryTransparent_eq_none ht, tryQueueClass_eq_none hq, tryPollClass_eq_none hp]
  cases s.branches[b].lastServed <;> rfl

theorem config_of_lowestDueSlot {b : Branch} {k : SlotIndex} {s : State} (h : lowestDueSlot s b = some k) :
    ∃ c, s.slots[k].config = some c := by
  have hslot := (lowestIndex_eq_some.mp h).1
  unfold slotDueOn at hslot
  cases hc : s.slots[k].config with
  | none =>
    rw [hc] at hslot
    simp at hslot
  | some c => exact ⟨c, rfl⟩

/-- Settles O48: each candidate's grant by its class, and the choice among them by the marker. -/
theorem arbitrationGrants : Obligations.ArbitrationGrants := by
  unfold Obligations.ArbitrationGrants
  intro b s hr hidle x
  refine ⟨fun i hi hgate => ?_, fun ht hclass hready i hi => ?_, fun ht hclass hready => ?_⟩
  · have hchoice : chooseGrant b s = some (grantRecord b i s) := by
      unfold chooseGrant
      rw [tryTransparent_of_candidate hi hgate]
    refine ⟨_, (exec_arbitration hr).trans (congrArg _ (arbitrate_granted hidle (hasWork_of_find hi) hchoice)), ?_⟩
    exact grantRecord_granted b i (freeCount_pos_of_gateOpen hgate)
  · have hw : hasWork s b = true := hasWork_of_find hi
    by_cases hg : s.records[i].kind = some .group
    · have htry : tryQueueClass b s = some (setServed b .queue (grantGroup b i s)) := by
        unfold tryQueueClass
        rw [hi]
        exact if_pos hg
      obtain ⟨hbranch, hrecord, hothers, hsame⟩ := grantGroup_granted b i s
      refine ⟨_, (exec_arbitration hr).trans
        (congrArg _ (arbitrate_granted hidle hw (chooseGrant_queue ht hclass htry))), ?_, hothers, ?_⟩
      · rw [setServed_branch, hbranch]
        rfl
      · rw [if_pos hg]
        exact ⟨hrecord, hsame.trans ((setServed_sameBut b _ _).mono (by simp))⟩
    · have hgate : gateOpen s = true := by
        unfold queueReady at hready
        rw [hi] at hready
        simp only [Bool.or_eq_true, beq_iff_eq] at hready
        exact hready.resolve_left hg
      have htry : tryQueueClass b s = some (setServed b .queue (grantRecord b i s)) := by
        unfold tryQueueClass
        rw [hi]
        exact (if_neg hg).trans (if_pos hgate)
      obtain ⟨hbranch, hrecord, hothers, hclaim, hflags, hsame⟩ :=
        grantRecord_granted b i (freeCount_pos_of_gateOpen hgate)
      refine ⟨_, (exec_arbitration hr).trans
        (congrArg _ (arbitrate_granted hidle hw (chooseGrant_queue ht hclass htry))), ?_, hothers, ?_⟩
      · rw [setServed_branch, hbranch]
        rfl
      · rw [if_neg hg]
        exact ⟨hrecord, hclaim, hflags, hsame.trans ((setServed_sameBut b _ _).mono (by simp))⟩
  · unfold pollReady at hready
    simp only [Bool.and_eq_true, decide_eq_true_eq] at hready
    obtain ⟨⟨hdue, hgate⟩, hfree⟩ := hready
    obtain ⟨k, hk⟩ := Option.isSome_iff_exists.mp hdue
    obtain ⟨i, hi⟩ := lowestFreeRecord_of_freeRecords (s := s) (by omega)
    obtain ⟨c, hc⟩ := config_of_lowestDueSlot hk
    have hw : hasWork s b = true := by simp [hasWork, hk]
    have htry : tryPollClass b s = some (setServed b .poll (grantSlot b k s)) := by
      unfold tryPollClass
      rw [hk]
      exact if_pos ⟨hgate, hfree⟩
    obtain ⟨hbranch, hrecord, hothers, hslot, hslots, hclaim, hflags, hsame⟩ :=
      grantSlot_granted (b := b) (freeCount_pos_of_gateOpen hgate) hi hc
    refine ⟨k, i, c, hk, hi, hc, _, (exec_arbitration hr).trans
      (congrArg _ (arbitrate_granted hidle hw (chooseGrant_poll ht hclass htry))), ?_, hrecord, hothers, hslot, hslots,
      hclaim, hflags, hsame.trans ((setServed_sameBut b _ _).mono (by simp))⟩
    rw [setServed_branch, hbranch]
    rfl

/-- Settles O49: outside IDLE nothing, without work the end of a stall, with work but no grant its beginning. -/
theorem arbitrationStalls : Obligations.ArbitrationStalls := by
  unfold Obligations.ArbitrationStalls
  intro b s hr x
  rw [exec_arbitration hr]
  refine ⟨fun hs => congrArg _ (if_neg hs), fun hidle hw => ⟨_, rfl, ?_⟩, fun hidle hw ht hq hp => ⟨_, rfl, ?_⟩⟩
  · have heq : arbitrate b s = modifyBranch b (fun y => { y with stalled := false }) s := by
      unfold arbitrate
      rw [if_pos hidle, if_neg (by simp [hw])]
    rw [heq]
    exact ⟨modifyBranch_same .., modifyBranch_sameBut b _ s⟩
  · have heq : arbitrate b s = stallBranch b s := by
      unfold arbitrate
      rw [if_pos hidle, if_pos hw, chooseGrant_eq_none ht hq hp]
    rw [heq]
    unfold stallBranch
    cases hst : s.branches[b].stalled with
    | true =>
      refine ⟨?_, .refl _ s⟩
      rw [if_pos rfl]
      simp [x, ← hst]
    | false => exact ⟨(modifyBranch_same ..).trans (by simp [x]), modifyBranch_sameBut b _ s⟩

end Sys2Proof.Machine
end

section
/-! The clean end of a branch's transmission, and the timers of records, branches and slots (chapters 3, 4 and 7). -/

namespace Sys2Proof.Machine

-- The gate's memory limit counts every thread's arena, so the declarations are elaborated one after another.
set_option Elab.async false

/-! ### Group records and the entry to IDLE -/

/-- A branch leaves a GROUP record: freed when both sets are then empty, else written (R62). -/
theorem groupLeave_left (b : Branch) (i : RecordIndex) (s : State) :
    let p := setWithout s.records[i].pendingSet b
    let g := setWithout s.records[i].sendingSet b
    let t := groupLeave b i s
    (∀ k ≠ i, t.records[k] = s.records[k]) ∧
      (p = 0 ∧ g = 0 → t.records[i] = Record.free ∧ heldFrame (.request i) t = none) ∧
      (¬ (p = 0 ∧ g = 0) → t.records[i] = { s.records[i] with pendingSet := p, sendingSet := g } ∧
        SameBut [.records] s t) ∧
      SameBut ([.records, .completions, .buffers] ++ branchParts) s t := by
  dsimp only
  let f : Record → Record := fun r =>
    { r with pendingSet := setWithout r.pendingSet b, sendingSet := setWithout r.sendingSet b }
  have hrecord : (modifyRecord i f s).records[i] = f s.records[i] := updateAt_same ..
  have hother : ∀ k ≠ i, (modifyRecord i f s).records[k] = s.records[k] := fun k hk => modifyRecord_other i hk f s
  have heq : groupLeave b i s =
      if setWithout s.records[i].pendingSet b = 0 ∧ setWithout s.records[i].sendingSet b = 0 then
        freeRecord i (modifyRecord i f s) else modifyRecord i f s := by
    unfold groupLeave
    dsimp only
    rw [hrecord]
  by_cases h : setWithout s.records[i].pendingSet b = 0 ∧ setWithout s.records[i].sendingSet b = 0
  · rw [heq, if_pos h]
    refine ⟨fun k hk => ?_, fun _ => ⟨?_, heldFrame_freeRecord_request ..⟩, fun hn => absurd h hn, ?_⟩
    · rw [freeRecord_records, if_neg hk, hother k hk]
    · rw [freeRecord_records, if_pos rfl]
    · exact ((modifyRecord_sameBut i f s).mono (by simp)).trans (freeRecord_sameBut i _)
  · rw [heq, if_neg h]
    exact ⟨hother, fun hy => absurd hy h, fun _ => ⟨hrecord, modifyRecord_sameBut i f s⟩,
      (modifyRecord_sameBut i f s).mono (by simp)⟩

theorem enterIdle_sameBut (b : Branch) (s : State) : SameBut [.branch b, .flags] s (enterIdle b s) := by
  rw [enterIdle_eq]
  refine (modifyBranch_sameBut b (fun x => { x.rated with status := .idle }) s).trans_append (f := [.flags]) ⟨rfl, ?_⟩
  intro p _ hp
  cases p with
  | flags => simp at hp
  | pins => exact ⟨rfl, rfl, rfl⟩
  | lastCommand => exact ⟨rfl, rfl⟩
  | params | trunk | branch | bankA | bankB | activeBank | records | tagCounter | completions | slots | buffers => rfl

/-- With no frame open on the port the entry to IDLE touches the branch alone (R89). -/
theorem enterIdle_sameBut_of_hunt {b : Branch} {s : State} (h : s.branches[b].port.rx = .hunt) :
    SameBut [.branch b] s (enterIdle b s) := by
  have hflags : (enterIdle b s).flags = s.flags := by rw [enterIdle_flags, ratedFlags_of_hunt h]
  exact SameBut.without (e := [.branch b]) (p := .flags) (enterIdle_sameBut b s) hflags

/-- The branch that enters IDLE with no frame open on its port (R89). -/
theorem enterIdle_branch_of_hunt {b : Branch} {s : State} (h : s.branches[b].port.rx = .hunt) :
    (enterIdle b s).branches[b] = { s.branches[b] with
      port := underRate s.branches[b].pendingRate s.branches[b].port, pendingRate := none, status := .idle } := by
  rw [enterIdle_branch, BranchState.rated_kept, BranchState.rated_port_of_hunt h]

/-! ### The clean end -/

/-- The branch whose frame has been sent, before the table is told (R83). -/
def sentBranch (b : Branch) (s : State) : State :=
  modifyBranch b (fun x => { x with contentionRun := 0 }) (transmissionComplete (.branch b) s)

theorem sentBranch_branch (b : Branch) (s : State) :
    (sentBranch b s).branches[b] = { s.branches[b] with port := s.branches[b].port.sent, contentionRun := 0 } := by
  unfold sentBranch
  rw [modifyBranch_same, transmissionComplete_eq, modifyPort_branch_same]

theorem sentBranch_sameBut (b : Branch) (s : State) : SameBut [.branch b] s (sentBranch b s) :=
  (modifyPort_sameBut (.branch b) _ s).trans (modifyBranch_sameBut b _ _)

theorem sendCompleted_eq {b : Branch} {i : RecordIndex} {s : State} (h : s.branches[b].onLine = some i) :
    sendCompleted b s =
      let u := countAttempt i (sentBranch b s)
      if isStationKind u.records[i] then
        modifyBranch b (fun x => { x with
          status := .await, windowTimer := some { count := 0, limit := x.responseWindow } }) u
      else enterIdle b (dropAssignment b (groupLeave b i u)) := by
  have honLine : (sentBranch b s).branches[b].onLine = some i := by
    rw [sentBranch_branch]
    exact h
  unfold sendCompleted
  dsimp only
  split
  · rename_i hnone
    exact absurd (honLine.symm.trans hnone) nofun
  · rename_i j hj
    obtain rfl : i = j := Option.some.inj (honLine.symm.trans hj)
    rfl

theorem countAttempt_record (i : RecordIndex) (s : State) : (countAttempt i s).records[i] =
    if s.records[i].kind = some .transparent ∨ s.records[i].kind = some .deferred then
      { s.records[i] with attempts := s.records[i].attempts + 1 } else s.records[i] := updateAt_same ..

theorem countAttempt_of_group {i : RecordIndex} {s : State} (h : s.records[i].kind = some .group) :
    countAttempt i s = s := by
  have hkind : ¬ (s.records[i].kind = some .transparent ∨ s.records[i].kind = some .deferred) := by
    rw [h]
    decide
  exact congrArg (fun v => { s with records := v }) (updateAt_self (if_neg hkind))

theorem isStationKind_countAttempt (i : RecordIndex) (s : State) :
    isStationKind (countAttempt i s).records[i] = isStationKind s.records[i] := by
  rw [countAttempt_record]
  split <;> rfl

/-- The attempt counted of a station record (R83, R84). -/
theorem countAttempt_station {i : RecordIndex} {s : State} (h : isStationKind s.records[i] = true) :
    (countAttempt i s).records[i] = if s.records[i].kind = some .cyclic then s.records[i]
      else { s.records[i] with attempts := s.records[i].attempts + 1 } := by
  rw [countAttempt_record]
  revert h
  unfold isStationKind
  cases s.records[i].kind with
  | none => simp
  | some k => cases k <;> simp

theorem dropAssignment_branch (b : Branch) (s : State) :
    (dropAssignment b s).branches[b] = { s.branches[b] with onLine := none } := modifyBranch_same ..

theorem dropAssignment_sameBut (b : Branch) (s : State) : SameBut [.branch b] s (dropAssignment b s) :=
  modifyBranch_sameBut b _ s

/-- Settles O50: a station record's branch waits under its window, a group's is free for its next work. -/
theorem branchSendCompletes : Obligations.BranchSendCompletes := by
  unfold Obligations.BranchSendCompletes
  intro b i s hr hsend honLine x r q
  have hexec : exec (.branchSendComplete b) s = .next (sendCompleted b s) := exec_sentRow (p := .branch b) hr hsend
  have hsent := sentBranch_branch b s
  have hrecords : (sentBranch b s).records = s.records := (sentBranch_sameBut b s).2 .records (by decide) (by simp)
  have hstation : isStationKind (countAttempt i (sentBranch b s)).records[i] = isStationKind r := by
    rw [isStationKind_countAttempt, hrecords]
  rw [hexec, sendCompleted_eq honLine]
  dsimp only
  rw [hstation]
  refine ⟨fun hkind => ⟨_, congrArg _ (if_pos hkind), (modifyBranch_same ..).trans ?_, ?_, fun k hk => ?_, ?_⟩,
    fun hkind => ⟨_, congrArg _ (if_neg (by rw [isStationKind, hkind]; decide)), ?_⟩⟩
  · rw [show (countAttempt i (sentBranch b s)).branches[b] = _ from hsent]
    rfl
  · refine (countAttempt_station (s := sentBranch b s) ?_).trans ?_
    · rw [hrecords]
      exact hkind
    · rw [hrecords]
  · refine (modifyRecord_other i hk _ (sentBranch b s)).trans ?_
    rw [hrecords]
  · exact (((sentBranch_sameBut b s).trans_append (modifyRecord_sameBut i _ _)).trans_append
      (modifyBranch_sameBut b _ _)).mono (by simp)
  · let v := groupLeave b i (sentBranch b s)
    have hcount : countAttempt i (sentBranch b s) = sentBranch b s :=
      countAttempt_of_group (by rw [hrecords]; exact hkind)
    rw [hcount]
    obtain ⟨hothers, hfreed, hwritten, hsame⟩ := groupLeave_left b i (sentBranch b s)
    rw [hrecords] at hothers hfreed hwritten
    have hbranch : (dropAssignment b v).branches[b] = { v.branches[b] with onLine := none } := dropAssignment_branch b v
    have hkept := (groupLeave_queuesOnly b i (sentBranch b s) b).eq
    rw [hsent] at hkept
    have hhunt : (dropAssignment b v).branches[b].port.rx = .hunt := by
      rw [hbranch, hkept]
      rfl
    have hidle := enterIdle_branch_of_hunt hhunt
    rw [hbranch, hkept] at hidle
    have hlast : SameBut [.branch b] v (enterIdle b (dropAssignment b v)) :=
      (dropAssignment_sameBut b v).trans (enterIdle_sameBut_of_hunt hhunt)
    have hbuffers : (enterIdle b (dropAssignment b v)).buffers = v.buffers := hlast.2 .buffers (by decide) (by simp)
    have hpart : Part.branch b ∈ branchParts := by fin_cases b <;> decide
    rw [hidle, enterIdle_records]
    refine ⟨rfl, rfl, rfl, rfl, rfl, fun d hd => ?_, hothers, fun hempty => ?_, fun hleft => ?_, ?_⟩
    · rw [enterIdle_branch_other hd, show (dropAssignment b v).branches[d] = _ from modifyBranch_other hd _ v]
      have hd' : (sentBranch b s).branches[d] = s.branches[d] := by
        unfold sentBranch
        rw [modifyBranch_other hd, transmissionComplete_eq, modifyPort_branch_other hd]
      rw [← hd']
      exact groupLeave_queuesOnly b i (sentBranch b s) d
    · obtain ⟨hrecord, hframe⟩ := hfreed hempty
      exact ⟨hrecord, (heldFrame_of_buffers hbuffers _).trans hframe⟩
    · obtain ⟨hrecord, hsets⟩ := hwritten hleft
      exact ⟨hrecord, (((sentBranch_sameBut b s).trans_append hsets).trans_append hlast).mono (by simp)⟩
    · refine (((sentBranch_sameBut b s).trans_append hsame).trans_append hlast).mono fun p hp => ?_
      simp only [List.mem_append, List.mem_cons, List.not_mem_nil, or_false] at hp ⊢
      rcases hp with (rfl | (rfl | rfl | rfl) | h) | rfl
      · exact .inr hpart
      · exact .inl (.inl rfl)
      · exact .inl (.inr (.inr rfl))
      · exact .inl (.inr (.inl rfl))
      · exact .inr h
      · exact .inr hpart

end Sys2Proof.Machine
end

section
/-! The expiries of the HOLD, quarantine and slot timers (R67, R95, R132, R133, R180). -/

namespace Sys2Proof.Machine

-- The gate's memory limit counts every thread's arena, so the declarations are elaborated one after another.
set_option Elab.async false

theorem outsideReset_of_running {f : State → State} {s : State} (hr : s.inReset = false) :
    outsideReset f s = .next (f s) := by
  unfold outsideReset
  rw [hr]
  rfl

/-! ### HOLD -/

theorem holdExpire_ended {i : RecordIndex} {b : Branch} {s : State} (he : s.records[i].state = .ended)
    (hb : s.records[i].branch = some b) :
    holdExpire i s = freeRecord i (raise .uncollected
      (modifyBranchCounters b (fun c => { c with uncollected := countUp c.uncollected }) s)) := by
  unfold holdExpire
  refine (if_pos he).trans ?_
  rw [hb]

theorem holdExpire_uncollected {i : RecordIndex} {b : Branch} {s : State} (he : s.records[i].state = .ended)
    (hb : s.records[i].branch = some b) : let t := holdExpire i s
    t.records[i] = Record.free ∧ (∀ j ≠ i, t.records[j] = s.records[j]) ∧ heldFrame (.answer i) t = none ∧
      t.completions = s.completions.filter (fun j => j != i) ∧ t.flags = s.flags ||| flagMask .uncollected ∧
      t.branches[b].counters =
        { s.branches[b].counters with uncollected := countUp s.branches[b].counters.uncollected } ∧
      (∀ d ≠ b, otherBranchKept s.branches[d] t.branches[d]) ∧
      SameBut ([.records, .completions, .buffers, .flags] ++ branchParts) s t := by
  let u := modifyBranchCounters b (fun c => { c with uncollected := countUp c.uncollected }) s
  have hpart : Part.branch b ∈ branchParts := by fin_cases b <;> decide
  rw [holdExpire_ended he hb]
  refine ⟨?_, fun j hj => ?_, heldFrame_freeRecord_answer .., freeRecord_completions .., freeRecord_flags .., ?_,
    fun d hd => ?_, ?_⟩
  · rw [freeRecord_records, if_pos rfl]
  · rw [freeRecord_records, if_neg hj]
    rfl
  · rw [(freeRecord_queuesOnly i (raise .uncollected u) b).eq]
    exact modifyBranchCounters_counters b (fun c => { c with uncollected := countUp c.uncollected }) s
  · have hother : (raise .uncollected u).branches[d] = s.branches[d] := modifyBranch_other hd _ s
    rw [← hother]
    exact freeRecord_queuesOnly i (raise .uncollected u) d
  · refine (((modifyBranchCounters_sameBut b _ s).trans_append (raise_sameBut .uncollected u)).trans_append
      (freeRecord_sameBut i _)).mono fun p hp => ?_
    simp only [List.mem_append, List.mem_cons, List.not_mem_nil, or_false] at hp ⊢
    rcases hp with (rfl | rfl) | (h | h | h) | h
    · exact .inr hpart
    · simp
    · simp [h]
    · simp [h]
    · simp [h]
    · exact .inr h

/-! ### Quarantine -/

theorem quarantineExpire_waits {b : Branch} {s : State}
    (h : s.branches[b].status ≠ .fault ∨ s.branches[b].quarantineTimer = none) : quarantineExpire b s = s := by
  refine if_neg fun ⟨hfault, htimer⟩ => ?_
  rcases h with h | h
  · exact h hfault
  · rw [h] at htimer
    cases htimer

/-- A branch in FAULT holds no rate, so its return to IDLE touches nothing of its line (R95, R97). -/
theorem quarantineExpire_returns {b : Branch} {s : State} (hfault : s.branches[b].status = .fault)
    (htimer : s.branches[b].quarantineTimer.isSome = true) (hs : branchAgrees s.branches[b] = true) :
    let t := quarantineExpire b s
    t.branches[b] = { s.branches[b] with status := .idle, contentionRun := 0, quarantineTimer := none } ∧
      SameBut [.branch b] s t := by
  let v := modifyBranch b (fun x => { x with contentionRun := 0, quarantineTimer := none }) s
  have hv : v.branches[b] = { s.branches[b] with contentionRun := 0, quarantineTimer := none } := modifyBranch_same ..
  have hrate : v.branches[b].pendingRate = none := by
    rw [hv]
    exact pendingRate_of_not_onLine (x := s.branches[b]) hs (by rw [hfault]; rfl)
  have hrated : v.branches[b].rated = v.branches[b] := by
    unfold BranchState.rated
    rw [hrate]
  have heq : quarantineExpire b s = enterIdle b v := if_pos ⟨hfault, htimer⟩
  have hflags : (enterIdle b v).flags = v.flags := by
    rw [enterIdle_flags]
    unfold ratedFlags
    rw [hrate]
    rfl
  rw [heq]
  refine ⟨?_, (modifyBranch_sameBut b _ s).trans
    (SameBut.without (e := [.branch b]) (p := .flags) (enterIdle_sameBut b v) hflags)⟩
  rw [enterIdle_branch, hrated, hv]

/-! ### Slots -/

/-- The expiry of a running slot that is not ARMED is an overrun (R133). -/
theorem slotExpire_of_busy {k : SlotIndex} {c : SlotConfig} {s : State} (hc : s.slots[k].config = some c)
    (hr : s.slots[k].state.running = true) (ha : s.slots[k].state ≠ .armed) :
    slotExpire k s = raise .pollOverrun
      (modifySlot k (fun x => { x with countdown := c.period, overruns := countUp x.overruns }) s) := by
  unfold slotExpire slotOverrun
  rw [hc]
  cases hst : s.slots[k].state with
  | unset => rw [hst] at hr; cases hr
  | stopped => rw [hst] at hr; cases hr
  | armed => exact absurd hst ha
  | due => exact congrArg (raise .pollOverrun) (modifySlot_modifySlot ..)
  | onLine => exact congrArg (raise .pollOverrun) (modifySlot_modifySlot ..)
  | stopping => exact congrArg (raise .pollOverrun) (modifySlot_modifySlot ..)

theorem slotExpire_idle {k : SlotIndex} {s : State} (h : s.slots[k].config = none ∨ s.slots[k].state.running = false) :
    slotExpire k s = s := by
  unfold slotExpire
  cases hc : s.slots[k].config with
  | none => rfl
  | some c =>
    have hr := h.resolve_left (by rw [hc]; exact nofun)
    cases hst : s.slots[k].state with
    | unset | stopped => rfl
    | armed | due | onLine | stopping =>
      rw [hst] at hr
      cases hr

/-- The part once RESTART has been executed and answered (R178, R179). -/
def restarted (seq : Byte) (u : State) : State := buildResponse 0x2F#8 seq (okay [] (restartPart u))

theorem restarted_inReset (seq : Byte) (u : State) : (restarted seq u).inReset = u.inReset := by
  unfold restarted
  rw [buildResponse_inReset]
  rfl

/-- RESTART leaves its response waiting, with nothing counted (R178, R179). -/
theorem Received.response_of_restart {s u : State} (hu : Received s u) (seq : Byte) :
    restartResponseWaits (restarted seq u) = true := by
  have hassembly : (Sys2Proof.Machine.heldFrame .trunkAssembly (restartPart u)).isSome = true := by
    rw [heldFrame_restartPart_assembly]
    exact hu.assembly
  obtain ⟨-, howed, htx, hcode, -⟩ :=
    hu.answered 0x2F#8 seq .ok (data := []) (by simp) (v := restartPart u) rfl hassembly
  have hgood : (restarted seq u).trunk.port.counters.framesRxGood = 0 := by
    refine groupCounters_restartPart .trunk u _ ?_
    have hgroup := groupCounters_buildResponse .trunk 0x2F#8 seq (okay [] (restartPart u))
    rw [show groupCounters .trunk (restartPart u) = _ from hgroup.symm]
    simp [groupCounters, trunkCounterList, restarted, okay]
  unfold restartResponseWaits
  rw [show (restarted seq u).lastCode = _ from hcode, show (restarted seq u).trunk.owed = _ from howed,
    show (restarted seq u).trunk.port.tx = _ from htx, hgood]
  rfl

theorem restartSlot_armed {x : Slot} (h : (restartSlot x).state.running = true) :
    (restartSlot x).state = .armed ∧ restartSlot (restartSlot x) = restartSlot x := by
  obtain ⟨state, config, countdown, overruns, misses, seq, age⟩ := x
  cases state with
  | unset | stopped | stopping => cases h
  | armed | due | onLine => exact ⟨rfl, rfl⟩

/-- An expiry taken directly behind a RESTART does not happen (R180). -/
theorem Received.slotExpiry_overtaken {s u : State} (hu : Received s u) (seq : Byte) (k : SlotIndex) :
    slotExpiryTaken k (restarted seq u) = restarted seq u := by
  have hslot : (restarted seq u).slots[k] = restartSlot u.slots[k] := by
    unfold restarted
    rw [buildResponse_slots]
    exact restartPart_slots u k
  unfold slotExpiryTaken
  cases hrun : (restarted seq u).slots[k].state.running with
  | false => rw [slotExpire_idle (.inr hrun), ite_self]
  | true =>
    rw [hslot] at hrun
    obtain ⟨harmed, hagain⟩ := restartSlot_armed hrun
    refine if_pos ?_
    unfold justRestarted
    rw [hu.response_of_restart seq, hslot, harmed, hagain]
    simp

/-- Settles O54: each timer's own expiry, and the slot expiry that a RESTART overtakes. -/
theorem timersExpire : Obligations.TimersExpire := by
  unfold Obligations.TimersExpire
  intro i b k s hr x y
  have hhold : exec (.holdExpiry i) s = .next (holdExpire i s) := outsideReset_of_running hr
  have hquarantine : exec (.quarantineExpiry b) s = .next (quarantineExpire b s) := outsideReset_of_running hr
  have hslot : exec (.slotExpiry k) s = .next (slotExpiryTaken k s) := outsideReset_of_running hr
  have htaken : justRestarted k s = false → slotExpiryTaken k s = slotExpire k s := fun h => if_neg (by simp [h])
  rw [hhold, hquarantine, hslot]
  refine ⟨fun he => congrArg _ (if_neg he), fun he hb => ⟨_, rfl, holdExpire_uncollected he hb⟩,
    fun h => congrArg _ (quarantineExpire_waits h), fun hf ht hs => ⟨_, rfl, quarantineExpire_returns hf ht (hs b)⟩,
    fun h => ?_, fun h => congrArg _ (if_pos h), fun seq hs => ?_, fun c hc hrun hj => ⟨_, rfl, ?_⟩⟩
  · refine congrArg _ ?_
    unfold slotExpiryTaken
    rw [slotExpire_idle h, ite_self]
  · obtain ⟨u, hu, hexec⟩ := row_received (i := .restart seq) (c := .restart) rfl (by simp) hs (by simp)
    have hrun : exec (.slotExpiry k) (restarted seq u) = .next (restarted seq u) :=
      (outsideReset_of_running ((restarted_inReset seq u).trans (hu.inReset.trans hr))).trans
      (congrArg _ (hu.slotExpiry_overtaken seq k))
    unfold runRows runRows runRows
    rw [show exec (.restart seq) s = .next (restarted seq u) from hexec]
    dsimp only
    rw [hrun]
  · rw [htaken hj]
    by_cases ha : y.state = .armed
    · rw [if_neg (not_not_intro ha), slotExpire_of_armed hc ha]
      cases hin : inService s c.branch with
      | true =>
        rw [if_pos rfl, if_pos rfl]
        exact ⟨fun j hj => modifySlot_other hj _ s, (updateAt_same ..).trans rfl, modifySlot_sameBut k _ s⟩
      | false =>
        let u := modifySlot k (fun z => { z with countdown := c.period, misses := missUp z.misses }) s
        rw [if_neg Bool.false_ne_true, if_neg Bool.false_ne_true]
        refine ⟨fun j hj => modifySlot_other hj _ s, updateAt_same .., ?_, ?_⟩
        · exact modifyBranch_same c.branch _ u
        · exact ((modifySlot_sameBut k _ s).trans_append (modifyBranchCounters_sameBut c.branch _ u)).mono (by simp)
    · rw [if_pos ha, slotExpire_of_busy hc hrun ha]
      refine ⟨fun j hj => modifySlot_other hj _ s, updateAt_same .., rfl,
        ((modifySlot_sameBut k _ s).trans_append (raise_sameBut .pollOverrun _)).mono (by simp)⟩

end Sys2Proof.Machine
end

section
/-!
What leaves the part's agreement alone: the changes that neither the branches' agreement, nor the records with their
queues, slots and buffers, nor the owed reply can see.
-/

namespace Sys2Proof.Machine

-- The gate's memory limit counts every thread's arena, so the declarations are elaborated one after another.
set_option Elab.async false

/-! ### Changes that no agreement sees -/

/-- Every branch keeps its agreement, state and work; records, completion list, slots, the buffers of each holder, the
owed reply and what the trunk port does stay. -/
structure Unmoved (s t : State) : Prop where
  branches : ∀ b : Branch, branchAgrees s.branches[b] = true → branchAgrees t.branches[b] = true
  work : ∀ b : Branch, t.branches[b].status = s.branches[b].status ∧ t.branches[b].queue = s.branches[b].queue ∧
    t.branches[b].onLine = s.branches[b].onLine
  records : t.records = s.records
  completions : t.completions = s.completions
  slots : t.slots = s.slots
  held : ∀ h : Holder, h ≠ .free → heldCount h t = heldCount h s
  owed : t.trunk.owed = s.trunk.owed
  tx : t.trunk.port.tx.sending = s.trunk.port.tx.sending ∧ t.trunk.port.tx.leading = s.trunk.port.tx.leading
  rx : storing .trunk t = storing .trunk s ∧ (s.trunk.port.rx = .hunt → t.trunk.port.rx = .hunt)
  lastCode : t.lastCode = s.lastCode

theorem Unmoved.refl (s : State) : Unmoved s s :=
  ⟨fun _ => id, fun _ => ⟨rfl, rfl, rfl⟩, rfl, rfl, rfl, fun _ _ => rfl, rfl, ⟨rfl, rfl⟩, ⟨rfl, id⟩, rfl⟩

theorem Unmoved.trans {s t u : State} (h1 : Unmoved s t) (h2 : Unmoved t u) : Unmoved s u where
  branches b h := h2.branches b (h1.branches b h)
  work b := by
    obtain ⟨a1, a2, a3⟩ := h1.work b
    obtain ⟨b1, b2, b3⟩ := h2.work b
    exact ⟨b1.trans a1, b2.trans a2, b3.trans a3⟩
  records := h2.records.trans h1.records
  completions := h2.completions.trans h1.completions
  slots := h2.slots.trans h1.slots
  held h hf := (h2.held h hf).trans (h1.held h hf)
  owed := h2.owed.trans h1.owed
  tx := ⟨h2.tx.1.trans h1.tx.1, h2.tx.2.trans h1.tx.2⟩
  rx := ⟨h2.rx.1.trans h1.rx.1, fun h => h2.rx.2 (h1.rx.2 h)⟩
  lastCode := h2.lastCode.trans h1.lastCode

/-- What touches only the counters, flags, parameters, straps, banks, tags and the last sequence. -/
theorem unmoved_of_same {s t : State} (hb : t.branches = s.branches) (hr : t.records = s.records)
    (hc : t.completions = s.completions) (hs : t.slots = s.slots) (hu : t.buffers = s.buffers)
    (ho : t.trunk.owed = s.trunk.owed) (ht : t.trunk.port.tx = s.trunk.port.tx)
    (hx : t.trunk.port.rx = s.trunk.port.rx) (hl : t.lastCode = s.lastCode) : Unmoved s t where
  branches b h := by rwa [hb]
  work b := by rw [hb]; exact ⟨rfl, rfl, rfl⟩
  records := hr
  completions := hc
  slots := hs
  held h _ := by unfold heldCount; rw [hu]
  owed := ho
  tx := by rw [ht]; exact ⟨rfl, rfl⟩
  rx := ⟨by unfold storing State.port; rw [hx], fun h => hx.trans h⟩
  lastCode := hl

theorem raise_unmoved (f : Flag) (s : State) : Unmoved s (raise f s) :=
  unmoved_of_same rfl rfl rfl rfl rfl rfl rfl rfl rfl

theorem modifyTrunkCounters_unmoved (f : TrunkCounters → TrunkCounters) (s : State) :
    Unmoved s (modifyTrunkCounters f s) :=
  unmoved_of_same rfl rfl rfl rfl rfl rfl rfl rfl rfl

theorem setBank_unmoved (k : Bank) (v : Vector RouteEntry Config.entryCount) (s : State) :
    Unmoved s (setBank k v s) := by
  cases k <;> exact unmoved_of_same rfl rfl rfl rfl rfl rfl rfl rfl rfl

theorem writeBuffer_unmoved {h : Holder} (chars : List Byte) (s : State) : Unmoved s (writeBuffer h chars s) where
  branches _ := id
  work _ := ⟨rfl, rfl, rfl⟩
  records := rfl
  completions := rfl
  slots := rfl
  held _ _ := heldCount_writeBuffer ..
  owed := rfl
  tx := ⟨rfl, rfl⟩
  rx := ⟨rfl, id⟩
  lastCode := rfl

/-- A branch changed in what neither its agreement nor its work sees. -/
theorem modifyBranch_unmoved {b : Branch} {f : BranchState → BranchState} {s : State}
    (hf : branchAgrees s.branches[b] = true → branchAgrees (f s.branches[b]) = true)
    (hw : (f s.branches[b]).status = s.branches[b].status ∧ (f s.branches[b]).queue = s.branches[b].queue ∧
      (f s.branches[b]).onLine = s.branches[b].onLine) : Unmoved s (modifyBranch b f s) where
  branches d h := by
    by_cases hd : d = b
    · subst hd
      rw [modifyBranch_same]
      exact hf h
    · rwa [modifyBranch_other hd]
  work d := by
    by_cases hd : d = b
    · subst hd
      rw [modifyBranch_same]
      exact hw
    · rw [modifyBranch_other hd]
      exact ⟨rfl, rfl, rfl⟩
  records := rfl
  completions := rfl
  slots := rfl
  held _ _ := rfl
  owed := rfl
  tx := ⟨rfl, rfl⟩
  rx := ⟨rfl, id⟩
  lastCode := rfl

theorem modifyBranchCounters_unmoved (b : Branch) (f : BranchCounters → BranchCounters) (s : State) :
    Unmoved s (modifyBranchCounters b f s) := modifyBranch_unmoved id ⟨rfl, rfl, rfl⟩

/-- A branch that hears its line is not OFF (R21). -/
theorem status_of_hears {b : Branch} {s : State} (h : hears s (.branch b) = true) : s.branches[b].status ≠ .off := by
  unfold hears at h
  simp only [Bool.and_eq_true, bne_iff_ne] at h
  exact h.2

/-- A change of a port that leaves what it sends, with its branch not OFF. -/
theorem branchAgrees_port {x : BranchState} {q : PortState} (hx : branchAgrees x = true) (hoff : x.status ≠ .off)
    (hs : q.tx.sending = x.port.tx.sending) (hl : q.tx.leading = x.port.tx.leading) :
    branchAgrees { x with port := q } = true := by
  obtain ⟨h1, h2, h3, h4, h5, h6, h7, h8, -⟩ := branchAgrees_iff.mp hx
  refine branchAgrees_iff.mpr ⟨?_, ?_, h3, h4, h5, h6, h7, h8, fun e => absurd e hoff⟩
  · rw [hl]
    exact h1
  · rw [hs]
    exact h2

/-- The port is not that of an OFF branch. -/
def awake (p : Port) (s : State) : Prop :=
  match p with
  | .trunk => True
  | .branch b => s.branches[b].status ≠ .off

theorem awake_of_hears {p : Port} {s : State} (h : hears s p = true) : awake p s := by
  cases p with
  | trunk => trivial
  | branch b => exact status_of_hears h

/-- A change of a port that leaves what it sends and, on the trunk, what it receives. -/
theorem modifyPort_unmoved {p : Port} {f : PortState → PortState} {s : State} (ha : awake p s)
    (hs : (f (s.port p)).tx.sending = (s.port p).tx.sending) (hl : (f (s.port p)).tx.leading = (s.port p).tx.leading)
    (hr : p = .trunk → (f (s.port p)).rx = (s.port p).rx) : Unmoved s (modifyPort p f s) := by
  cases p with
  | trunk =>
    have hrx := hr rfl
    exact ⟨fun _ => id, fun _ => ⟨rfl, rfl, rfl⟩, rfl, rfl, rfl, fun _ _ => rfl, rfl, ⟨hs, hl⟩,
      ⟨by unfold storing; exact congrArg (fun x : RxState => match x with
        | .assemble a => a.stored
        | .hunt | .discard => false) hrx, fun h => hrx.trans h⟩, rfl⟩
  | branch b => exact modifyBranch_unmoved (fun h => branchAgrees_port h ha hs hl) ⟨rfl, rfl, rfl⟩

/-- A change of a port that leaves its two sides alone. -/
theorem modifyPort_unmoved_of_line {p : Port} {f : PortState → PortState} {s : State} (ha : awake p s)
    (hf : ∀ q, (f q).tx = q.tx ∧ (f q).rx = q.rx) : Unmoved s (modifyPort p f s) :=
  modifyPort_unmoved ha (by rw [(hf _).1]) (by rw [(hf _).1]) fun _ => (hf _).2

/-- Nothing of a port is moved by its counters, an OFF branch's either. -/
theorem modifyPortCounters_unmoved (p : Port) (f : PortCounters → PortCounters) (s : State) :
    Unmoved s (modifyPortCounters p f s) := by
  cases p with
  | trunk => exact unmoved_of_same rfl rfl rfl rfl rfl rfl rfl rfl rfl
  | branch b => exact modifyBranch_unmoved id ⟨rfl, rfl, rfl⟩

theorem Unmoved.awake {s t : State} (h : Unmoved s t) {p : Port} (ha : awake p s) : Sys2Proof.Machine.awake p t := by
  cases p with
  | trunk => trivial
  | branch b =>
    show t.branches[b].status ≠ .off
    rw [(h.work b).1]
    exact ha

theorem Unmoved.status {s t : State} (h : Unmoved s t) (b : Branch) : t.branches[b].status = s.branches[b].status :=
  (h.work b).1

theorem Unmoved.sending {s t : State} (h : Unmoved s t) :
    t.trunk.port.tx.sending = s.trunk.port.tx.sending := h.tx.1

theorem characterEnds_unmoved {p : Port} {s : State} (ha : awake p s) : Unmoved s (characterEnds p s) :=
  modifyPort_unmoved_of_line ha fun _ => ⟨rfl, rfl⟩

/-- The receive side of a branch is nothing to any agreement while it hears its line. -/
theorem setRx_branch_unmoved {b : Branch} {x : RxState} {s : State} (ha : awake (.branch b) s) :
    Unmoved s (setRx (.branch b) x s) := modifyPort_unmoved ha rfl rfl nofun

theorem countTruncated_unmoved (p : Port) (s : State) : Unmoved s (countTruncated p s) :=
  (modifyPortCounters_unmoved p _ s).trans (raise_unmoved _ _)

theorem storeChars_unmoved (p : Port) (stored : Bool) (chars : List Byte) (s : State) :
    Unmoved s (storeChars p stored chars s) := by
  unfold storeChars
  split
  · exact writeBuffer_unmoved chars s
  · exact .refl s

theorem countGood_unmoved (p : Port) (s : State) : Unmoved s (countGood p s) := modifyPortCounters_unmoved p _ s

theorem hitEntry_unmoved (j : Fin Config.entryCount) (s : State) : Unmoved s (hitEntry j s) := setBank_unmoved _ _ s

theorem truncateOpen_branch_unmoved {b : Branch} {s : State} (ha : awake (.branch b) s) :
    Unmoved s (truncateOpen (.branch b) s) := by
  unfold truncateOpen
  split
  · exact .refl s
  · exact setRx_branch_unmoved ha
  · exact (setRx_branch_unmoved ha).trans (countTruncated_unmoved _ _)

end Sys2Proof.Machine
end

section
/-!
The induction over a step, once for every invariant: what each event must keep, and that every step is made of these
events.
-/

namespace Sys2Proof.Machine

-- The gate's memory limit counts every thread's arena, so the declarations are elaborated one after another.
set_option Elab.async false

/-! ### Further changes that no agreement sees -/

theorem branchAgrees_under {x : BranchState} (h : branchAgrees x = true) (q : Param) (n : Nat) (b : Branch) :
    branchAgrees (branchUnder q n b x) = true := by
  obtain ⟨h1, h2, h3, h4, h5, h6, h7, h8, h9⟩ := branchAgrees_iff.mp h
  have hport : ∀ r : PortState, r.tx = x.port.tx → (portSilent x.port = true → portSilent r = true) →
      branchAgrees { x with port := r } = true := fun r htx hsilent => by
    refine branchAgrees_iff.mpr ⟨?_, ?_, h3, h4, h5, h6, h7, h8, fun e => hsilent (h9 e)⟩
    · rw [htx]
      exact h1
    · rw [htx]
      exact h2
  unfold branchUnder
  split
  · split
    · rename_i hon
      exact branchAgrees_iff.mpr ⟨h1, h2, h3, h4, h5, .inr hon, h7, h8, h9⟩
    · refine hport _ rfl fun hsilent => ?_
      unfold portSilent at hsilent ⊢
      simp only [Bool.and_eq_true] at hsilent ⊢
      obtain ⟨⟨⟨⟨⟨htx, -⟩, -⟩, hbreak⟩, -⟩, hrest⟩ := hsilent
      exact ⟨⟨⟨⟨⟨htx, rfl⟩, rfl⟩, hbreak⟩, rfl⟩, hrest⟩
  · split
    · exact hport _ rfl id
    · split
      · exact hport _ rfl id
      · repeat' split
        all_goals exact h

theorem branchUnder_work (q : Param) (n : Nat) (b : Branch) (x : BranchState) :
    (branchUnder q n b x).status = x.status ∧ (branchUnder q n b x).queue = x.queue ∧
      (branchUnder q n b x).onLine = x.onLine := by
  unfold branchUnder
  repeat' split
  all_goals exact ⟨rfl, rfl, rfl⟩

theorem storeParam_unmoved (q : Param) (v : Word) (s : State) : Unmoved s (storeParam q v s) := by
  obtain ⟨-, hsame⟩ := storeParam_sameBut q v s
  have htrunk := storeParam_trunk q v s
  refine ⟨fun b h => ?_, fun b => ?_, hsame .records (by decide) (by decide),
    hsame .completions (by decide) (by decide),
    hsame .slots (by decide) (by decide), fun h _ => ?_, ?_, ?_, ⟨?_, fun h => ?_⟩,
    (hsame .lastCommand (by decide) (by decide)).1⟩
  · rw [storeParam_branches]
    exact branchAgrees_under h q v.toNat b
  · rw [storeParam_branches]
    exact branchUnder_work q v.toNat b _
  · unfold heldCount
    rw [show (storeParam q v s).buffers = s.buffers from hsame .buffers (by decide) (by decide)]
  · rw [htrunk]
  · rw [htrunk]
    exact ⟨rfl, rfl⟩
  · unfold storing State.port
    rw [htrunk]
  · rw [htrunk]
    exact h

theorem clearGroup_unmoved (p : Port) (s : State) : Unmoved s (clearGroup p s) := by
  cases p with
  | trunk =>
    exact (modifyPortCounters_unmoved .trunk (fun _ => .zero) s).trans (modifyTrunkCounters_unmoved (fun _ => .zero) _)
  | branch b =>
    exact (modifyPortCounters_unmoved (.branch b) (fun _ => .zero) s).trans
      (modifyBranchCounters_unmoved b (fun _ => .zero) _)

theorem cmdSwapBanks_unmoved (s : State) : Unmoved s (cmdSwapBanks s).state :=
  unmoved_of_same rfl rfl rfl rfl rfl rfl rfl rfl rfl

theorem flags_unmoved (flags : BitVec 12) (s : State) : Unmoved s { s with flags := flags } :=
  unmoved_of_same rfl rfl rfl rfl rfl rfl rfl rfl rfl

/-- A DISCARD, or a followed frame, that ends in HUNT. -/
theorem setRx_hunt_unmoved {s : State} (h : storing .trunk s = false) : Unmoved s (setRx .trunk .hunt s) where
  branches _ := id
  work _ := ⟨rfl, rfl, rfl⟩
  records := rfl
  completions := rfl
  slots := rfl
  held _ _ := rfl
  owed := rfl
  tx := ⟨rfl, rfl⟩
  rx := ⟨h.symm, fun _ => rfl⟩
  lastCode := rfl

/-- A frame goes on in the trunk's assembly, stored or followed as it was. -/
theorem setRx_open_unmoved {a b : Assembly} {s : State} (h : s.trunk.port.rx = .assemble a) (hb : b.stored = a.stored) :
    Unmoved s (setRx .trunk (.assemble b) s) where
  branches _ := id
  work _ := ⟨rfl, rfl, rfl⟩
  records := rfl
  completions := rfl
  slots := rfl
  held _ _ := rfl
  owed := rfl
  tx := ⟨rfl, rfl⟩
  rx := ⟨by unfold storing State.port; rw [h]; exact hb, fun hrx => by rw [h] at hrx; cases hrx⟩
  lastCode := rfl

/-- Contention leaves a branch in IDLE or in FAULT, which hears its line (R84). -/
theorem awake_sentContended (p : Port) (s : State) : awake p (sentContended p s) := by
  cases p with
  | trunk => trivial
  | branch b =>
    show (sendContended b s).branches[b].status ≠ .off
    by_cases h : s.branches[b].contentionRun < 2
    · obtain ⟨queue, stalled, heq⟩ := sendContended_branch_idle h
      rw [heq]
      exact nofun
    · rw [sendContended_branch_fault (Nat.le_of_not_lt h)]
      exact nofun

theorem receiveAddress_trunk_sending (a : Byte) (s : State) :
    (receiveAddress .trunk a s).trunk.port.tx.sending = s.trunk.port.tx.sending := by
  have hclaim : ∀ u : State, (trunkClaim a u).trunk.port.tx = u.trunk.port.tx := fun u => by
    unfold trunkClaim
    split
    · rfl
    · unfold openFrame setRx
      rw [modifyPort_trunk, claimBuffer_trunk]
  unfold receiveAddress trunkFrameStarts
  dsimp only
  split
  · split
    · rfl
    · rw [hclaim]
      rfl
  all_goals
    rw [hclaim]
    rfl

/-! ### The events of a step -/

/-- Where the trunk stands in a step: no frame in hand, a whole stored one in hand, or one that has superseded
(R104). -/
inductive Phase where
  | clear
  | taken
  | superseding

/-- What every event of a step must keep of a family of predicates, one for each phase of the trunk. -/
structure StepInvariant (P : Phase → State → Prop) : Prop where
  unmoved : ∀ {ph : Phase} {s t : State}, Unmoved s t → P ph s → P ph t
  reset : ∀ (a : BitVec 3) (r : BitVec 2) (held : Bool) (waiting : List Instr), P .clear (resetPart a r held waiting)
  /-- The trunk's receive side. -/
  frameStarts : ∀ (c : Byte) {s : State}, s.trunk.port.tx.sending = false → P .clear s → P .clear (trunkFrameStarts c s)
  assemblyEnds : ∀ (x : RxState) {s : State}, x = .hunt ∨ x = .discard ∧ s.trunk.port.tx.sending = false →
    P .clear s → P .clear (returnBuffer .trunkAssembly (setRx .trunk x s))
  frameTaken : ∀ {s : State}, storing .trunk s = true → P .clear s → P .taken (setRx .trunk .hunt s)
  supersedesFollowed : ∀ {s : State}, s.trunk.port.rx = .hunt → s.trunk.port.tx.sending = false → P .clear s →
    P .clear (supersede s)
  supersedes : ∀ {s : State}, s.trunk.port.rx = .hunt → s.trunk.port.tx.sending = false → P .taken s →
    P .superseding (supersede s)
  /-- What becomes of a frame in hand. -/
  dropped : ∀ {s : State}, P .superseding s → P .clear (returnBuffer .trunkAssembly s)
  group : ∀ (line : Byte) (x : BranchSet) {i : RecordIndex} {s : State}, inServiceSet s x ≠ 0 →
    lowestFreeRecord s = some i → P .superseding s →
    P .clear (enqueueGroup (inServiceSet s x) i
      (modifyRecord i (fun _ => groupRecord line (inServiceSet s x)) (handOver .trunkAssembly (.request i) s)))
  transparent : ∀ (a line : Byte) {b : Branch} (retries : Nat) (notify : Bool) {i : RecordIndex} {s : State},
    inService s b = true → lowestFreeRecord s = some i → P .superseding s →
    P .clear (setOwed (.pendingAnswer i) (enqueueHead b i (modifyRecord i
      (fun _ => transparentRecord a line b retries notify) (handOver .trunkAssembly (.request i) s))))
  proxy : ∀ (a reason : Byte) {s : State}, P .superseding s → P .clear (oweProxy .trunkAssembly a reason s)
  answered : ∀ (code seq : Byte) {r : Reply}, P .superseding r.state → P .clear (buildResponse code seq r)
  replayed : ∀ {s : State}, s.lastCode.isSome = true → P .superseding s → P .clear (replayLast s)
  /-- The trunk's transmit side. -/
  replyStarts : ∀ {f : TxFrame} {s : State}, s.trunk.port.tx = .lead f → P .clear s →
    P .clear (modifyPort .trunk (fun q => { q with tx := .send f 0, lineRest := 0 }) (truncateOpen .trunk s))
  replySent : ∀ {s : State}, s.trunk.port.tx.sending = true → P .clear s → P .clear (trunkSent s)
  replyLost : ∀ {s : State}, s.trunk.port.tx.sending = true → P .clear s → P .clear (trunkContended s)
  /-- The branches. -/
  branchSends : ∀ {b : Branch} {f : TxFrame} {s : State}, s.branches[b].port.tx = .lead f → awake (.branch b) s →
    P .clear s → P .clear (setStatus b .send (modifyPort (.branch b)
      (fun q => { q with tx := .send f 0, lineRest := 0 }) (truncateOpen (.branch b) s)))
  answerBegins : ∀ {b : Branch} {s : State}, s.branches[b].status = .await ∨ s.branches[b].status = .recv →
    P .clear s → P .clear (modifyBranch b (fun x => { x with status := .recv, windowTimer := none }) s)
  attemptOver : ∀ {b : Branch} (o : ExchangeOutcome) {s : State},
    s.branches[b].status = .await ∨ s.branches[b].status = .recv → P .clear s → P .clear (attemptEnds b o s)
  answerJudged : ∀ {b : Branch} (a : Byte) {s : State}, s.branches[b].status = .recv → P .clear s →
    P .clear (answerGood b a s)
  sendDone : ∀ {b : Branch} {s : State}, s.branches[b].port.tx.sending = true → P .clear s →
    P .clear (sendCompleted b s)
  sendLost : ∀ {b : Branch} {s : State}, s.branches[b].port.tx.sending = true → P .clear s →
    P .clear (sendContended b s)
  arbitrated : ∀ (b : Branch) {s : State}, P .clear s → P .clear (arbitrate b s)
  /-- The timers. -/
  millisecond : ∀ {s : State}, P .clear s → P .clear (countMillisecond s)
  quarantine : ∀ (b : Branch) {s : State}, P .clear s → P .clear (quarantineExpire b s)
  hold : ∀ (i : RecordIndex) {s : State}, P .clear s → P .clear (holdExpire i s)
  slotExpired : ∀ {ph : Phase} (k : SlotIndex) {s : State}, P ph s → P ph (slotExpire k s)
  /-- The commands. -/
  submitted : ∀ (a line : Byte) (data : List Byte) (e : RouteEntry) {i : RecordIndex} {s : State},
    inService s (stationBranch e) = true → lowestFreeRecord s = some i → gateOpen s = true → P .superseding s →
    P .superseding (createDeferred i a data e s)
  collected : ∀ {i : RecordIndex} {s : State},
    i ∈ s.completions ∨ s.records[i].kind = some .deferred ∧ s.records[i].state ≠ .onLine → P .superseding s →
    P .superseding (freeRecord i s)
  cancelled : ∀ {i : RecordIndex} {s : State}, s.records[i].kind = some .deferred → s.records[i].state = .onLine →
    P .superseding s → P .superseding (modifyRecord i (fun r => { r with cancelPending := true }) s)
  pollSet : ∀ {k : SlotIndex} (c : SlotConfig) {s : State}, s.slots[k].state.running = false → P .superseding s →
    P .superseding (modifySlot k (fun x => { x with state := .stopped, countdown := 0, config := some c })
      (discardSnapshot k s))
  pollUnset : ∀ {k : SlotIndex} {s : State}, s.slots[k].state.running = false → P .superseding s →
    P .superseding (modifySlot k (fun x => { x with state := .unset, countdown := 0, config := none })
      (discardSnapshot k s))
  pollStarted : ∀ {k : SlotIndex} (n : Nat) {s : State}, s.slots[k].state = .stopped → P .superseding s →
    P .superseding (modifySlot k (fun x => { x with state := .armed, countdown := n }) s)
  pollStopped : ∀ (k : SlotIndex) {s : State}, P .superseding s → P .superseding (stopSlot k s)
  enabled : ∀ (b : Branch) {s : State}, P .superseding s → P .superseding (enableBranch b s)
  disabled : ∀ (b : Branch) {s : State}, P .superseding s → P .superseding (disableBranch b s)
  restarted : ∀ {s : State}, P .superseding s → P .superseding (restartPart s)

namespace StepInvariant

variable {P : Phase → State → Prop} (inv : StepInvariant P)
include inv

/-! ### The commands -/

theorem runs_setParam (index : Byte) (v : Word) {s : State} (h : P .superseding s) :
    P .superseding (cmdSetParam index v s).state := by
  unfold cmdSetParam
  repeat' split
  any_goals exact h
  exact inv.unmoved (storeParam_unmoved _ v s) h

theorem runs_readEntry (bank index clear : Byte) {s : State} (h : P .superseding s) :
    P .superseding (cmdReadEntry bank index clear s).state := by
  unfold cmdReadEntry
  split
  · dsimp only [okay]
    split
    · exact inv.unmoved (setBank_unmoved _ _ s) h
    · exact h
  · exact h

theorem runs_writeEntry (bank index : Byte) (entry : List Byte) {s : State} (h : P .superseding s) :
    P .superseding (cmdWriteEntry bank index entry s).state := by
  unfold cmdWriteEntry
  repeat' split
  any_goals exact h
  exact inv.unmoved (setBank_unmoved _ _ s) h

theorem runs_clearEntry (bank index : Byte) {s : State} (h : P .superseding s) :
    P .superseding (cmdClearEntry bank index s).state := by
  unfold cmdClearEntry
  repeat' split
  any_goals exact h
  exact inv.unmoved (setBank_unmoved _ _ s) h

theorem runs_refuseCounted (r : ResultCode) {s : State} (h : P .superseding s) :
    P .superseding (refuseCounted r s).state :=
  inv.unmoved ((modifyTrunkCounters_unmoved _ s).trans (raise_unmoved .refused _)) h

theorem runs_submit (a : Byte) (data : List Byte) {s : State} (h : P .superseding s) :
    P .superseding (cmdSubmit a data s).state := by
  unfold cmdSubmit
  split
  · exact h
  · split
    · exact inv.runs_refuseCounted _ h
    · rename_i j hj
      have hhit := inv.unmoved (hitEntry_unmoved j s) h
      generalize hitEntry j s = u at hhit
      unfold submitThrough
      dsimp only
      split
      · exact inv.runs_refuseCounted _ hhit
      split
      · exact hhit
      split
      · exact inv.runs_refuseCounted _ hhit
      rename_i hservice
      split
      · exact inv.runs_refuseCounted _ hhit
      split
      · exact inv.runs_refuseCounted _ hhit
      split
      · exact inv.runs_refuseCounted _ hhit
      rename_i hgate
      split
      · exact inv.runs_refuseCounted _ hhit
      · rename_i i hi
        exact inv.submitted a (outgoing (activeEntry s j) a) data _ (by simpa using hservice) hi
          (by simpa using hgate) hhit

theorem runs_collect (tag offset : Byte) {s : State} (h : P .superseding s) :
    P .superseding (cmdCollect tag offset s).state := by
  unfold cmdCollect
  split
  · exact h
  · rename_i i hi
    dsimp only
    split
    · exact h
    · rename_i hended
      split
      · exact h
      · dsimp only [okay]
        split
        · have hkind := (kind_of_recordOfTag hi).1
          refine inv.collected (.inr ⟨hkind, fun hline => hended ?_⟩) h
          rw [hline]
          decide
        · exact h

theorem runs_collectNext (offset : Byte) {s : State} (h : P .superseding s) :
    P .superseding (cmdCollectNext offset s).state := by
  unfold cmdCollectNext
  split
  · exact h
  · split
    · exact h
    · rename_i i rest hlist
      dsimp only [okay]
      split
      · exact inv.collected (.inl (by rw [hlist]; exact List.mem_cons_self)) h
      · exact h

theorem runs_cancel (tag : Byte) {s : State} (h : P .superseding s) : P .superseding (cmdCancel tag s).state := by
  unfold cmdCancel
  split
  · exact h
  · rename_i i hi
    obtain ⟨hkind, -⟩ := kind_of_recordOfTag hi
    cases hst : s.records[i].state with
    | onLine => exact inv.cancelled hkind hst h
    | queued | ended | free | delivering =>
      exact inv.collected (.inr ⟨hkind, by rw [hst]; decide⟩) h

theorem runs_pollSet (slot branch a : Byte) (period : Word) (template : List Byte) {s : State}
    (h : P .superseding s) : P .superseding (cmdPollSet slot branch a period template s).state := by
  unfold cmdPollSet
  split
  · exact h
  split
  · exact h
  rename_i hrun
  split
  · exact h
  split
  · exact h
  exact inv.pollSet _ (by simpa using hrun) h

theorem runs_pollSetUnset (slot : Byte) {s : State} (h : P .superseding s) :
    P .superseding (cmdPollSetUnset slot s).state := by
  unfold cmdPollSetUnset
  split
  · exact h
  split
  · exact h
  rename_i hrun
  exact inv.pollUnset (by simpa using hrun) h

theorem runs_pollStart (slot : Byte) (delay : Word) {s : State} (h : P .superseding s) :
    P .superseding (cmdPollStart slot delay s).state := by
  unfold cmdPollStart
  split
  · exact h
  · split
    any_goals exact h
    split
    · exact h
    · rename_i hstate _ _
      dsimp only [slotReply, okay]
      split
      · exact inv.slotExpired _ (inv.pollStarted _ hstate h)
      · exact inv.pollStarted _ hstate h

theorem runs_pollStop (slot : Byte) {s : State} (h : P .superseding s) : P .superseding (cmdPollStop slot s).state := by
  unfold cmdPollStop
  split
  · exact h
  · split
    · exact h
    · exact inv.pollStopped _ h

theorem runs_clearEvents (mask : Word) {s : State} (h : P .superseding s) :
    P .superseding (cmdClearEvents mask s).state := by
  unfold cmdClearEvents
  split
  · exact h
  · exact inv.unmoved (flags_unmoved _ s) h

theorem runs_readCounters (port clear : Byte) {s : State} (h : P .superseding s) :
    P .superseding (cmdReadCounters port clear s).state := by
  unfold cmdReadCounters
  split
  · dsimp only [okay]
    split
    · exact inv.unmoved (clearGroup_unmoved _ s) h
    · exact h
  · exact h

theorem runs_branchControl (branch action : Byte) {s : State} (h : P .superseding s) :
    P .superseding (cmdBranchControl branch action s).state := by
  unfold cmdBranchControl
  split
  · exact h
  split
  · exact h
  split
  · exact inv.enabled _ h
  split
  · exact inv.disabled _ h
  · exact h

/-- Every command of the set (R160, R162). -/
theorem runs_named (c : CommandCode) (args : List Byte) {s : State} (h : P .superseding s) :
    P .superseding (runNamed c args s).state := by
  have hread : ∀ i, P .superseding (cmdGetParam i s).state := fun i => by rwa [cmdGetParam_state]
  have hpoll : ∀ k, P .superseding (cmdPollRead k s).state := fun k => by rwa [cmdPollRead_state]
  have hsnap : ∀ k o, P .superseding (cmdReadSnapshot k o s).state := fun k o => by rwa [cmdReadSnapshot_state]
  unfold runNamed
  cases c with
  | identify | listPending | readEvents =>
    dsimp only
    split
    exacts [h, h]
  | getParam =>
    dsimp only
    split
    exacts [hread _, h]
  | pollRead =>
    dsimp only
    split
    exacts [hpoll _, h]
  | readSnapshot =>
    dsimp only
    split
    exacts [hsnap _ _, h]
  | setParam =>
    dsimp only
    split
    exacts [inv.runs_setParam _ _ h, h]
  | readEntry =>
    dsimp only
    split
    exacts [inv.runs_readEntry _ _ _ h, h]
  | clearEntry =>
    dsimp only
    split
    exacts [inv.runs_clearEntry _ _ h, h]
  | copyBank =>
    dsimp only
    split
    exacts [inv.unmoved (setBank_unmoved _ _ s) h, h]
  | swapBanks =>
    dsimp only
    split
    exacts [inv.unmoved (cmdSwapBanks_unmoved s) h, h]
  | submit =>
    dsimp only
    split
    exacts [inv.runs_submit _ _ h, h]
  | collect =>
    dsimp only
    split
    exacts [inv.runs_collect _ _ h, h]
  | collectNext =>
    dsimp only
    split
    exacts [inv.runs_collectNext _ h, h]
  | cancel =>
    dsimp only
    split
    exacts [inv.runs_cancel _ h, h]
  | pollSet =>
    dsimp only
    split
    exacts [inv.runs_pollSetUnset _ h, inv.runs_pollSet _ _ _ _ _ h, h]
  | pollStart =>
    dsimp only
    split
    exacts [inv.runs_pollStart _ _ h, h]
  | pollStop =>
    dsimp only
    split
    exacts [inv.runs_pollStop _ h, h]
  | clearEvents =>
    dsimp only
    split
    exacts [inv.runs_clearEvents _ h, h]
  | readCounters =>
    dsimp only
    split
    exacts [inv.runs_readCounters _ _ h, h]
  | branchControl =>
    dsimp only
    split
    exacts [inv.runs_branchControl _ _ h, h]
  | restart =>
    dsimp only
    split
    exacts [inv.restarted h, h]
  | writeEntry =>
    dsimp only
    split
    · split
      · exact inv.runs_writeEntry _ _ _ h
      · exact h
    · exact h

theorem runs_command (code : Byte) (args : List Byte) {s : State} (h : P .superseding s) :
    P .superseding (runCommand code args s).state := by
  unfold runCommand
  split
  · exact h
  · exact inv.runs_named _ args h

/-! ### The classifier -/

theorem drops (f : TrunkCounters → TrunkCounters) {s : State} (h : P .superseding s) :
    P .clear (modifyTrunkCounters f (returnBuffer .trunkAssembly s)) :=
  inv.unmoved (modifyTrunkCounters_unmoved f _) (inv.dropped h)

theorem drops_unrouted {s : State} (h : P .superseding s) : P .clear (discardUnrouted s) :=
  inv.unmoved (raise_unmoved _ _) (inv.drops _ h)

theorem manages (data : List Byte) {s : State} (h : P .superseding s) : P .clear (manage data s) := by
  unfold manage
  split
  · split
    · rename_i code seq args hreplay
      refine inv.replayed ?_ h
      unfold isReplay at hreplay
      simp only [Bool.and_eq_true, beq_iff_eq] at hreplay
      rw [hreplay.1.1]
      rfl
    · exact inv.answered _ _ (inv.runs_command _ _ h)
  · exact inv.drops _ h

theorem accepts_group (line : Byte) (x : BranchSet) {s : State} (h : P .superseding s) :
    P .clear (acceptGroup line x s) := by
  unfold acceptGroup
  dsimp only
  split
  · exact inv.drops _ h
  · rename_i hset
    split
    · exact inv.unmoved (raise_unmoved _ _) (inv.drops _ h)
    · rename_i i hi
      exact inv.group line x hset hi h

theorem refuses_transparent (a reason : Byte) (notify : Bool) {s : State} (h : P .superseding s) :
    P .clear (refuseTransparent a reason notify s) := by
  have hcounted : P .superseding (raise .refused (countRefused s)) :=
    inv.unmoved ((modifyTrunkCounters_unmoved _ s).trans (raise_unmoved _ _)) h
  unfold refuseTransparent
  dsimp only
  split
  · exact inv.proxy a reason hcounted
  · exact inv.dropped hcounted

theorem accepts_transparent (a : Byte) (e : RouteEntry) {s : State} (h : P .superseding s) :
    P .clear (acceptTransparent a e s) := by
  unfold acceptTransparent
  dsimp only
  split
  · exact inv.refuses_transparent _ _ _ h
  · rename_i hservice
    split
    · exact inv.refuses_transparent _ _ _ h
    · rename_i i hi
      exact inv.transparent a _ _ _ (by simpa using hservice) hi h

theorem classifies (a : Byte) (data : List Byte) {s : State} (h : P .superseding s) : P .clear (classify a data s) := by
  unfold classify
  split
  · exact inv.manages data h
  split
  · exact inv.drops_unrouted h
  split
  · exact inv.accepts_group _ _ h
  unfold classifyRouted
  split
  · exact inv.drops_unrouted h
  · rename_i j _
    have hhit := inv.unmoved (hitEntry_unmoved j s) h
    dsimp only
    split
    · exact inv.drops_unrouted hhit
    split
    · exact inv.drops_unrouted hhit
    split
    · exact inv.accepts_transparent a _ hhit
    · exact inv.accepts_group _ _ hhit

/-! ### The line ports -/

theorem starts_address {p : Port} (c : Byte) {s : State} (ha : awake p s)
    (hq : p = .trunk → s.trunk.port.tx.sending = false) (h : P .clear s) : P .clear (receiveAddress p c s) := by
  have hends := inv.unmoved (characterEnds_unmoved ha) h
  cases p with
  | trunk => exact inv.frameStarts c (hq rfl) hends
  | branch b =>
    unfold receiveAddress branchFrameStarts
    dsimp only
    have hu : Unmoved s (branchTruncates b (characterEnds (.branch b) s)) := by
      refine (characterEnds_unmoved ha).trans ?_
      unfold branchTruncates
      split
      · exact countTruncated_unmoved _ _
      all_goals exact .refl _
    have hcut := inv.unmoved hu h
    have hawake := hu.awake ha
    generalize branchTruncates b (characterEnds (.branch b) s) = u at hcut hawake
    have hopen : ∀ stored, P .clear (openFrame (.branch b) stored c u) := fun stored =>
      inv.unmoved (setRx_branch_unmoved hawake) hcut
    have hunsolicited : P .clear (unsolicited b (openFrame (.branch b) false c u)) :=
      inv.unmoved ((modifyBranchCounters_unmoved b _ _).trans (raise_unmoved _ _)) (hopen false)
    have hanswer : u.branches[b].status = .await ∨ u.branches[b].status = .recv → P .clear (answerStarts b c u) :=
      fun hst => by
        refine inv.unmoved ((writeBuffer_unmoved (h := .branchAnswer b) [c] _).trans
          (setRx_branch_unmoved (x := .assemble { stored := true, got := [c] }) ?_)) (inv.answerBegins hst hcut)
        show (modifyBranch b (fun x => { x with status := .recv, windowTimer := none }) u).branches[b].status ≠ .off
        rw [modifyBranch_same]
        exact nofun
    cases hst : u.branches[b].status with
    | idle | lead => exact hunsolicited
    | await => exact hanswer (.inl hst)
    | recv => exact hanswer (.inr hst)
    | off | send | fault => exact hopen false

theorem reports_failure (p : Port) (stored : Bool) {s : State} (h : P .clear s) :
    P .clear (reportFailure p stored s) := by
  unfold reportFailure
  split
  · exact h
  · split
    · rename_i hst
      simp only [Bool.and_eq_true, beq_iff_eq] at hst
      exact inv.attemptOver _ (.inr hst.2) h
    · exact h

theorem truncates {p : Port} {s : State} (ha : awake p s) (h : P .clear s) : P .clear (truncateOpen p s) := by
  cases p with
  | branch b => exact inv.unmoved (truncateOpen_branch_unmoved ha) h
  | trunk =>
    unfold truncateOpen
    cases hrx : (s.port .trunk).rx with
    | hunt => exact h
    | discard => exact inv.unmoved (setRx_hunt_unmoved (by unfold storing; rw [hrx])) h
    | assemble a => exact inv.unmoved (countTruncated_unmoved .trunk _) (inv.assemblyEnds .hunt (.inl rfl) h)

theorem cuts_short {p : Port} {s : State} (ha : awake p s) (h : P .clear s) : P .clear (cutShort p s) :=
  inv.reports_failure p _ (inv.truncates ha h)

theorem malformed {p : Port} (stored : Bool) {s : State} (ha : awake p s)
    (hq : p = .trunk → s.trunk.port.tx.sending = false) (h : P .clear s) : P .clear (malformedFrame p stored s) := by
  refine inv.reports_failure p stored ?_
  cases p with
  | trunk => exact inv.unmoved (countTruncated_unmoved .trunk _) (inv.assemblyEnds .discard (.inr ⟨rfl, hq rfl⟩) h)
  | branch b => exact inv.unmoved ((setRx_branch_unmoved ha).trans (countTruncated_unmoved _ _)) h

theorem good_trunk (stored : Bool) (chars : List Byte) {s : State} (hs : storing .trunk s = stored)
    (hq : s.trunk.port.tx.sending = false) (h : P .clear s) :
    P .clear (goodFrame .trunk stored chars (setRx .trunk .hunt s)) := by
  unfold goodFrame trunkFrameGood
  dsimp only
  have hgood := countGood_unmoved .trunk (setRx .trunk .hunt s)
  cases stored with
  | true => exact inv.classifies _ _ (inv.supersedes rfl hq (inv.unmoved hgood (inv.frameTaken hs h)))
  | false => exact inv.supersedesFollowed rfl hq (inv.unmoved ((setRx_hunt_unmoved hs).trans hgood) h)

theorem completes {p : Port} {stored : Bool} (chars : List Byte) {s : State} (ha : awake p s)
    (hs : p = .trunk → storing .trunk s = stored) (hq : p = .trunk → s.trunk.port.tx.sending = false) (h : P .clear s) :
    P .clear (frameCompletes p stored chars s) := by
  unfold frameCompletes
  dsimp only
  split
  · cases p with
    | trunk => exact inv.good_trunk stored chars (hs rfl) (hq rfl) h
    | branch b =>
      have hgood := inv.unmoved ((setRx_branch_unmoved (x := .hunt) ha).trans (countGood_unmoved (.branch b) _)) h
      unfold goodFrame
      dsimp only
      split
      · rename_i hst
        simp only [Bool.and_eq_true, beq_iff_eq] at hst
        refine inv.answerJudged _ ?_ hgood
        rw [(countGood_unmoved (.branch b) _).status]
        exact hst.2
      · exact hgood
  · refine inv.reports_failure p stored ?_
    cases p with
    | trunk =>
      exact inv.unmoved ((modifyPortCounters_unmoved .trunk
        (fun c => { c with checkErrors := countUp c.checkErrors }) _).trans
        (raise_unmoved .lineError _)) (inv.assemblyEnds .hunt (.inl rfl) h)
    | branch b =>
      exact inv.unmoved ((setRx_branch_unmoved ha).trans ((modifyPortCounters_unmoved (.branch b)
        (fun c => { c with checkErrors := countUp c.checkErrors }) _).trans (raise_unmoved .lineError _))) h

theorem takes_position {p : Port} {a : Assembly} (c : Byte) {s : State} (ha : awake p s)
    (hs : p = .trunk → s.trunk.port.rx = .assemble a) (hq : p = .trunk → s.trunk.port.tx.sending = false)
    (h : P .clear s) : P .clear (takePosition p a c s) := by
  have hu := storeChars_unmoved p a.stored (a.got ++ [c]) s
  have hstored := inv.unmoved hu h
  have hawake := hu.awake ha
  have hstoring : p = .trunk → storing .trunk (storeChars p a.stored (a.got ++ [c]) s) = a.stored := fun hp => by
    rw [hu.rx.1]
    unfold storing State.port
    rw [hs hp]
  have hquiet : p = .trunk → (storeChars p a.stored (a.got ++ [c]) s).trunk.port.tx.sending = false := fun hp =>
    hu.sending.trans (hq hp)
  have hrx : p = .trunk → (storeChars p a.stored (a.got ++ [c]) s).trunk.port.rx = .assemble a := fun hp => by
    unfold storeChars
    split <;> exact hs hp
  unfold takePosition
  dsimp only
  generalize storeChars p a.stored (a.got ++ [c]) s = u at hstored hawake hstoring hquiet hrx
  split
  · exact inv.malformed _ hawake hquiet hstored
  split
  · exact inv.completes _ hawake hstoring hquiet hstored
  · refine inv.unmoved ?_ hstored
    cases p with
    | branch b => exact setRx_branch_unmoved hawake
    | trunk => exact setRx_open_unmoved (hrx rfl) rfl

theorem receives_data {p : Port} (c : Byte) {s : State} (ha : awake p s)
    (hq : p = .trunk → s.trunk.port.tx.sending = false) (h : P .clear s) : P .clear (receiveData p c s) := by
  have hu := characterEnds_unmoved ha
  have hends := inv.unmoved hu h
  unfold receiveData
  dsimp only
  split
  · unfold dataOutside
    split
    · exact hends
    · split
      · exact inv.unmoved (raise_unmoved _ _) hends
      · exact hends
  · exact hends
  · rename_i a hrx
    refine inv.takes_position c (hu.awake ha) (fun hp => ?_) (fun hp => hu.sending.trans (hq hp)) hends
    subst hp
    exact hrx

/-! ### Echo, errors and turnaround -/

theorem sent_contended {p : Port} {s : State} (ht : (s.port p).tx.sending = true) (h : P .clear s) :
    P .clear (sentContended p s) := by
  cases p with
  | trunk => exact inv.replyLost ht h
  | branch b => exact inv.sendLost ht h

theorem echoes {p : Port} {f : TxFrame} {k : Nat} (c : Byte) (mark : Bool) {s : State} (ha : awake p s)
    (ht : (s.port p).tx = .send f k) (h : P .clear s) : P .clear (echoCharacter p f k c mark s) := by
  have hsend : (s.port p).tx.sending = true := by rw [ht]; rfl
  unfold echoCharacter
  dsimp only
  split
  · split
    · cases p with
      | trunk => exact inv.replySent hsend h
      | branch b => exact inv.sendDone hsend h
    · refine inv.unmoved (modifyPort_unmoved ha ?_ ?_ fun _ => rfl) h
      · rw [ht]
        rfl
      · rw [ht]
        rfl
  · exact inv.sent_contended hsend h

theorem hears_character (p : Port) (c : Byte) (mark : Bool) {s : State} (h : P .clear s) :
    P .clear (hearCharacter p c mark s) := by
  unfold hearCharacter
  split
  · rename_i hhears
    have ha := awake_of_hears hhears
    have hreceived : (s.port p).tx.sending = false →
        P .clear (if receives s p then (if mark then receiveAddress p c s else receiveData p c s) else s) :=
          fun hq => by
      have hq' : p = .trunk → s.trunk.port.tx.sending = false := fun hp => by
        subst hp
        exact hq
      split
      · split
        · exact inv.starts_address c ha hq' h
        · exact inv.receives_data c ha hq' h
      · exact h
    cases ht : (s.port p).tx with
    | send f k => exact inv.echoes c mark ha ht h
    | quiet => exact hreceived (by rw [ht]; rfl)
    | lead f => exact hreceived (by rw [ht]; rfl)
  · exact h

theorem hears_framingError (p : Port) {s : State} (h : P .clear s) : P .clear (hearFramingError p s) := by
  unfold hearFramingError
  split
  · rename_i hhears
    have ha := awake_of_hears hhears
    split
    · rename_i hsend
      exact inv.sent_contended hsend h
    · split
      · have hu := (characterEnds_unmoved ha).trans (raise_unmoved .lineError _)
        exact inv.cuts_short (hu.awake ha) (inv.unmoved hu h)
      · exact h
  · exact h

theorem hears_break (p : Port) {s : State} (h : P .clear s) : P .clear (hearBreak p s) := by
  unfold hearBreak
  split
  · rename_i hhears
    rw [Bool.and_eq_true] at hhears
    have ha := awake_of_hears hhears.1
    dsimp only
    have hcontended : P .clear (if (s.port p).tx.sending then sentContended p s else s) ∧
        awake p (if (s.port p).tx.sending then sentContended p s else s) := by
      split
      · rename_i hsend
        exact ⟨inv.sent_contended hsend h, awake_sentContended p s⟩
      · exact ⟨h, ha⟩
    obtain ⟨hkept, hawake⟩ := hcontended
    generalize (if (s.port p).tx.sending then sentContended p s else s) = u at hkept hawake
    have hu := (modifyPort_unmoved_of_line
        (f := fun q => { q with inBreak := true, lineRest := 0, charInProgress := false })
      hawake fun _ => ⟨rfl, rfl⟩).trans (raise_unmoved .lineError _)
    exact inv.cuts_short (hu.awake hawake) (inv.unmoved hu hkept)
  · exact h

theorem hears_breakEnd (p : Port) {s : State} (h : P .clear s) : P .clear (hearBreakEnd p s) := by
  unfold hearBreakEnd
  split
  · rename_i hhears
    rw [Bool.and_eq_true] at hhears
    exact inv.unmoved (modifyPort_unmoved_of_line (awake_of_hears hhears.1) fun _ => ⟨rfl, rfl⟩) h
  · exact h

theorem hears_startBit (p : Port) (confirmed : Bool) {s : State} (h : P .clear s) :
    P .clear (hearStartBit p confirmed s) := by
  unfold hearStartBit
  split
  · rename_i hhears
    rw [Bool.and_eq_true] at hhears
    exact inv.unmoved (modifyPort_unmoved_of_line (awake_of_hears (receives_hears hhears.1)) fun _ => ⟨rfl, rfl⟩) h
  · exact h

theorem synchronises (p : Port) {s : State} (h : P .clear s) : P .clear (synchronise p s) := by
  unfold synchronise
  split
  · rename_i hhears
    simp only [Bool.and_eq_true] at hhears
    exact inv.unmoved (modifyPort_unmoved_of_line (awake_of_hears hhears.1.1) fun _ => ⟨rfl, rfl⟩) h
  · exact h

theorem times_out (p : Port) {s : State} (h : P .clear s) : P .clear (timeoutCharacter p s) := by
  unfold timeoutCharacter
  split
  · rename_i hhears
    simp only [Bool.and_eq_true] at hhears
    have ha := awake_of_hears hhears.1.1
    have hu := modifyPort_unmoved_of_line (f := fun q => { q with
      lineRest := max q.lineRest (q.gapTimeout * characterClocks q.rate + 1) }) ha fun _ => ⟨rfl, rfl⟩
    exact inv.cuts_short (hu.awake ha) (inv.unmoved hu h)
  · exact h

theorem meets_guard (p : Port) {s : State} (h : P .clear s) : P .clear (meetGuard p s) := by
  unfold meetGuard
  split
  · rename_i f hlead
    split
    · rename_i hhears
      rw [Bool.and_eq_true] at hhears
      cases p with
      | trunk => exact inv.replyStarts hlead h
      | branch b => exact inv.branchSends hlead (awake_of_hears (receives_hears hhears.1)) h
    · exact h
  all_goals exact h

theorem hears_frame (a : Byte) (data : List Byte) {s : State} (h : P .clear s) :
    P .clear (hearTrunkFrame a data s) := by
  unfold hearTrunkFrame
  split
  · rename_i hhears
    simp only [Bool.and_eq_true, Bool.not_eq_true'] at hhears
    obtain ⟨-, hq⟩ := hhears
    dsimp only
    have hopen : P .clear (if opensWith .trunk (mkFrame a data) s then s else receiveAddress .trunk a s) ∧
        (if opensWith .trunk (mkFrame a data) s then s else receiveAddress .trunk a s).trunk.port.tx.sending =
        false := by
      split
      · exact ⟨h, hq⟩
      · exact ⟨inv.starts_address a trivial (fun _ => hq) h, (receiveAddress_trunk_sending a s).trans hq⟩
    obtain ⟨hkept, hquiet⟩ := hopen
    generalize (if opensWith .trunk (mkFrame a data) s then s else receiveAddress .trunk a s) = u at hkept hquiet
    have hu := (characterEnds_unmoved (p := .trunk) (s := u) trivial).trans
      (storeChars_unmoved .trunk (storing .trunk u) (mkFrame a data) _)
    exact inv.good_trunk _ _ hu.rx.1 (hu.sending.trans hquiet) (inv.unmoved hu hkept)
  · exact h

theorem ends_answer (b : Branch) (report : AnswerReport) {s : State} (h : P .clear s) :
    P .clear (endAnswer b report s) := by
  unfold endAnswer
  split
  · rename_i hhears
    rw [Bool.and_eq_true] at hhears
    have ha : awake (.branch b) s := awake_of_hears (receives_hears hhears.1)
    have hu := characterEnds_unmoved ha
    split
    any_goals exact h
    rename_i a _
    split
    · dsimp only
      split
      · rename_i data check _
        have hstored := hu.trans (storeChars_unmoved (.branch b) a.stored
          (frameBody (frameAddress a.got) data ++ bytesOfWord check) _)
        exact inv.completes _ (hstored.awake ha) nofun nofun (inv.unmoved hstored h)
      · exact h
    · have hline := modifyPort_unmoved_of_line (f := fun q => { q with charInProgress := false }) ha fun _ => ⟨rfl, rfl⟩
      exact inv.cuts_short (hline.awake ha) (inv.unmoved hline h)
    · split
      · exact inv.takes_position _ (hu.awake ha) nofun nofun (inv.unmoved hu h)
      · exact h
  · exact h

/-! ### The timebase -/

theorem folds {α : Type} {f : State → α → State} (hf : ∀ s a, P .clear s → P .clear (f s a)) (l : List α) {s : State}
    (h : P .clear s) : P .clear (l.foldl f s) := by
  induction l generalizing s with
  | nil => exact h
  | cons a l ih => exact ih (hf s a h)

theorem window_expires (b : Branch) {s : State} (h : P .clear s) : P .clear (windowExpire b s) := by
  unfold windowExpire
  split
  · rename_i hst
    exact inv.attemptOver _ (.inl hst) h
  · exact h

theorem branch_expires (s : State) (b : Branch) (h : P .clear s) : P .clear (branchExpiries s b) := by
  have hwindow : P .clear (if timerDone s.branches[b].windowTimer then windowExpire b s else s) := by
    split
    · exact inv.window_expires b h
    · exact h
  unfold branchExpiries
  dsimp only
  generalize (if timerDone s.branches[b].windowTimer then windowExpire b s else s) = t at hwindow
  split
  · exact inv.quarantine b hwindow
  · exact hwindow

theorem record_expires (s : State) (i : RecordIndex) (h : P .clear s) : P .clear (recordExpiry s i) := by
  unfold recordExpiry
  split
  · exact inv.hold i h
  · exact h

theorem slot_expires (s : State) (k : SlotIndex) (h : P .clear s) : P .clear (slotExpiry s k) := by
  unfold slotExpiry
  split
  · exact inv.slotExpired k h
  · exact h

theorem idles {s : State} (h : P .clear s) : P .clear (idleStep s) := by
  unfold idleStep
  split
  · exact h
  · have harbitrated : P .clear (arbitrateAll s) := inv.folds (fun u b => inv.arbitrated b) _ h
    have hbranches := inv.folds inv.branch_expires (List.finRange Config.branchCount) (inv.millisecond harbitrated)
    have hrecords := inv.folds (f := recordExpiry) inv.record_expires (List.finRange Config.recordCount) hbranches
    have hslots := inv.folds (f := slotExpiry) inv.slot_expires (List.finRange Config.slotCount) hrecords
    unfold Machine.millisecond
    exact hslots

/-! ### The rows -/

theorem next {t u : State} (h : P .clear u) (ht : (.next u : Host.Outcome State Fault Refusal) = .next t) :
    P .clear t := by
  obtain rfl := Host.Outcome.next.inj ht
  exact h

theorem runs_outside {f : State → State} {s t : State} (hf : P .clear s → P .clear (f s)) (h : P .clear s)
    (ht : outsideReset f s = .next t) : P .clear t := by
  refine inv.next (u := if s.inReset then s else f s) ?_ ht
  split
  · exact h
  · exact hf h

theorem runs_frame {a : Byte} {data : List Byte} {s t : State} (h : P .clear s) (ht : trunkFrame a data s = .next t) :
    P .clear t := by
  unfold trunkFrame at ht
  split at ht
  · exact inv.next (inv.hears_frame a data h) ht
  · simp at ht

theorem runs_row {c : Instr} {s t : State} (h : P .clear s) (ht : exec c s = .next t) : P .clear t := by
  cases c with
  | resetAsserted | resetRelease =>
    obtain ⟨a, r, held, rfl⟩ := exec_reset (by trivial) ht
    exact inv.reset a r held _
  | receiverSynchronised p => exact inv.next (inv.synchronises p h) ht
  | addressCharacter p c => exact inv.next (inv.hears_character p c true h) ht
  | dataCharacter p c => exact inv.next (inv.hears_character p c false h) ht
  | framingError p => exact inv.next (inv.hears_framingError p h) ht
  | lineBreak p => exact inv.next (inv.hears_break p h) ht
  | characterTimeout p => exact inv.next (inv.times_out p h) ht
  | guardMet p => exact inv.next (inv.meets_guard p h) ht
  | startBit p confirmed => exact inv.next (inv.hears_startBit p confirmed h) ht
  | breakEnd p => exact inv.next (inv.hears_breakEnd p h) ht
  | trunkGoodFrame a data => exact inv.runs_frame h ht
  | clearEvents | identify | getParam | setParam | readEntry | writeEntry | clearEntry | copyBank | swapBanks | submit
  | collect | collectNext | cancel | listPending | pollSet | pollSetUnset | pollStart | pollStop | pollRead
  | readSnapshot | readEvents | readCounters | branchControlQuery | branchControlDisable | branchControlEnable
  | restart =>
    exact inv.runs_frame h ((Laws.exec_commandData rfl (by simp) s).symm.trans ht)
  | arbitration b => exact inv.runs_outside (inv.arbitrated b) h ht
  | branchSendComplete b =>
    refine inv.runs_outside (f := fun s => if s.branches[b].port.tx.sending then sendCompleted b s else s)
      (fun h => ?_) h ht
    split
    · exact inv.sendDone ‹_› h
    · exact h
  | branchContention b =>
    refine inv.runs_outside (f := fun s => if s.branches[b].port.tx.sending then sendContended b s else s)
      (fun h => ?_) h ht
    split
    · exact inv.sendLost ‹_› h
    · exact h
  | responseWindowExpiry b => exact inv.runs_outside (inv.window_expires b) h ht
  | answerEnd b report =>
    change execAnswerEnd b report s = _ at ht
    unfold execAnswerEnd at ht
    split at ht
    · exact inv.next (inv.ends_answer b report h) ht
    · simp at ht
  | quarantineExpiry b => exact inv.runs_outside (inv.quarantine b) h ht
  | holdExpiry i => exact inv.runs_outside (inv.hold i) h ht
  | slotExpiry k =>
    refine inv.runs_outside (f := slotExpiryTaken k) (fun h => ?_) h ht
    unfold slotExpiryTaken
    split
    · exact h
    · exact inv.slotExpired k h
  | trunkReplySent =>
    refine inv.runs_outside (f := fun s => if s.trunk.port.tx.sending then trunkSent s else s) (fun h => ?_) h ht
    split
    · exact inv.replySent ‹_› h
    · exact h
  | trunkContention =>
    refine inv.runs_outside (f := fun s => if s.trunk.port.tx.sending then trunkContended s else s) (fun h => ?_) h ht
    split
    · exact inv.replyLost ‹_› h
    · exact h

/-- Every step keeps what its events keep. -/
theorem steps {s t : State} (h : P .clear s) (ht : step s = .next t) : P .clear t := by
  rcases step_cases ht with ⟨-, rfl⟩ | ⟨c, rest, -, hc⟩
  · exact inv.idles h
  · exact inv.runs_row (s := { s with pending := rest })
      (inv.unmoved (s := s) (unmoved_of_same rfl rfl rfl rfl rfl rfl rfl rfl rfl) h) hc

end StepInvariant

end Sys2Proof.Machine
end

section
/-!
Every event keeps each branch in agreement with itself, and settlement of the statement that every step does (sections
4.1, 4.3, 4.5 and 4.6).
-/

namespace Sys2Proof.Machine

-- The gate's memory limit counts every thread's arena, so the declarations are elaborated one after another.
set_option Elab.async false

/-- The transmit side of a branch that is neither in LEAD nor in SEND is quiet (R76). -/
theorem tx_quiet_of_agrees {x : BranchState} (h : branchAgrees x = true) (hl : x.status ≠ .lead)
    (hs : x.status ≠ .send) :
    x.port.tx = .quiet := by
  obtain ⟨hlead, hsend, -⟩ := branchAgrees_iff.mp h
  cases htx : x.port.tx with
  | quiet => rfl
  | lead f => exact absurd (hlead.mp (by rw [htx]; rfl)) hl
  | send f k => exact absurd (hsend.mp (by rw [htx]; rfl)) hs

/-- A branch without work on line, out of OFF and FAULT, agrees when it is in IDLE with nothing running (R76). -/
theorem branchAgrees_idle {x : BranchState} (hs : x.status = .idle) (htx : x.port.tx = .quiet) (ho : x.onLine = none)
    (hw : x.windowTimer = none) (hq : x.quarantineTimer = none) (hp : x.pendingRate = none)
    (hr : x.contentionRun < 3) : branchAgrees x = true := by
  refine branchAgrees_iff.mpr ?_
  rw [hs, htx, ho, hw, hq, hp]
  exact ⟨by decide, by decide, by decide, .inl rfl, .inl rfl, .inl rfl, Nat.le_of_lt hr, .inr (.inr hr), nofun⟩

/-- A branch without an assignment that enters IDLE with its transmit side quiet and no timer agrees (R89). -/
theorem branchAgrees_entersIdle {x : BranchState} (htx : x.port.tx = .quiet) (ho : x.onLine = none)
    (hw : x.windowTimer = none) (hq : x.quarantineTimer = none) (hr : x.contentionRun < 3) :
    branchAgrees { x.rated with status := .idle } = true := by
  have hkept := x.rated_kept
  refine branchAgrees_idle rfl ?_ ?_ ?_ ?_ x.rated_pendingRate ?_
  · exact x.rated_tx.trans htx
  all_goals rw [hkept]; assumption

/-! ### What keeps agreement -/

/-- Every branch that agreed agrees still. -/
def BranchesKept (s t : State) : Prop := ∀ b :
    Branch, branchAgrees s.branches[b] = true → branchAgrees t.branches[b] = true

theorem BranchesKept.refl (s : State) : BranchesKept s s := fun _ => id

theorem BranchesKept.trans {s t u : State} (h1 : BranchesKept s t) (h2 : BranchesKept t u) : BranchesKept s u :=
  fun b h => h2 b (h1 b h)

theorem BranchesKept.of_branches {s t : State} (h : t.branches = s.branches) : BranchesKept s t := by
  intro b hb
  rw [h]
  exact hb

theorem BranchesKept.agree {s t : State} (h : BranchesKept s t) (hs : BranchesAgree s) : BranchesAgree t :=
  fun b => h b (hs b)

theorem BranchesKept.foldl {α : Type} {f : State → α → State} (hf : ∀ s a, BranchesKept s (f s a)) (l : List α)
    (s : State) : BranchesKept s (l.foldl f s) := by
  induction l generalizing s with
  | nil => exact .refl s
  | cons a l ih => exact (hf s a).trans (ih (f s a))

/-- Queues and stalls take no part in agreement. -/
theorem otherBranchKept.agrees {x y : BranchState} (h : otherBranchKept x y) (hx : branchAgrees x = true) :
    branchAgrees y = true := by
  rw [h.eq]
  exact hx

theorem QueuesOnly.kept {s t : State} (h : QueuesOnly s t) : BranchesKept s t := fun b => (h b).agrees

theorem otherBranchKept.of_eq {x y : BranchState} (h : y = x) : otherBranchKept x y := by
  rw [h]
  rfl

theorem Unmoved.kept {s t : State} (h : Unmoved s t) : BranchesKept s t := h.branches

/-- One branch changed to one that agrees, and the others but for queues and stalls. -/
theorem branchesKept_of_one {b : Branch} {s t : State} (hb : branchAgrees s.branches[b] = true →
    branchAgrees t.branches[b] = true)
    (ho : ∀ d ≠ b, otherBranchKept s.branches[d] t.branches[d]) : BranchesKept s t := by
  intro d hd
  by_cases e : d = b
  · subst e
    exact hb hd
  · exact (ho d e).agrees hd

theorem modifyBranch_kept {b : Branch} {f : BranchState → BranchState} {s : State}
    (hf : branchAgrees s.branches[b] = true → branchAgrees (f s.branches[b]) = true) :
    BranchesKept s (modifyBranch b f s) := by
  refine branchesKept_of_one (b := b) (fun h => ?_) fun d hd => ?_
  · rw [modifyBranch_same]
    exact hf h
  · rw [modifyBranch_other hd]
    rfl

/-! ### The controllers -/

/-- The end of an attempt leaves the branch in IDLE without an assignment or a window (R89). -/
theorem attemptEnds_branch (b : Branch) (o : ExchangeOutcome) (s : State) : ∃ x : BranchState,
    (attemptEnds b o s).branches[b] = { x.rated with status := .idle } ∧ x.port = s.branches[b].port ∧ x.onLine = none ∧
      x.windowTimer = none ∧ x.quarantineTimer = s.branches[b].quarantineTimer ∧
      x.contentionRun = s.branches[b].contentionRun ∧ x.pendingRate = s.branches[b].pendingRate := by
  unfold attemptEnds
  dsimp only
  have hstopped := modifyBranch_same b (fun x => { x with windowTimer := none }) s
  generalize modifyBranch b (fun x => { x with windowTimer := none }) s = t at hstopped
  split
  · rename_i hnone
    refine ⟨t.branches[b], enterIdle_branch b t, ?_, hnone, ?_⟩ <;> rw [hstopped]
    exact ⟨rfl, rfl, rfl, rfl⟩
  · rename_i i hi
    refine ⟨_, enterIdle_branch b _, ?_⟩
    have hcount : ∀ late, ∃ c, (countResult b o late t).branches[b] = { t.branches[b] with counters := c } :=
      fun late => ⟨_, modifyBranch_same b _ t⟩
    have hreturn : ∀ u : State, (if o = .answered then u else returnBuffer (.branchAnswer b) u).branches =
        u.branches := by
      intro u
      split <;> rfl
    obtain ⟨c, hc⟩ := hcount (t.records[i].abandoned || t.records[i].cancelPending)
    have hsettled := settleAttempt_queuesOnly i b o (if o = .answered then
      countResult b o (t.records[i].abandoned || t.records[i].cancelPending) t
      else returnBuffer (.branchAnswer b) (countResult b o (t.records[i].abandoned || t.records[i].cancelPending) t)) b
    rw [hreturn] at hsettled
    unfold dropAssignment
    rw [modifyBranch_same, hsettled.eq, hc, hstopped]
    exact ⟨rfl, rfl, rfl, rfl, rfl, rfl⟩

/-- The end of an attempt leaves of every other branch all but its queue and STALLED. -/
theorem attemptEnds_branch_other {b d : Branch} (h : d ≠ b) (o : ExchangeOutcome) (s : State) :
    otherBranchKept s.branches[d] (attemptEnds b o s).branches[d] := by
  unfold attemptEnds
  dsimp only
  have hstopped := modifyBranch_other h (fun x => { x with windowTimer := none }) s
  generalize modifyBranch b (fun x => { x with windowTimer := none }) s = t at hstopped
  split
  · rw [enterIdle_branch_other h, hstopped]
    rfl
  · rename_i i hi
    rw [enterIdle_branch_other h]
    unfold dropAssignment
    rw [modifyBranch_other h]
    have hcount : ∀ late, (countResult b o late t).branches[d] = t.branches[d] := fun late => modifyBranch_other h _ t
    have hreturn : ∀ u : State, (if o = .answered then u else returnBuffer (.branchAnswer b) u).branches =
        u.branches := by
      intro u
      split <;> rfl
    have hsettled := settleAttempt_queuesOnly i b o (if o = .answered then
      countResult b o (t.records[i].abandoned || t.records[i].cancelPending) t
      else returnBuffer (.branchAnswer b) (countResult b o (t.records[i].abandoned || t.records[i].cancelPending) t)) d
    rw [hreturn, hcount, hstopped] at hsettled
    exact hsettled

/-- An attempt that ends in AWAIT or RECV leaves every branch in agreement. -/
theorem attemptEnds_branchesKept {b : Branch} (o : ExchangeOutcome) {s : State}
    (hst : s.branches[b].status = .await ∨ s.branches[b].status = .recv) : BranchesKept s (attemptEnds b o s) := by
  refine branchesKept_of_one (b := b) (fun h => ?_) fun d hd => attemptEnds_branch_other hd o s
  obtain ⟨x, hx, hport, honline, hwindow, hquarantine, hrun, -⟩ := attemptEnds_branch b o s
  obtain ⟨-, -, -, -, h5, -, -, h8, -⟩ := branchAgrees_iff.mp h
  have hne : s.branches[b].status ≠ .fault ∧ s.branches[b].status ≠ .off ∧ s.branches[b].status ≠ .lead ∧
      s.branches[b].status ≠ .send := by
    rcases hst with hst | hst <;> rw [hst] <;> decide
  obtain ⟨hfault, hoff, hlead, hsend⟩ := hne
  rw [hx]
  refine branchAgrees_entersIdle ?_ honline hwindow (hquarantine.trans (h5.resolve_right hfault)) ?_
  · rw [hport]
    exact tx_quiet_of_agrees h hlead hsend
  · rw [hrun]
    exact (h8.resolve_left hoff).resolve_left hfault


theorem answerGood_branchesKept {b : Branch} (a : Byte) {s : State} (hst : s.branches[b].status = .recv) :
    BranchesKept s (answerGood b a s) := by
  unfold answerGood
  split
  · rename_i hnone
    refine branchesKept_of_one (b := b) (fun h => ?_) fun d hd => ?_
    · obtain ⟨-, -, h3, -⟩ := branchAgrees_iff.mp h
      have hon : s.branches[b].onLine.isSome = true := h3.mpr (by rw [hst]; rfl)
      rw [hnone] at hon
      cases hon
    · exact .of_eq (enterIdle_branch_other hd s)
  · split
    · exact attemptEnds_branchesKept .answered (.inr hst)
    · refine (Unmoved.kept (modifyBranchCounters_unmoved b _ s)).trans (attemptEnds_branchesKept .badAnswer (.inr ?_))
      rw [(modifyBranchCounters_unmoved b _ s).status]
      exact hst

/-- A port in SEND is that of a branch in SEND, with its assignment, no timer and a run short of three (R76). -/
theorem agrees_sending {x : BranchState} (h : branchAgrees x = true) (ht : x.port.tx.sending = true) :
    x.status = .send ∧ x.onLine.isSome = true ∧ x.windowTimer = none ∧ x.quarantineTimer = none ∧
      x.contentionRun < 3 := by
  obtain ⟨-, h2, h3, h4, h5, -, -, h8, -⟩ := branchAgrees_iff.mp h
  have hst := h2.mp ht
  rw [hst] at h3 h4 h5 h8
  exact ⟨hst, h3.mpr rfl, h4.resolve_right nofun, h5.resolve_right nofun, (h8.resolve_left nofun).resolve_left nofun⟩

/-- A branch in AWAIT with its assignment agrees (R76, R83). -/
theorem branchAgrees_await {x : BranchState} (hs : x.status = .await) (htx : x.port.tx = .quiet)
    (ho : x.onLine.isSome = true) (hq : x.quarantineTimer = none) (hr : x.contentionRun < 3) :
    branchAgrees x = true := by
  refine branchAgrees_iff.mpr ?_
  rw [hs, htx, ho, hq]
  exact ⟨by decide, by decide, by decide, .inr rfl, .inl rfl, .inr rfl, Nat.le_of_lt hr, .inr (.inr hr), nofun⟩

theorem sendCompleted_agrees {b : Branch} {s : State} (ht : s.branches[b].port.tx.sending = true)
    (hs : BranchesAgree s) : BranchesAgree (sendCompleted b s) := by
  obtain ⟨-, hon, hwindow, hquarantine, hrun⟩ := agrees_sending (hs b) ht
  obtain ⟨i, hi⟩ := Option.isSome_iff_exists.mp hon
  have hsent := sentBranch_branch b s
  have hother : ∀ d ≠ b, (sentBranch b s).branches[d] = s.branches[d] := fun d hd => by
    unfold sentBranch
    rw [modifyBranch_other hd, transmissionComplete_eq, modifyPort_branch_other hd]
  rw [sendCompleted_eq hi]
  refine BranchesKept.agree (branchesKept_of_one (b := b) (fun h => ?_) fun d hd => ?_) hs
  · obtain ⟨-, -, -, -, -, h6, -, -, -⟩ := branchAgrees_iff.mp h
    dsimp only
    split
    · rw [modifyBranch_same, show (countAttempt i (sentBranch b s)).branches[b] = _ from hsent]
      exact branchAgrees_await rfl rfl hon hquarantine (Nat.zero_lt_succ 2)
    · rw [enterIdle_branch]
      have hleft := (groupLeave_queuesOnly b i (countAttempt i (sentBranch b s)) b).eq
      rw [show (countAttempt i (sentBranch b s)).branches[b] = _ from hsent] at hleft
      rw [dropAssignment_branch, hleft]
      exact branchAgrees_entersIdle rfl rfl hwindow hquarantine (Nat.zero_lt_succ 2)
  · dsimp only
    split
    · rw [modifyBranch_other hd, show (countAttempt i (sentBranch b s)).branches[d] = _ from hother d hd]
      rfl
    · rw [enterIdle_branch_other hd, show (dropAssignment b _).branches[d] = _ from modifyBranch_other hd _ _,
        ← hother d hd]
      exact groupLeave_queuesOnly b i (countAttempt i (sentBranch b s)) d

/-- A branch in FAULT without an assignment, its transmit side quiet, agrees (R94). -/
theorem branchAgrees_fault {x : BranchState} (hs : x.status = .fault) (htx : x.port.tx = .quiet) (ho : x.onLine = none)
    (hw : x.windowTimer = none) (hp : x.pendingRate = none) (hr : x.contentionRun ≤ 3) : branchAgrees x = true := by
  refine branchAgrees_iff.mpr ?_
  rw [hs, htx, ho, hw, hp]
  exact ⟨by decide, by decide, by decide, .inl rfl, .inr rfl, .inl rfl, hr, .inr (.inl rfl), nofun⟩

theorem sendContended_agrees {b : Branch} {s : State} (ht : s.branches[b].port.tx.sending = true)
    (hs : BranchesAgree s) : BranchesAgree (sendContended b s) := by
  obtain ⟨-, -, hwindow, hquarantine, hrun⟩ := agrees_sending (hs b) ht
  refine BranchesKept.agree (branchesKept_of_one (b := b) (fun h => ?_) fun d hd => sendContended_branch_other hd s) hs
  by_cases hfew : s.branches[b].contentionRun < 2
  · obtain ⟨queue, stalled, heq⟩ := sendContended_branch_idle hfew
    rw [heq]
    exact branchAgrees_entersIdle rfl rfl hwindow hquarantine (Nat.succ_lt_succ hfew)
  · rw [sendContended_branch_fault (Nat.le_of_not_lt hfew)]
    let x : BranchState := { s.branches[b] with
      port := s.branches[b].port.lost, contentionRun := s.branches[b].contentionRun + 1 }
    have hkept := x.rated_kept
    refine branchAgrees_fault rfl (x.rated_tx.trans rfl) rfl ?_ x.rated_pendingRate ?_
    · exact (congrArg BranchState.windowTimer hkept).trans hwindow
    · exact (congrArg BranchState.contentionRun hkept).trans_le hrun

/-! ### Returns to service and departures -/

/-- A branch out of service has nothing on line (R76, R94). -/
theorem agrees_out_of_service {x : BranchState} (h : branchAgrees x = true)
    (hst : x.status = .off ∨ x.status = .fault) :
    x.port.tx = .quiet ∧ x.onLine = none ∧ x.windowTimer = none ∧ x.pendingRate = none := by
  obtain ⟨-, -, h3, h4, -, h6, -⟩ := branchAgrees_iff.mp h
  have hline : x.status.onLine = false := by rcases hst with h | h <;> rw [h] <;> rfl
  have htx : x.port.tx = .quiet := by
    refine tx_quiet_of_agrees h ?_ ?_ <;> (intro e; rw [e] at hline; cases hline)
  rw [hline] at h3 h6
  refine ⟨htx, ?_, h4.resolve_right fun e => ?_, h6.resolve_right nofun⟩
  · cases ho : x.onLine with
    | none => rfl
    | some i =>
      rw [ho] at h3
      cases h3.mp rfl
  · rcases hst with hst | hst <;> rw [hst] at e <;> cases e

theorem quarantineExpire_agrees (b : Branch) {s : State} (hs : BranchesAgree s) :
    BranchesAgree (quarantineExpire b s) := by
  by_cases h : s.branches[b].status = .fault ∧ s.branches[b].quarantineTimer.isSome = true
  · obtain ⟨hfault, htimer⟩ := h
    obtain ⟨hbranch, -, hsame⟩ := quarantineExpire_returns hfault htimer (hs b)
    obtain ⟨htx, hon, hwindow, hrate⟩ := agrees_out_of_service (hs b) (.inr hfault)
    intro d
    by_cases hd : d = b
    · subst hd
      rw [hbranch]
      exact branchAgrees_idle rfl htx hon hwindow rfl hrate (Nat.zero_lt_succ 2)
    · rw [show (quarantineExpire b s).branches[d] = s.branches[d] from
        hsame (.branch d) (by fin_cases d <;> decide) (by simpa using hd)]
      exact hs d
  · unfold quarantineExpire
    rw [if_neg h]
    exact hs

theorem enableBranch_agrees (b : Branch) {s : State} (hs : BranchesAgree s) : BranchesAgree (enableBranch b s) := by
  have hidle : ∀ {f : BranchState → BranchState}, (f s.branches[b]).port.tx = .quiet → (f s.branches[b]).onLine = none →
      (f s.branches[b]).windowTimer = none → (f s.branches[b]).quarantineTimer = none →
      (f s.branches[b]).contentionRun = 0 → BranchesAgree (enterIdle b (modifyBranch b f s)) := by
    intro f htx hon hwindow hquarantine hrun d
    by_cases hd : d = b
    · subst hd
      rw [enterIdle_branch, modifyBranch_same]
      exact branchAgrees_entersIdle htx hon hwindow hquarantine (by rw [hrun]; decide)
    · rw [enterIdle_branch_other hd, modifyBranch_other hd]
      exact hs d
  unfold enableBranch
  split
  · rename_i hst
    obtain ⟨-, hon, hwindow, -⟩ := agrees_out_of_service (hs b) (.inl hst)
    have hquarantine : s.branches[b].quarantineTimer = none := by
      obtain ⟨-, -, -, -, h5, -⟩ := branchAgrees_iff.mp (hs b)
      rw [hst] at h5
      exact h5.resolve_right nofun
    unfold stopReceive modifyPort
    dsimp only
    rw [modifyBranch_modifyBranch]
    exact hidle rfl hon hwindow hquarantine rfl
  · rename_i hst
    obtain ⟨htx, hon, hwindow, -⟩ := agrees_out_of_service (hs b) (.inr hst)
    exact hidle htx hon hwindow rfl rfl
  all_goals exact hs

/-- A branch in OFF, silent and without work or timers, agrees (R21). -/
theorem branchAgrees_off {x : BranchState} (hs : x.status = .off) (hp : portSilent x.port = true) (ho : x.onLine = none)
    (hw : x.windowTimer = none) (hq : x.quarantineTimer = none) (hr : x.pendingRate = none)
    (hrun : x.contentionRun ≤ 3) : branchAgrees x = true := by
  have htx : x.port.tx = .quiet := by
    unfold portSilent at hp
    simp only [Bool.and_eq_true, beq_iff_eq] at hp
    exact hp.1.1.1.1.1
  refine branchAgrees_iff.mpr ?_
  rw [hs, htx, ho, hw, hq, hr]
  exact ⟨by decide, by decide, by decide, .inl rfl, .inl rfl, .inl rfl, hrun, .inl rfl, fun _ => hp⟩

/-- A silent port under a new rate is silent (R21, R22). -/
theorem portSilent_rated {x : BranchState} (h : portSilent x.port = true) : portSilent x.rated.port = true := by
  unfold BranchState.rated
  split
  · exact h
  · unfold portSilent at h ⊢
    simp only [Bool.and_eq_true] at h ⊢
    obtain ⟨⟨⟨⟨⟨htx, -⟩, -⟩, hbreak⟩, -⟩, hrest⟩ := h
    exact ⟨⟨⟨⟨⟨htx, rfl⟩, rfl⟩, hbreak⟩, rfl⟩, hrest⟩

theorem inService_iff {b : Branch} {s : State} :
    inService s b = true ↔ s.branches[b].status ≠ .off ∧ s.branches[b].status ≠ .fault := by
  unfold inService
  simp only [Bool.and_eq_true, bne_iff_ne]

/-- The branch that DISABLE takes out of service (R21, R92). -/
theorem disableBranch_branch {b : Branch} {s : State} (hservice : inService s b = true) :
    (disableBranch b s).branches[b] =
    { BranchState.rated { s.branches[b] with
        port := { s.branches[b].port with
          tx := .quiet, rx := .hunt, lineRest := 0, charInProgress := false, inBreak := false, synchronised := false }
        windowTimer := none } with
      onLine := none, queue := [], stalled := false, status := .off } := by
  have heq : disableBranch b s = setStatus b .off (leaveService b (returnBuffer (.branchAnswer b)
      (modifyBranch b (fun x => { x with windowTimer := none }) (stopReceive b s)))) := by
    unfold disableBranch
    cases hst : s.branches[b].status with
    | off => exact absurd hst (inService_iff.mp hservice).1
    | fault => exact absurd hst (inService_iff.mp hservice).2
    | idle | lead | send | await | recv => rfl
  rw [heq]
  unfold setStatus
  rw [modifyBranch_same, leaveService_branch]
  have hstopped : (returnBuffer (.branchAnswer b)
      (modifyBranch b (fun x => { x with windowTimer := none }) (stopReceive b s))).branches[b] =
      { s.branches[b] with
        port := { s.branches[b].port with
          tx := .quiet, rx := .hunt, lineRest := 0, charInProgress := false, inBreak := false, synchronised := false }
        windowTimer := none } := by
    unfold stopReceive modifyPort
    dsimp only
    rw [modifyBranch_modifyBranch]
    exact modifyBranch_same ..
  rw [hstopped]

/-- DISABLE leaves of every other branch all but its queue and STALLED (R63, R80). -/
theorem disableBranch_branch_other {b d : Branch} (h : d ≠ b) (s : State) :
    otherBranchKept s.branches[d] (disableBranch b s).branches[d] := by
  have hstop : ∀ f, (modifyBranch b f (stopReceive b s)).branches[d] = s.branches[d] := fun f => by
    rw [modifyBranch_other h]
    exact modifyPort_branch_other h _ s
  unfold disableBranch
  cases s.branches[b].status with
  | off => exact .of_eq rfl
  | fault => exact .of_eq (hstop _)
  | idle | lead | send | await | recv =>
    unfold setStatus
    dsimp only
    rw [modifyBranch_other h]
    have hleft := leaveService_branch_other h (returnBuffer (.branchAnswer b)
      (modifyBranch b (fun x => { x with windowTimer := none }) (stopReceive b s)))
    rwa [show (returnBuffer (.branchAnswer b) (modifyBranch b (fun x => { x with windowTimer := none })
      (stopReceive b s))).branches[d] = _ from hstop _] at hleft

theorem disableBranch_agrees (b : Branch) {s : State} (hs : BranchesAgree s) : BranchesAgree (disableBranch b s) := by
  refine BranchesKept.agree (branchesKept_of_one (b := b) (fun h => ?_) fun d hd => disableBranch_branch_other hd s) hs
  obtain ⟨-, -, -, -, h5, -, hrun, -, -⟩ := branchAgrees_iff.mp h
  cases hservice : inService s b with
  | true =>
    obtain ⟨-, hfault⟩ := inService_iff.mp hservice
    rw [disableBranch_branch hservice]
    let x : BranchState := { s.branches[b] with
      port := { s.branches[b].port with
        tx := .quiet, rx := .hunt, lineRest := 0, charInProgress := false, inBreak := false, synchronised := false }
      windowTimer := none }
    have hkept := x.rated_kept
    refine branchAgrees_off rfl (portSilent_rated (x := x) rfl) rfl ?_ ?_ x.rated_pendingRate ?_
    · exact congrArg BranchState.windowTimer hkept
    · exact (congrArg BranchState.quarantineTimer hkept).trans (h5.resolve_right hfault)
    · exact (congrArg BranchState.contentionRun hkept).trans_le hrun
  | false =>
    cases hst : s.branches[b].status with
    | off =>
      unfold disableBranch
      rw [hst]
      exact h
    | fault =>
      obtain ⟨-, hon, hwindow, hrate⟩ := agrees_out_of_service h (.inr hst)
      have heq : disableBranch b s =
          modifyBranch b (fun x => { x with status := .off, quarantineTimer := none }) (stopReceive b s) := by
        unfold disableBranch
        rw [hst]
      rw [heq]
      unfold stopReceive modifyPort
      dsimp only
      rw [modifyBranch_modifyBranch, modifyBranch_same]
      exact branchAgrees_off rfl rfl hon hwindow rfl hrate hrun
    | idle | lead | send | await | recv =>
      rw [Bool.eq_false_iff, Ne, inService_iff, hst] at hservice
      exact absurd ⟨nofun, nofun⟩ hservice

/-! ### Grants -/

/-- A branch in LEAD with its assignment agrees (R76, R81). -/
theorem branchAgrees_granted {x y : BranchState} (h : branchAgrees x = true) (hx : x.status = .idle) {i : RecordIndex}
    {f : TxFrame} {m : Served} (hy : y = { grantedBranch x i f m with queue := y.queue }) : branchAgrees y = true := by
  obtain ⟨-, -, -, h4, h5, h6, h7, h8, -⟩ := branchAgrees_iff.mp h
  rw [hx] at h4 h5 h8
  rw [hy]
  refine branchAgrees_iff.mpr ⟨⟨fun _ => rfl, fun _ => rfl⟩, ⟨nofun, nofun⟩, ⟨fun _ => rfl, fun _ => rfl⟩,
    .inl (h4.resolve_right nofun), .inl (h5.resolve_right nofun), .inr rfl, h7,
    .inr (.inr ((h8.resolve_left nofun).resolve_left nofun)), nofun⟩

/-- Every grant puts its branch into LEAD for a record, and touches no other (R81). -/
theorem chooseGrant_granted {b : Branch} {s t : State} (h : chooseGrant b s = some t) :
    ∃ i f m, t.branches[b] = { grantedBranch s.branches[b] i f m with queue := t.branches[b].queue } ∧
      ∀ d ≠ b, t.branches[d] = s.branches[d] := by
  have hothers : ∀ {u v : State} {e : List Part}, SameBut e u v → (∀ d ≠ b, .branch d ∉ e) →
      ∀ d ≠ b, v.branches[d] = u.branches[d] := fun hsame he d hd =>
    hsame.2 (.branch d) (by fin_cases d <;> decide) (he d hd)
  rcases chooseGrant_cases h with h | h | h
  · unfold tryTransparent at h
    split at h
    · cases h
    · rename_i i _
      split at h
      · rename_i hgate
        obtain rfl := Option.some.inj h
        obtain ⟨hb, -, -, -, -, hsame⟩ := grantRecord_granted b i (freeCount_pos_of_gateOpen hgate)
        refine ⟨i, recordFrame i s, s.branches[b].lastServed, by rw [hb], hothers hsame fun d hd => by simpa using hd⟩
      · cases h
  · unfold tryQueueClass at h
    split at h
    · cases h
    · rename_i i _
      split at h
      · obtain rfl := Option.some.inj h
        obtain ⟨hb, -, -, hsame⟩ := grantGroup_granted b i s
        refine ⟨i, recordFrame i s, .queue, by rw [setServed_branch, hb]; rfl,
          hothers (hsame.trans ((setServed_sameBut b .queue _).mono (by simp))) fun d hd => by simpa using hd⟩
      · split at h
        · rename_i hgate
          obtain rfl := Option.some.inj h
          obtain ⟨hb, -, -, -, -, hsame⟩ := grantRecord_granted b i (freeCount_pos_of_gateOpen hgate)
          refine ⟨i, recordFrame i s, .queue, by rw [setServed_branch, hb]; rfl,
            hothers (hsame.trans ((setServed_sameBut b .queue _).mono (by simp))) fun d hd => by simpa using hd⟩
        · cases h
  · unfold tryPollClass at h
    split at h
    · cases h
    · rename_i k hk
      split at h
      · rename_i hready
        obtain ⟨hgate, hfree⟩ := hready
        obtain rfl := Option.some.inj h
        obtain ⟨i, hi⟩ := lowestFreeRecord_of_freeRecords (s := s) (by omega)
        obtain ⟨c, hc⟩ := config_of_lowestDueSlot hk
        obtain ⟨hb, -, -, -, -, -, -, hsame⟩ := grantSlot_granted (b := b) (freeCount_pos_of_gateOpen hgate) hi hc
        refine ⟨i, { address := c.lineAddress, data := c.template }, .poll, by rw [setServed_branch, hb]; rfl,
          hothers (hsame.trans ((setServed_sameBut b .poll _).mono (by simp))) fun d hd => by simpa using hd⟩
      · cases h

theorem arbitrate_agrees (b : Branch) {s : State} (hs : BranchesAgree s) : BranchesAgree (arbitrate b s) := by
  unfold arbitrate
  split
  · rename_i hidle
    split
    · split
      · rename_i t ht
        obtain ⟨i, f, m, hb, hother⟩ := chooseGrant_granted ht
        exact BranchesKept.agree (branchesKept_of_one (b := b) (fun h => branchAgrees_granted h hidle hb)
          fun d hd => .of_eq (hother d hd)) hs
      · unfold stallBranch
        split
        · exact hs
        · exact BranchesKept.agree (s := s) (modifyBranch_kept id) hs
    · exact BranchesKept.agree (s := s) (modifyBranch_kept id) hs
  · exact hs

/-! ### The other events -/

theorem branchSends_agrees {b : Branch} {f : TxFrame} {s : State} (hlead : s.branches[b].port.tx = .lead f)
    (hs : BranchesAgree s) : BranchesAgree (setStatus b .send (modifyPort (.branch b)
      (fun q => { q with tx := .send f 0, lineRest := 0 }) (truncateOpen (.branch b) s))) := by
  obtain ⟨h1, -, h3, h4, h5, h6, h7, h8, -⟩ := branchAgrees_iff.mp (hs b)
  have hst : s.branches[b].status = .lead := h1.mp (by rw [hlead]; rfl)
  rw [hst] at h3 h4 h5 h8
  have hcut : (truncateOpen (.branch b) s).branches[b] = { s.branches[b] with port := s.branches[b].port.cut } := by
    rw [truncateOpen_eq]
    exact modifyPort_branch_same ..
  have hother : ∀ d ≠ b, (truncateOpen (.branch b) s).branches[d] = s.branches[d] := fun d hd => by
    rw [truncateOpen_eq]
    exact modifyPort_branch_other hd ..
  generalize truncateOpen (.branch b) s = u at hcut hother
  let f : PortState → PortState := fun q => { q with tx := .send f 0, lineRest := 0 }
  have hsent : (setStatus b .send (modifyPort (.branch b) f u)).branches[b] =
      { s.branches[b] with port := f s.branches[b].port.cut, status := .send } := by
    unfold setStatus
    rw [modifyBranch_same, modifyPort_branch_same, hcut]
  refine BranchesKept.agree (branchesKept_of_one (b := b) (fun _ => ?_) fun d hd => .of_eq ?_) hs
  · rw [hsent]
    refine branchAgrees_iff.mpr ⟨⟨nofun, nofun⟩, ⟨fun _ => rfl, fun _ => rfl⟩, ⟨fun _ => rfl, fun _ => h3.mpr rfl⟩,
      .inl (h4.resolve_right nofun), .inl (h5.resolve_right nofun), .inr rfl, h7,
      .inr (.inr ((h8.resolve_left nofun).resolve_left nofun)), nofun⟩
  · exact (modifyBranch_other hd _ _).trans ((modifyPort_branch_other hd f u).trans (hother d hd))

theorem answerBegins_agrees {b : Branch} {s : State}
    (hst : s.branches[b].status = .await ∨ s.branches[b].status = .recv)
    (hs : BranchesAgree s) :
    BranchesAgree (modifyBranch b (fun x => { x with status := .recv, windowTimer := none }) s) := by
  obtain ⟨h1, h2, h3, -, h5, -, h7, h8, -⟩ := branchAgrees_iff.mp (hs b)
  have hline : s.branches[b].status.onLine = true := by rcases hst with h | h <;> rw [h] <;> rfl
  have hne : s.branches[b].status ≠ .lead ∧ s.branches[b].status ≠ .send ∧ s.branches[b].status ≠ .fault ∧
      s.branches[b].status ≠ .off := by
    rcases hst with h | h <;> rw [h] <;> exact ⟨nofun, nofun, nofun, nofun⟩
  obtain ⟨hlead, hsend, hfault, hoff⟩ := hne
  refine BranchesKept.agree (branchesKept_of_one (b := b) (fun _ => ?_) fun d hd => .of_eq (modifyBranch_other hd _ s))
    hs
  rw [modifyBranch_same]
  exact branchAgrees_iff.mpr ⟨⟨fun h => absurd (h1.mp h) hlead, nofun⟩, ⟨fun h => absurd (h2.mp h) hsend, nofun⟩,
    ⟨fun _ => rfl, fun _ => h3.mpr hline⟩, .inl rfl, .inl (h5.resolve_right hfault), .inr rfl, h7,
    .inr (.inr ((h8.resolve_left hoff).resolve_left hfault)), nofun⟩

theorem countMillisecond_agrees {s : State} (hs : BranchesAgree s) : BranchesAgree (countMillisecond s) := by
  intro b
  obtain ⟨h1, h2, h3, h4, h5, h6, h7, h8, h9⟩ := branchAgrees_iff.mp (hs b)
  have hnone : ∀ {x : Option Timer}, x = none → x.map Timer.advance = none := fun h => by rw [h]; rfl
  show branchAgrees (mapTable branchMillisecond s.branches)[b] = true
  rw [mapTable_get]
  exact branchAgrees_iff.mpr ⟨h1, h2, h3, h4.imp_left hnone, h5.imp_left hnone, h6, h7, h8, h9⟩

theorem restartPart_agrees {s : State} (hs : BranchesAgree s) : BranchesAgree (restartPart s) := by
  intro b
  rw [restartPart_branches]
  have hb := hs b
  unfold restartBranch
  dsimp only
  split
  · rename_i hoff
    obtain ⟨-, -, -, -, -, -, -, -, h9⟩ := branchAgrees_iff.mp hb
    obtain ⟨-, -, -, hrate⟩ := agrees_out_of_service hb (.inl hoff)
    exact branchAgrees_off hoff (h9 hoff) rfl rfl rfl hrate (Nat.zero_le _)
  · refine branchAgrees_idle rfl ?_ rfl rfl rfl rfl (Nat.zero_lt_succ 2)
    dsimp only
    split <;> rfl

theorem slotExpire_branchesKept (k : SlotIndex) (s : State) : BranchesKept s (slotExpire k s) := by
  unfold slotExpire
  split
  · exact .refl s
  · dsimp only
    split
    · exact .refl s
    · exact .refl s
    · split
      · exact .of_branches rfl
      · exact BranchesKept.trans (t := slotMiss k (modifySlot k _ s)) (.of_branches rfl) (modifyBranch_kept id)
    all_goals exact .of_branches rfl

theorem holdExpire_branchesKept (i : RecordIndex) (s : State) : BranchesKept s (holdExpire i s) := by
  unfold holdExpire
  split
  · have hfreed : ∀ u, BranchesKept s u → BranchesKept s (freeRecord i (raise .uncollected u)) := fun u hu =>
      hu.trans ((BranchesKept.of_branches (t := raise .uncollected u) rfl).trans (freeRecord_queuesOnly i _).kept)
    refine hfreed _ ?_
    split
    · exact (modifyBranchCounters_unmoved _ _ s).kept
    · exact .refl s
  · exact .refl s

theorem trunkFrameStarts_branches (c : Byte) (s : State) : (trunkFrameStarts c s).branches = s.branches := by
  have hclaim : ∀ u : State, (trunkClaim c u).branches = u.branches := fun u => by
    unfold trunkClaim
    split
    · rfl
    · exact claimBuffer_branches ..
  unfold trunkFrameStarts
  split
  · split
    · rfl
    · exact (hclaim _).trans rfl
  all_goals exact hclaim s

theorem createDeferred_branchesKept (i : RecordIndex) (a : Byte) (data : List Byte) (e : RouteEntry) (s : State) :
    BranchesKept s (createDeferred i a data e s) :=
  BranchesKept.trans (.of_branches (claimBuffer_branches (.request i) (mkFrame a data) s)) (modifyBranch_kept id)

theorem enqueueGroup_branchesKept (x : BranchSet) (i : RecordIndex) (s : State) :
    BranchesKept s (enqueueGroup x i s) := fun b h => by
  unfold enqueueGroup
  rw [mapBranches_branches]
  split <;> exact h

theorem stopSlot_branchesKept (k : SlotIndex) (s : State) : BranchesKept s (stopSlot k s) := by
  unfold stopSlot
  split
  any_goals exact .of_branches rfl
  all_goals
    exact BranchesKept.trans (t := modifySlot k (fun x => { x with state := .stopped, countdown := 0 }) s)
      (.of_branches rfl) (endIdleStalls_queuesOnly _).kept

theorem settlePending_branches (s : State) : (settlePending s).branches = s.branches := by
  unfold settlePending
  split
  · rfl
  · rw [applyRate_eq]
    rfl
  · rfl

theorem truncateOpen_trunk_branches (s : State) : (truncateOpen .trunk s).branches = s.branches := by
  rw [truncateOpen_eq]
  rfl

/-- Every event keeps the branches in agreement. -/
theorem branchesAgree_invariant : StepInvariant fun _ => BranchesAgree where
  unmoved h hs := h.kept.agree hs
  reset a r held waiting := branchesAgree_resetPart a r held waiting
  frameStarts c _ _ hs := (BranchesKept.of_branches (trunkFrameStarts_branches c _)).agree hs
  assemblyEnds x _ _ hs := hs
  frameTaken _ hs := hs
  supersedesFollowed hrx _ hs := (supersede_branches hrx).kept.agree hs
  supersedes hrx _ hs := (supersede_branches hrx).kept.agree hs
  dropped hs := hs
  group line x i s _ _ hs := (enqueueGroup_branchesKept _ i (modifyRecord i
    (fun _ => groupRecord line (inServiceSet s x)) (handOver .trunkAssembly (.request i) s))).agree hs
  transparent a line b retries notify i s _ _ hs :=
    BranchesKept.agree (s := s) (t := enqueueHead b i (modifyRecord i
      (fun _ => transparentRecord a line b retries notify) (handOver .trunkAssembly (.request i) s)))
      (modifyBranch_kept (s := modifyRecord i _ (handOver .trunkAssembly (.request i) s)) id) hs
  proxy _ _ _ hs := hs
  answered _ _ _ hs := hs
  replayed _ hs := hs
  replyStarts _ hs := (BranchesKept.of_branches (truncateOpen_trunk_branches _)).agree hs
  replySent _ hs := (BranchesKept.of_branches ((settlePending_branches _).trans rfl)).agree hs
  replyLost _ hs := (BranchesKept.of_branches ((settlePending_branches _).trans rfl)).agree hs
  branchSends hlead _ hs := branchSends_agrees hlead hs
  answerBegins hst hs := answerBegins_agrees hst hs
  attemptOver o _ hst hs := (attemptEnds_branchesKept o hst).agree hs
  answerJudged a _ hst hs := (answerGood_branchesKept a hst).agree hs
  sendDone ht hs := sendCompleted_agrees ht hs
  sendLost ht hs := sendContended_agrees ht hs
  arbitrated b _ hs := arbitrate_agrees b hs
  millisecond hs := countMillisecond_agrees hs
  quarantine b _ hs := quarantineExpire_agrees b hs
  hold i _ hs := (holdExpire_branchesKept i _).agree hs
  slotExpired k _ hs := (slotExpire_branchesKept k _).agree hs
  submitted a _ data e _ _ _ _ _ hs := (createDeferred_branchesKept _ a data e _).agree hs
  collected _ hs := (freeRecord_queuesOnly _ _).kept.agree hs
  cancelled _ _ hs := hs
  pollSet _ _ _ hs := hs
  pollUnset _ hs := hs
  pollStarted _ _ _ hs := hs
  pollStopped k _ hs := (stopSlot_branchesKept k _).agree hs
  enabled b _ hs := enableBranch_agrees b hs
  disabled b _ hs := disableBranch_agrees b hs
  restarted hs := restartPart_agrees hs

/-- Settles O57: the branches by the events of a step, the open frames by what each operation keeps. -/
theorem stepKeepsTheBranches : Obligations.StepKeepsTheBranches :=
  ⟨fun _ _ hs ht => branchesAgree_invariant.steps hs ht, fun _ _ hs ht => step_assembliesBegun hs ht⟩

end Sys2Proof.Machine
end

section
/-!
What becomes of a record whose exchange ends without an answer: its own fields, the completion list, its slot, its
request buffer and what the trunk is told (section 3.5).
-/

namespace Sys2Proof.Machine

-- The gate's memory limit counts every thread's arena, so the declarations are elaborated one after another.
set_option Elab.async false

/-! ### Flags -/

theorem flagMask_flagBit (f g : Flag) : (flagMask f).getLsbD (flagBit g) = (f == g) := by
  cases f <;> cases g <;> rfl

theorem flagSet_raise (f g : Flag) (s : State) : flagSet g (raise f s) = (flagSet g s || f == g) := by
  show (s.flags ||| flagMask f).getLsbD (flagBit g) = _
  rw [BitVec.getLsbD_or, flagMask_flagBit]
  rfl

theorem flagSet_congr {s t : State} (h : t.flags = s.flags) (f : Flag) : flagSet f t = flagSet f s := by
  unfold flagSet
  rw [h]

/-- ANSWER_FAIL is the one flag that noting an outcome sets (R56). -/
theorem flagSet_noteOutcome (f : Flag) (o : ExchangeOutcome) (s : State) : flagSet f (noteOutcome o s) =
    (flagSet f s || (f == .answerFail && (o == .noAnswer || o == .badAnswer))) := by
  have hsame : (Flag.answerFail == f) = (f == .answerFail) := by cases f <;> rfl
  cases o with
  | noAnswer | badAnswer =>
    show flagSet f (raise .answerFail s) = _
    rw [flagSet_raise, hsame]
    simp
  | answered | contention | branchOff =>
    show flagSet f s = _
    simp

/-! ### One record settled -/

/-- The record `i` of branch `b` has been settled with the outcome `o`, without an answer (R58 to R62, R72). -/
structure RecordSettled (b : Branch) (o : ExchangeOutcome) (i : RecordIndex) (v w : State) : Prop where
  record : w.records[i] = settledRecord b o v.params.holdTime v.records[i]
  others : ∀ k ≠ i, w.records[k] = v.records[k]
  joins : joinsCompletions v.records[i] = true → w.completions = v.completions ++ [i]
  stays : joinsCompletions v.records[i] = false → i ∉ v.completions → w.completions = v.completions
  completion : flagSet .completion w = (flagSet .completion v || joinsCompletions v.records[i])
  answerFail : flagSet .answerFail w = (flagSet .answerFail v || (o == .noAnswer || o == .badAnswer))
  branchFault : flagSet .branchFault w = flagSet .branchFault v
  contention : flagSet .contention w = flagSet .contention v
  request : v.records[i].kind ≠ some .group ∨ w.records[i] = .free → heldFrame (.request i) w = none
  frames : ∀ h : Holder, h ≠ .free → h ≠ .request i → h ≠ .answer i → h ≠ .owedReply → heldFrame h w = heldFrame h v
  slots : ∀ k : SlotIndex, w.slots[k] =
    if v.records[i].kind = some .cyclic ∧ v.records[i].slot = some k then missedSlot v.slots[k] else v.slots[k]
  trunk : v.records[i].kind ≠ some .transparent → w.trunk = v.trunk ∧ heldFrame .owedReply w = heldFrame .owedReply v
  told : v.records[i].kind = some .transparent →
    (v.records[i].abandoned = false → heldFrame .owedReply v = none) → (heldFrame (.request i) v).isSome = true →
    trunkToldOfFailure v.records[i] o v w
  abandoned : v.records[i].abandoned = true → w.trunk = v.trunk ∧ heldFrame .owedReply w = heldFrame .owedReply v
  answer : heldFrame (.answer i) v = none → heldFrame (.answer i) w = none
  queue : i ∉ v.branches[b].queue → w.branches[b].queue = v.branches[b].queue
  queues : QueuesOnly v w
  kept : ExchangeKept v w

theorem filter_eq_self_of_not_mem {i : RecordIndex} {l : List RecordIndex} (h : i ∉ l) :
    l.filter (fun j => j != i) = l := by
  rw [List.filter_eq_self]
  intro j hj
  simp only [bne_iff_ne]
  rintro rfl
  exact h hj

/-- A record that is freed at the end of an exchange, from a part `u` that differs from `v` in the trunk, the slots, the
flags and the buffers of the owed reply. -/
theorem recordSettled_freed {b : Branch} {o : ExchangeOutcome} {i : RecordIndex} {v u : State}
    (hsettled : settledRecord b o v.params.holdTime v.records[i] = .free)
    (hjoins : joinsCompletions v.records[i] = false)
    (hrecords : ∀ k ≠ i, u.records[k] = v.records[k]) (hcompletions : u.completions = v.completions)
    (hflags : ∀ f, flagSet f u = (flagSet f v || (f == .answerFail && (o == .noAnswer || o == .badAnswer))))
    (hframes : ∀ h : Holder, h ≠ .free → h ≠ .request i → h ≠ .answer i → h ≠ .owedReply →
      heldFrame h u = heldFrame h v)
    (hslots : ∀ k : SlotIndex, u.slots[k] =
      if v.records[i].kind = some .cyclic ∧ v.records[i].slot = some k then missedSlot v.slots[k] else v.slots[k])
    (htrunk : v.records[i].kind ≠ some .transparent → u.trunk = v.trunk ∧
      heldFrame .owedReply u = heldFrame .owedReply v)
    (htold : v.records[i].kind = some .transparent →
      (v.records[i].abandoned = false → heldFrame .owedReply v = none) → (heldFrame (.request i) v).isSome = true →
      trunkToldOfFailure v.records[i] o v u)
    (habandoned : v.records[i].abandoned = true →
      u.trunk = v.trunk ∧ heldFrame .owedReply u = heldFrame .owedReply v)
    (hbranches : u.branches = v.branches) (hkept : ExchangeKept v u) : RecordSettled b o i v (freeRecord i u) where
  record := by rw [hsettled, freeRecord_records, if_pos rfl]
  others k hk := by rw [freeRecord_records, if_neg hk, hrecords k hk]
  joins h := absurd (hjoins.symm.trans h) nofun
  stays _ hi := by rw [freeRecord_completions, hcompletions, filter_eq_self_of_not_mem hi]
  completion := by
    rw [flagSet_congr (freeRecord_flags i u), hflags, hjoins]
    rfl
  answerFail := by
    rw [flagSet_congr (freeRecord_flags i u), hflags]
    rfl
  branchFault := by
    rw [flagSet_congr (freeRecord_flags i u), hflags]
    exact Bool.or_false _
  contention := by
    rw [flagSet_congr (freeRecord_flags i u), hflags]
    exact Bool.or_false _
  request _ := heldFrame_freeRecord_request i u
  frames h hf hr ha ho := by rw [heldFrame_freeRecord_other i hf hr ha, hframes h hf hr ha ho]
  slots k := by rw [freeRecord_slots, hslots]
  trunk h := by
    rw [freeRecord_trunk, heldFrame_freeRecord_other (h := .owedReply) i nofun nofun nofun]
    exact htrunk h
  told hk hn hr := by
    unfold trunkToldOfFailure
    rw [freeRecord_trunk]
    exact htold hk hn hr
  abandoned h := by
    rw [freeRecord_trunk, heldFrame_freeRecord_other (h := .owedReply) i nofun nofun nofun]
    exact habandoned h
  answer _ := heldFrame_freeRecord_answer i u
  queue hi := by
    rw [freeRecord_queue, hbranches, filter_eq_self_of_not_mem hi]
  queues := (QueuesOnly.of_branches hbranches).trans (freeRecord_queuesOnly i u)
  kept := hkept.trans (freeRecord_kept i u)

/-- A part that differs in its flags only, as noting the outcome leaves it (R56). -/
theorem noteOutcome_same (o : ExchangeOutcome) (v : State) : (noteOutcome o v).records = v.records ∧
    (noteOutcome o v).slots = v.slots ∧ (noteOutcome o v).trunk = v.trunk ∧ (noteOutcome o v).buffers = v.buffers ∧
    (noteOutcome o v).completions = v.completions ∧ (noteOutcome o v).params = v.params ∧
    (noteOutcome o v).branches = v.branches := by
  rw [noteOutcome_eq]
  exact ⟨rfl, rfl, rfl, rfl, rfl, rfl, rfl⟩

theorem settledRecord_transparent {b : Branch} {o : ExchangeOutcome} {n : Nat} {r : Record}
    (h : r.kind = some .transparent) : settledRecord b o n r = .free ∧ joinsCompletions r = false := by
  unfold settledRecord joinsCompletions
  rw [h]
  exact ⟨rfl, rfl⟩

theorem settledRecord_cyclic {b : Branch} {o : ExchangeOutcome} {n : Nat} {r : Record}
    (h : r.kind = some .cyclic) : settledRecord b o n r = .free ∧ joinsCompletions r = false := by
  unfold settledRecord joinsCompletions
  rw [h]
  exact ⟨rfl, rfl⟩

theorem settledRecord_deferred {b : Branch} {o : ExchangeOutcome} {n : Nat} {r : Record}
    (h : r.kind = some .deferred) : settledRecord b o n r = if r.cancelPending then .free
      else { r with state := .ended, outcome := some o, hold := some { count := 0, limit := n * 100 } } := by
  cases r
  subst h
  rfl

/-- The proxy status frame of a record that failed, owed and given to the trunk port (R58, R112). -/
theorem oweProxy_told {i : RecordIndex} {a reason : Byte} {v : State} (hreply : heldFrame .owedReply v = none)
    (hrequest : (heldFrame (.request i) v).isSome = true) : let t := oweProxy (.request i) a reason v
    t.trunk.owed = .proxy ∧
      t.trunk.port.tx = .lead { address := v.params.mgmtAddress, data := [0x7F#8, a, reason] } := by
  let f := mkFrame v.params.mgmtAddress [0x7F#8, a, reason]
  let u := writeBuffer (.request i) f v
  have hnone : heldFrame .owedReply u = none := by
    rw [heldFrame_writeBuffer_other (h := .request i) (g := .owedReply) nofun]
    exact hreply
  have hframe : heldFrame .owedReply (handOver (.request i) .owedReply u) = some f := by
    rw [heldFrame_handOver_to (h := .request i) (g := .owedReply) nofun u hnone]
    obtain ⟨chars, hchars⟩ := Option.isSome_iff_exists.mp hrequest
    exact (heldFrame_writeBuffer_same ..).trans (by rw [hchars]; rfl)
  have hsend : frameToSend .owedReply (modifyTrunk (fun t => { t with owed := .proxy })
      (handOver (.request i) .owedReply u)) = { address := v.params.mgmtAddress, data := [0x7F#8, a, reason] } := by
    unfold frameToSend
    rw [show heldFrame .owedReply (modifyTrunk (fun t => { t with owed := .proxy })
      (handOver (.request i) .owedReply u)) = some f from hframe]
    dsimp only [Option.getD_some]
    rw [frameAddress_mkFrame, frameData_mkFrame _ (by simp)]
  refine ⟨rfl, ?_⟩
  show TxState.lead (frameToSend .owedReply _) = _
  exact congrArg TxState.lead hsend

theorem recordSettled_transparent {b : Branch} {o : ExchangeOutcome} {i : RecordIndex} {v : State} (ho : o ≠ .answered)
    (hkind : v.records[i].kind = some .transparent) : RecordSettled b o i v (fixOutcome i b o v) := by
  obtain ⟨hrecords, hslots, htrunk, hbuffers, hcompletions, hparams, hbranches⟩ := noteOutcome_same o v
  obtain ⟨hsettled, hjoins⟩ := settledRecord_transparent (b := b) (o := o) (n := v.params.holdTime) hkind
  have hflags := fun f => flagSet_noteOutcome f o v
  have heq : fixOutcome i b o v = settleTransparent i b o (noteOutcome o v) := by
    unfold fixOutcome
    rw [hkind]
  have hnone : ∀ k : SlotIndex, v.slots[k] = if v.records[i].kind = some .cyclic ∧ v.records[i].slot = some k
      then missedSlot v.slots[k] else v.slots[k] := fun k => by
    rw [if_neg (by rw [hkind]; exact nofun)]
  have hkept := noteOutcome_kept o v
  rw [heq]
  generalize noteOutcome o v = u at *
  unfold settleTransparent
  rw [hrecords]
  cases habandoned : v.records[i].abandoned with
  | true =>
    have hdrop : dropLateAnswer b o u = u := if_neg ho
    rw [if_pos rfl, hdrop]
    refine recordSettled_freed hsettled hjoins (fun _ _ => by rw [hrecords]) hcompletions hflags
      (fun h _ _ _ _ => heldFrame_of_buffers hbuffers h) (fun k => by rw [hslots]; exact hnone k)
      (fun h => absurd hkind h) (fun _ _ _ => ?_) (fun _ => ⟨htrunk, heldFrame_of_buffers hbuffers _⟩) hbranches hkept
    unfold trunkToldOfFailure
    rw [if_pos habandoned]
    exact htrunk
  | false =>
    rw [if_neg Bool.false_ne_true, if_neg ho]
    unfold failTransparent
    dsimp only
    rw [hrecords]
    cases hnotify : v.records[i].notify with
    | true =>
      rw [if_pos rfl]
      have hproxy := oweProxy_kept (.request i) (v.records[i].trunkAddress.getD 0) (outcomeByte o) u
      refine recordSettled_freed hsettled hjoins (fun _ _ => by rw [← hrecords]; rfl) hcompletions hflags
        (fun h _ hr _ ho => ?_) (fun k => ?_) (fun h => absurd hkind h) (fun _ hreply hrequest => ?_)
        (fun h => absurd (habandoned.symm.trans h) nofun) hbranches (hkept.trans hproxy)
      · refine Eq.trans (heldFrame_handOver_other hr ho _) ?_
        rw [heldFrame_writeBuffer_other hr]
        exact heldFrame_of_buffers hbuffers h
      · rw [← hnone k, ← hslots]
        rfl
      · unfold trunkToldOfFailure
        rw [if_neg (by rw [habandoned]; exact nofun), if_pos hnotify, ← hparams]
        refine oweProxy_told ?_ ?_
        · rw [heldFrame_of_buffers hbuffers]
          exact hreply habandoned
        · rw [heldFrame_of_buffers hbuffers]
          exact hrequest
    | false =>
      rw [if_neg Bool.false_ne_true]
      refine recordSettled_freed hsettled hjoins (fun _ _ => by rw [← hrecords]; rfl) hcompletions hflags
        (fun h _ _ _ _ => heldFrame_of_buffers hbuffers h) (fun k => ?_) (fun h => absurd hkind h) (fun _ _ _ => ?_)
        (fun h => absurd (habandoned.symm.trans h) nofun) hbranches
        (hkept.trans (u := setOwed .nothing u) rfl)
      · rw [← hnone k, ← hslots]
        rfl
      · unfold trunkToldOfFailure
        rw [if_neg (by rw [habandoned]; exact nofun), if_neg (by rw [hnotify]; exact nofun), ← htrunk]
        rfl

/-- The end of a poll that brought no answer changes its slot alone (R61, R135, R137). -/
theorem pollEnds_missed (k : SlotIndex) (b : Branch) (s : State) :
    pollEnds k b false s = { s with slots := (pollEnds k b false s).slots } ∧
      ∀ j : SlotIndex, (pollEnds k b false s).slots[j] = if j = k then missedSlot s.slots[k] else s.slots[j] := by
  have hslot : (slotMiss k s).slots[k] = { s.slots[k] with misses := missUp s.slots[k].misses } := updateAt_same ..
  have hother : ∀ j ≠ k, (slotMiss k s).slots[j] = s.slots[j] := fun j hj => modifySlot_other hj _ s
  have heq : pollEnds k b false s = slotLeavePoll k (slotMiss k s) := rfl
  have hstate : (slotMiss k s).slots[k].state = s.slots[k].state := by rw [hslot]
  rw [heq]
  unfold slotLeavePoll missedSlot
  rw [hstate]
  have hwritten : ∀ (f : Slot → Slot) (y : Slot),
      f { s.slots[k] with misses := missUp s.slots[k].misses } = y →
      ∀ j : SlotIndex, (modifySlot k f (slotMiss k s)).slots[j] = if j = k then y else s.slots[j] := by
    intro f y hy j
    by_cases hj : j = k
    · subst hj
      rw [if_pos rfl, ← hy, ← hslot]
      exact updateAt_same ..
    · rw [if_neg hj, modifySlot_other hj, hother j hj]
  have hleft : ∀ j : SlotIndex, (slotMiss k s).slots[j] =
      if j = k then { s.slots[k] with misses := missUp s.slots[k].misses } else s.slots[j] := by
    intro j
    by_cases hj : j = k
    · subst hj
      rw [if_pos rfl, hslot]
    · rw [if_neg hj, hother j hj]
  cases hcase : s.slots[k].state with
  | onLine => exact ⟨rfl, hwritten _ _ rfl⟩
  | stopping => exact ⟨rfl, hwritten _ _ rfl⟩
  | unset | stopped | armed | due => exact ⟨rfl, fun j => (hleft j).trans (by dsimp only; rw [hcase])⟩

theorem recordSettled_cyclic {b : Branch} {o : ExchangeOutcome} {i : RecordIndex} {v : State} (ho : o ≠ .answered)
    (hkind : v.records[i].kind = some .cyclic) : RecordSettled b o i v (fixOutcome i b o v) := by
  obtain ⟨hrecords, hslots, htrunk, hbuffers, hcompletions, hparams, hbranches⟩ := noteOutcome_same o v
  obtain ⟨hsettled, hjoins⟩ := settledRecord_cyclic (b := b) (o := o) (n := v.params.holdTime) hkind
  have hflags := fun f => flagSet_noteOutcome f o v
  have heq : fixOutcome i b o v = settleCyclic i b o (noteOutcome o v) := by
    unfold fixOutcome
    rw [hkind]
  have hunanswered : (o == ExchangeOutcome.answered) = false := beq_false_of_ne ho
  have hkept := noteOutcome_kept o v
  rw [heq]
  generalize noteOutcome o v = u at *
  unfold settleCyclic
  rw [hrecords, hunanswered]
  have hnot : v.records[i].kind ≠ some .transparent := by rw [hkind]; exact nofun
  cases hslot : v.records[i].slot with
  | none =>
    refine recordSettled_freed hsettled hjoins (fun _ _ => by rw [hrecords]) hcompletions hflags
      (fun h _ _ _ _ => heldFrame_of_buffers hbuffers h) (fun k => ?_)
      (fun _ => ⟨htrunk, heldFrame_of_buffers hbuffers _⟩) (fun h => absurd h hnot)
      (fun _ => ⟨htrunk, heldFrame_of_buffers hbuffers _⟩) hbranches hkept
    rw [if_neg (by rw [hslot]; exact fun h => nomatch h.2), hslots]
  | some k =>
    obtain ⟨hsame, hmissed⟩ := pollEnds_missed k b u
    have hpoll := pollEnds_kept k b false u
    dsimp only
    generalize pollEnds k b false u = w at *
    have hheld : ∀ h, heldFrame h w = heldFrame h v := fun h =>
      heldFrame_of_buffers ((congrArg State.buffers hsame).trans hbuffers) h
    refine recordSettled_freed hsettled hjoins (fun j _ => ?_) ((congrArg State.completions hsame).trans hcompletions)
      (fun f => (flagSet_congr (congrArg State.flags hsame) f).trans (hflags f))
      (fun h _ _ _ _ => hheld h) (fun j => ?_)
      (fun _ => ⟨(congrArg State.trunk hsame).trans htrunk, hheld _⟩) (fun h => absurd h hnot)
      (fun _ => ⟨(congrArg State.trunk hsame).trans htrunk, hheld _⟩) ((congrArg State.branches hsame).trans hbranches)
      (hkept.trans hpoll)
    · rw [congrArg State.records hsame, hrecords]
    · rw [hmissed, hslots]
      by_cases hj : j = k
      · subst hj
        rw [if_pos rfl, if_pos ⟨hkind, hslot⟩]
      · rw [if_neg hj, if_neg]
        rintro ⟨-, h⟩
        exact hj (Option.some.inj (hslot.symm.trans h)).symm

/-- A DEFERRED record that ends without an answer (R60, R66). -/
theorem endDeferred_unanswered {i : RecordIndex} {b : Branch} {o : ExchangeOutcome} {s : State} (ho : o ≠ .answered) :
    let t := endDeferred i b o s
    t.records[i] = { s.records[i] with
      state := .ended, outcome := some o, hold := some { count := 0, limit := s.params.holdTime * 100 } } ∧
    (∀ k ≠ i, t.records[k] = s.records[k]) ∧ t.completions = s.completions ++ [i] ∧
    t.flags = s.flags ||| flagMask .completion ∧ t.buffers = (returnBuffer (.request i) s).buffers ∧
    t.trunk = s.trunk ∧ t.slots = s.slots ∧
    t.branches[b].queue = s.branches[b].queue.filter fun j => j != i := by
  have heq : endDeferred i b o s = raise .completion
      { leaveQueues i (modifyRecord i
        (fun r => { r with
          state := .ended, outcome := some o, hold := some { count := 0, limit := s.params.holdTime * 100 } })
        (returnBuffer (.request i) s)) with completions := s.completions ++ [i] } := by
    unfold endDeferred
    dsimp only
    rw [if_neg ho]
    rfl
  rw [heq]
  refine ⟨updateAt_same .., fun k hk => updateAt_other _ _ hk, rfl, rfl, rfl, rfl, rfl, ?_⟩
  exact congrArg BranchState.queue (leaveQueues_branches i b _)

theorem recordSettled_deferred {b : Branch} {o : ExchangeOutcome} {i : RecordIndex} {v : State} (ho : o ≠ .answered)
    (hkind : v.records[i].kind = some .deferred) : RecordSettled b o i v (fixOutcome i b o v) := by
  obtain ⟨hrecords, hslots, htrunk, hbuffers, hcompletions, hparams, hbranches⟩ := noteOutcome_same o v
  have hflags := fun f => flagSet_noteOutcome f o v
  have heq : fixOutcome i b o v = settleDeferred i b o (noteOutcome o v) := by
    unfold fixOutcome
    rw [hkind]
  have hnot : v.records[i].kind ≠ some .transparent := by rw [hkind]; exact nofun
  have hnone : ∀ k : SlotIndex, v.slots[k] = if v.records[i].kind = some .cyclic ∧ v.records[i].slot = some k
      then missedSlot v.slots[k] else v.slots[k] := fun k => by
    rw [if_neg (by rw [hkind]; exact nofun)]
  have hkept := noteOutcome_kept o v
  have hqueues : QueuesOnly v (settleDeferred i b o (noteOutcome o v)) :=
    (noteOutcome_queuesOnly o v).trans (settleDeferred_queuesOnly i b o _)
  rw [heq]
  generalize noteOutcome o v = u at *
  cases hcancel : v.records[i].cancelPending with
  | true =>
    have hsettled : settledRecord b o v.params.holdTime v.records[i] = .free := by
      rw [settledRecord_deferred hkind]
      exact if_pos hcancel
    have hjoins : joinsCompletions v.records[i] = false := by
      unfold joinsCompletions
      rw [hcancel, Bool.not_true, Bool.and_false]
    have hfreed : settleDeferred i b o u = freeRecord i u := by
      unfold settleDeferred dropLateAnswer
      rw [hrecords, if_pos hcancel, if_neg ho]
    rw [hfreed]
    exact recordSettled_freed hsettled hjoins (fun _ _ => by rw [hrecords]) hcompletions hflags
      (fun h _ _ _ _ => heldFrame_of_buffers hbuffers h) (fun k => by rw [hslots]; exact hnone k)
      (fun _ => ⟨htrunk, heldFrame_of_buffers hbuffers _⟩) (fun h => absurd h hnot)
      (fun _ => ⟨htrunk, heldFrame_of_buffers hbuffers _⟩) hbranches hkept
  | false =>
    have hsettled : settledRecord b o v.params.holdTime v.records[i] = { v.records[i] with
        state := .ended, outcome := some o, hold := some { count := 0, limit := v.params.holdTime * 100 } } := by
      rw [settledRecord_deferred hkind]
      exact if_neg (ne_true_of_eq_false hcancel)
    have hjoins : joinsCompletions v.records[i] = true := by
      unfold joinsCompletions
      rw [hcancel, hkind]
      rfl
    have hended : settleDeferred i b o u = endDeferred i b o u := by
      unfold settleDeferred
      rw [hrecords, if_neg (by rw [hcancel]; exact nofun)]
    obtain ⟨hrecord, hothers, hlist, hflag, hpool, htrunk', hslots', hqueue⟩ :=
      endDeferred_unanswered (i := i) (b := b) (s := u) ho
    have hend := endDeferred_kept i b o u
    rw [hended] at hqueues ⊢
    generalize endDeferred i b o u = w at *
    have hset : ∀ f, flagSet f w = (flagSet f u || Flag.completion == f) := fun f => by
      rw [← flagSet_raise]
      exact flagSet_congr hflag f
    have hheld : ∀ h, h ≠ .free → h ≠ .request i → heldFrame h w = heldFrame h v := fun h hf hr => by
      rw [heldFrame_of_buffers hpool, heldFrame_returnBuffer_other hf hr, heldFrame_of_buffers hbuffers]
    exact
      { record := by rw [hsettled, hrecord, hrecords, hparams]
        others := fun k hk => by rw [hothers k hk, hrecords]
        joins := fun _ => by rw [hlist, hcompletions]
        stays := fun h => absurd (hjoins.symm.trans h) nofun
        completion := by
          rw [hset, hflags, hjoins]
          simp
        answerFail := by
          rw [hset, hflags]
          simp
        branchFault := by
          rw [hset, hflags]
          exact (Bool.or_false _).trans (Bool.or_false _)
        contention := by
          rw [hset, hflags]
          exact (Bool.or_false _).trans (Bool.or_false _)
        request := fun _ => by
          rw [heldFrame_of_buffers hpool]
          exact heldFrame_returnBuffer_same (h := .request i) nofun u
        frames := fun h hf hr _ _ => hheld h hf hr
        slots := fun k => by
          rw [← hnone k, ← hslots, hslots']
        trunk := fun _ => ⟨htrunk'.trans htrunk, hheld _ nofun nofun⟩
        told := fun h => absurd h hnot
        abandoned := fun _ => ⟨htrunk'.trans htrunk, hheld _ nofun nofun⟩
        answer := fun h => (hheld (.answer i) nofun nofun).trans h
        queue := fun hi => by rw [hqueue, hbranches, filter_eq_self_of_not_mem hi]
        queues := hqueues
        kept := hkept.trans hend }

/-- A station record whose outcome is fixed without an answer (R54). -/
theorem recordSettled_fixOutcome {b : Branch} {o : ExchangeOutcome} {i : RecordIndex} {v : State} (ho : o ≠ .answered)
    (hkind : isStationKind v.records[i] = true) : RecordSettled b o i v (fixOutcome i b o v) := by
  unfold isStationKind at hkind
  simp only [Bool.or_eq_true, beq_iff_eq] at hkind
  rcases hkind with (h | h) | h
  · exact recordSettled_transparent ho h
  · exact recordSettled_deferred ho h
  · exact recordSettled_cyclic ho h

/-- A GROUP record that loses the branch (R62, R63). -/
theorem recordSettled_groupLeave {b : Branch} {i : RecordIndex} {o : ExchangeOutcome} {v : State}
    (ho : (o == .noAnswer || o == .badAnswer) = false) (hkind : v.records[i].kind = some .group) :
    RecordSettled b o i v (groupLeave b i v) := by
  have hsettled : ∀ o, settledRecord b o v.params.holdTime v.records[i] =
      if setWithout v.records[i].pendingSet b = 0 ∧ setWithout v.records[i].sendingSet b = 0 then .free
      else { v.records[i] with pendingSet := setWithout v.records[i].pendingSet b,
                               sendingSet := setWithout v.records[i].sendingSet b } := fun o => by
    unfold settledRecord
    simp only [hkind]
  have hjoins : joinsCompletions v.records[i] = false := by
    unfold joinsCompletions
    rw [hkind]
    rfl
  have hnot : v.records[i].kind ≠ some .transparent := by rw [hkind]; exact nofun
  have hnone : ∀ k : SlotIndex, v.slots[k] = if v.records[i].kind = some .cyclic ∧ v.records[i].slot = some k
      then missedSlot v.slots[k] else v.slots[k] := fun k => by
    rw [if_neg (by rw [hkind]; exact nofun)]
  have hbool : ∀ x : Bool, x = (x || false) := fun x => (Bool.or_false x).symm
  let f : Record → Record := fun r =>
    { r with pendingSet := setWithout r.pendingSet b, sendingSet := setWithout r.sendingSet b }
  have hrecord : (modifyRecord i f v).records[i] = f v.records[i] := updateAt_same ..
  by_cases hempty : setWithout v.records[i].pendingSet b = 0 ∧ setWithout v.records[i].sendingSet b = 0
  · have heq : groupLeave b i v = freeRecord i (modifyRecord i f v) := by
      unfold groupLeave
      dsimp only
      rw [hrecord]
      exact if_pos hempty
    rw [heq]
    exact recordSettled_freed ((hsettled _).trans (if_pos hempty)) hjoins (fun k hk => modifyRecord_other i hk f v) rfl
      (fun g => by rw [ho, Bool.and_false, Bool.or_false]; rfl) (fun _ _ _ _ _ => rfl) hnone
      (fun _ => ⟨rfl, rfl⟩) (fun h => absurd h hnot) (fun _ => ⟨rfl, rfl⟩) rfl (modifyRecord_kept i f v)
  · have heq : groupLeave b i v = modifyRecord i f v := by
      unfold groupLeave
      dsimp only
      rw [hrecord]
      exact if_neg hempty
    have hwritten : f v.records[i] ≠ .free := fun h => by
      have hk := congrArg Record.kind h
      rw [show (f v.records[i]).kind = v.records[i].kind from rfl, hkind] at hk
      cases hk
    rw [heq]
    exact
      { record := by rw [hrecord, hsettled, if_neg hempty]
        others := fun k hk => modifyRecord_other i hk f v
        joins := fun h => absurd (hjoins.symm.trans h) nofun
        stays := fun _ _ => rfl
        completion := by rw [hjoins]; exact hbool _
        answerFail := by rw [ho]; exact hbool _
        branchFault := rfl
        contention := rfl
        request := fun h => h.elim (fun h => absurd hkind h) fun h => absurd (hrecord.symm.trans h) hwritten
        frames := fun _ _ _ _ _ => rfl
        slots := hnone
        trunk := fun _ => ⟨rfl, rfl⟩
        told := fun h => absurd h hnot
        abandoned := fun _ => ⟨rfl, rfl⟩
        answer := fun h => h
        queue := fun _ => rfl
        queues := .of_branches rfl
        kept := modifyRecord_kept i f v }

end Sys2Proof.Machine
end

section
/-!
A failed attempt: the record is retried at the head of its branch's queue, or settled by its kind (section 3.5).
-/

namespace Sys2Proof.Machine

-- The gate's memory limit counts every thread's arena, so the declarations are elaborated one after another.
set_option Elab.async false

theorem mem_branchParts : ∀ b : Branch, Part.branch b ∈ branchParts := by decide

/-- No flag but LINE_ERROR is set when a rate comes into force on the entry to IDLE (R13, R89). -/
theorem flagSet_enterIdle {f : Flag} (h : f ≠ .lineError) (b : Branch) (s : State) :
    flagSet f (enterIdle b s) = flagSet f s := by
  have hset : (enterIdle b s).flags = s.flags ∨ (enterIdle b s).flags = s.flags ||| flagMask .lineError := by
    rw [enterIdle_flags]
    unfold ratedFlags truncatedFlags
    split
    · split
      · exact .inr rfl
      · exact .inl rfl
      · exact .inl rfl
    · exact .inl rfl
  rcases hset with hsame | hraised
  · exact flagSet_congr hsame f
  · have hne : (Flag.lineError == f) = false := beq_false_of_ne (Ne.symm h)
    rw [flagSet_congr (t := enterIdle b s) (s := raise .lineError s) hraised, flagSet_raise, hne, Bool.or_false]

/-- The part `v` in which the table is told that the attempt of record `i` on branch `b` failed stands as the part `s`
in which it did, but for that record, what is counted and the answer buffer, which is returned (R87, R88). -/
structure AttemptStands (b : Branch) (i : RecordIndex) (s v : State) : Prop where
  records : ∀ k ≠ i, v.records[k] = s.records[k]
  branches : ∀ d ≠ b, v.branches[d] = s.branches[d]
  queue : v.branches[b].queue = s.branches[b].queue
  same : SameBut (branchParts ++ [.records, .buffers, .flags]) s v
  answer : heldFrame (.branchAnswer b) v = none
  request : heldFrame (.request i) v = heldFrame (.request i) s
  flag : ∀ f, f ≠ .lineError → f ≠ .contention → flagSet f v = flagSet f s
  reply : v.records[i].kind = some .transparent → v.records[i].abandoned = false → heldFrame .owedReply v = none

/-- The branch enters IDLE without its assignment: another branch, and everything but flags, stays. -/
theorem dropped_sameBut (b : Branch) (w : State) :
    SameBut [.branch b, .flags] w (enterIdle b (dropAssignment b w)) :=
  ((dropAssignment_sameBut b w).mono (by simp)).trans (enterIdle_sameBut b _)

theorem flagSet_dropped {f : Flag} (h : f ≠ .lineError) (b : Branch) (w : State) :
    flagSet f (enterIdle b (dropAssignment b w)) = flagSet f w := flagSet_enterIdle h b _

theorem dropped_branch (b : Branch) (w : State) : ∃ x : BranchState,
    (enterIdle b (dropAssignment b w)).branches[b] = { x.rated with status := .idle } ∧
      x.onLine = none ∧ x.queue = w.branches[b].queue :=
  ⟨_, enterIdle_branch b _, by rw [dropAssignment_branch]; exact ⟨rfl, rfl⟩⟩

theorem dropped_idle (b : Branch) (w : State) :
    (enterIdle b (dropAssignment b w)).branches[b].status = .idle ∧
      (enterIdle b (dropAssignment b w)).branches[b].onLine = none ∧
      (enterIdle b (dropAssignment b w)).branches[b].queue = w.branches[b].queue := by
  obtain ⟨x, hx, honLine, hqueue⟩ := dropped_branch b w
  have hkept := x.rated_kept
  rw [hx]
  exact ⟨rfl, (congrArg BranchState.onLine hkept).trans honLine, (congrArg BranchState.queue hkept).trans hqueue⟩

theorem dropped_branch_other {b d : Branch} (h : d ≠ b) (w : State) :
    (enterIdle b (dropAssignment b w)).branches[d] = w.branches[d] := by
  rw [enterIdle_branch_other h]
  exact modifyBranch_other h _ w

/-- A part differs from another at most in the pieces that an exchange may touch. -/
theorem AttemptStands.sameBut {b : Branch} {i : RecordIndex} {s v w : State} (h : AttemptStands b i s v)
    (hw : ExchangeKept v w) : SameBut exchangeParts s (enterIdle b (dropAssignment b w)) := by
  refine ((h.same.mono ?_).trans hw.sameBut).trans ((dropped_sameBut b w).mono ?_)
  · unfold exchangeParts branchParts
    simp
  · unfold exchangeParts
    intro p hp
    rcases List.mem_cons.mp hp with rfl | hp
    · exact List.mem_append_right _ (mem_branchParts b)
    · simp only [List.mem_singleton] at hp
      simp [hp]

/-- The retry of a record (R55). -/
theorem attemptFailed_retried {b : Branch} {i : RecordIndex} {s v : State} (o : ExchangeOutcome)
    (h : AttemptStands b i s v)
    (hretry : v.records[i].retriesLeft ≠ 0 ∧ v.records[i].abandoned = false ∧ v.records[i].cancelPending = false) :
    AttemptFailed b i v.records[i] o s (enterIdle b (dropAssignment b (retryRecord i b v))) := by
  have hrecord : (retryRecord i b v).records[i] =
      { v.records[i] with state := .queued, retriesLeft := v.records[i].retriesLeft - 1 } := updateAt_same ..
  have hothers : ∀ k ≠ i, (retryRecord i b v).records[k] = v.records[k] := fun k hk => updateAt_other _ _ hk
  have hqueue : (retryRecord i b v).branches[b].queue = i :: v.branches[b].queue :=
    congrArg BranchState.queue (modifyBranch_same b _ _)
  have hbranches : ∀ d ≠ b, (retryRecord i b v).branches[d] = v.branches[d] := fun d hd => modifyBranch_other hd _ _
  have hsame : SameBut [.records, .branch b] v (retryRecord i b v) :=
    ((modifyRecord_sameBut i _ v).mono (by simp)).trans ((modifyBranch_sameBut b _ _).mono (by simp))
  have hflags : (retryRecord i b v).flags = v.flags := rfl
  have hbuffers : (retryRecord i b v).buffers = v.buffers := rfl
  generalize retryRecord i b v = w at *
  obtain ⟨hidle, honLine, hq⟩ := dropped_idle b w
  have hdropped := dropped_sameBut b w
  have hflag : flagSet .answerFail (enterIdle b (dropAssignment b w)) = flagSet .answerFail s := by
    rw [flagSet_dropped (f := .answerFail) nofun, flagSet_congr hflags, h.flag .answerFail nofun nofun]
  have hother : ∀ d ≠ b, (enterIdle b (dropAssignment b w)).branches[d] = s.branches[d] := fun d hd => by
    rw [dropped_branch_other hd, hbranches d hd, h.branches d hd]
  have hall : SameBut (branchParts ++ [.records, .buffers, .flags]) s (enterIdle b (dropAssignment b w)) := by
    refine (h.same.trans (hsame.mono ?_)).trans (hdropped.mono ?_)
    · simp [mem_branchParts]
    · simp [mem_branchParts]
  have hrecs : (enterIdle b (dropAssignment b w)).records = w.records := hdropped.2 .records (by decide) (by simp)
  have hbufs : (enterIdle b (dropAssignment b w)).buffers = w.buffers := hdropped.2 .buffers (by decide) (by simp)
  generalize enterIdle b (dropAssignment b w) = t at *
  refine ⟨hidle, honLine, ?_, fun k hk => ?_, fun d hd => .of_eq (hother d hd), hall.mono ?_, ?_⟩
  · rw [heldFrame_of_buffers (hbufs.trans hbuffers)]
    exact h.answer
  · rw [hrecs, hothers k hk, h.records k hk]
  · unfold branchParts
    simp
  · rw [if_pos hretry]
    exact ⟨by rw [hrecs, hrecord], by rw [hq, hqueue, h.queue], hother, hflag, hall⟩

/-- The record is settled by its kind (R54). -/
theorem attemptFailed_settled {b : Branch} {i : RecordIndex} {o : ExchangeOutcome} {s v w : State}
    (h : AttemptStands b i s v)
    (hnoretry : ¬ (v.records[i].retriesLeft ≠ 0 ∧ v.records[i].abandoned = false ∧ v.records[i].cancelPending = false))
    (hw : RecordSettled b o i v w) : AttemptFailed b i v.records[i] o s (enterIdle b (dropAssignment b w)) := by
  obtain ⟨hidle, honLine, -⟩ := dropped_idle b w
  have hdropped := dropped_sameBut b w
  have hall := h.sameBut hw.kept
  have hfail : flagSet .answerFail (enterIdle b (dropAssignment b w)) =
      (flagSet .answerFail s || o == .noAnswer || o == .badAnswer) := by
    rw [flagSet_dropped (f := .answerFail) nofun, hw.answerFail, h.flag .answerFail nofun nofun, Bool.or_assoc]
  have hcompletion : flagSet .completion (enterIdle b (dropAssignment b w)) = flagSet .completion w :=
    flagSet_dropped (f := .completion) nofun b w
  have hother : ∀ d ≠ b, otherBranchKept s.branches[d] (enterIdle b (dropAssignment b w)).branches[d] := fun d hd => by
    rw [dropped_branch_other hd, ← h.branches d hd]
    exact hw.queues d
  have hrecs : (enterIdle b (dropAssignment b w)).records = w.records := hdropped.2 .records (by decide) (by simp)
  have hbufs : (enterIdle b (dropAssignment b w)).buffers = w.buffers := hdropped.2 .buffers (by decide) (by simp)
  have htrunk : (enterIdle b (dropAssignment b w)).trunk = w.trunk := hdropped.2 .trunk (by decide) (by simp)
  have hslots : (enterIdle b (dropAssignment b w)).slots = w.slots := hdropped.2 .slots (by decide) (by simp)
  have hlist : (enterIdle b (dropAssignment b w)).completions = w.completions :=
    hdropped.2 .completions (by decide) (by simp)
  have hstrunk : v.trunk = s.trunk := h.same.2 .trunk (by decide) (by decide)
  have hsslots : v.slots = s.slots := h.same.2 .slots (by decide) (by decide)
  have hsparams : v.params = s.params := h.same.2 .params (by decide) (by decide)
  have hslist : v.completions = s.completions := h.same.2 .completions (by decide) (by decide)
  generalize enterIdle b (dropAssignment b w) = t at *
  refine ⟨hidle, honLine, ?_, fun k hk => ?_, hother, hall, ?_⟩
  · rw [heldFrame_of_buffers hbufs, hw.frames (.branchAnswer b) nofun nofun nofun nofun]
    exact h.answer
  · rw [hrecs, hw.others k hk, h.records k hk]
  · rw [if_neg hnoretry]
    refine ⟨hfail, ?_⟩
    have hframe : heldFrame (.request i) t = heldFrame (.request i) w := heldFrame_of_buffers hbufs _
    split
    · rename_i hkind
      have hr := hw.request (.inl (by rw [hkind]; exact nofun))
      refine ⟨?_, hframe.trans hr, fun hheld => ?_⟩
      · rw [hrecs, hw.record]
        exact (settledRecord_transparent hkind).1
      · have htold := hw.told hkind (h.reply hkind) (by rw [h.request]; exact hheld)
        unfold trunkToldOfFailure at htold ⊢
        rw [htrunk]
        rwa [hstrunk, hsparams] at htold
    · rename_i hkind
      have hr := hw.request (.inl (by rw [hkind]; exact nofun))
      refine ⟨hframe.trans hr, ?_⟩
      have hrecord := hw.record
      rw [settledRecord_deferred hkind, hsparams] at hrecord
      cases hcancel : v.records[i].cancelPending with
      | true =>
        rw [hcancel] at hrecord
        rw [hrecs, if_pos rfl]
        exact hrecord
      | false =>
        rw [hcancel] at hrecord
        rw [hrecs, if_neg Bool.false_ne_true]
        have hjoins : joinsCompletions v.records[i] = true := by
          unfold joinsCompletions
          rw [hkind, hcancel]
          rfl
        refine ⟨hrecord, ?_, ?_, ?_⟩
        · rw [hlist, hw.joins hjoins, hslist]
        · rw [hcompletion, hw.completion, hjoins, Bool.or_true]
        · rw [htrunk, (hw.trunk (by rw [hkind]; exact nofun)).1, hstrunk]
    · rename_i hkind
      refine ⟨?_, ?_, fun k hk => ⟨?_, fun j hj => ?_⟩⟩
      · rw [hrecs, hw.record]
        exact (settledRecord_cyclic hkind).1
      · rw [htrunk, (hw.trunk (by rw [hkind]; exact nofun)).1, hstrunk]
      · rw [hslots, hw.slots, if_pos ⟨hkind, hk⟩, hsslots]
      · have hne : ¬ (v.records[i].kind = some .cyclic ∧ v.records[i].slot = some j) := fun hj' =>
          hj (Option.some.inj (hj'.2.symm.trans hk))
        rw [hslots, hw.slots, if_neg hne, hsslots]
    · trivial
    · trivial

/-- An attempt of a station record that brought no answer (R54). -/
theorem attemptFailed {b : Branch} {i : RecordIndex} {o : ExchangeOutcome} {s v : State} (ho : o ≠ .answered)
    (h : AttemptStands b i s v) (hkind : isStationKind v.records[i] = true) :
    AttemptFailed b i v.records[i] o s (enterIdle b (dropAssignment b (settleAttempt i b o v))) := by
  by_cases hretry : v.records[i].retriesLeft ≠ 0 ∧ v.records[i].abandoned = false ∧ v.records[i].cancelPending = false
  · have heq : settleAttempt i b o v = retryRecord i b v := by
      obtain ⟨hleft, ha, hc⟩ := hretry
      unfold settleAttempt
      dsimp only
      rw [if_neg]
      simp only [ho, ha, hc, beq_false_of_ne hleft]
      decide
    rw [heq]
    exact attemptFailed_retried o h hretry
  · have heq : settleAttempt i b o v = fixOutcome i b o v := by
      unfold settleAttempt
      dsimp only
      rw [if_pos]
      simp only [not_and_or, not_not, Bool.not_eq_false] at hretry
      simp only [Bool.or_eq_true, decide_eq_true_eq, beq_iff_eq]
      tauto
    rw [heq]
    exact attemptFailed_settled h hretry (recordSettled_fixOutcome ho hkind)

end Sys2Proof.Machine
end

section
/-!
The end of an attempt in AWAIT and in RECV that brings no answer: the response window, a bad stored answer, an answer
cut short (section 4.3).
-/

namespace Sys2Proof.Machine

-- The gate's memory limit counts every thread's arena, so the declarations are elaborated one after another.
set_option Elab.async false

/-! ### What ends an answer -/

/-- What the end of a stored answer on branch `b` changes before the attempt is ended: the branch's port and counters,
the frame in its answer buffer, LINE_ERROR. -/
structure AnswerOver (b : Branch) (s u : State) : Prop where
  branch : { u.branches[b] with port := s.branches[b].port, counters := s.branches[b].counters } = s.branches[b]
  same : SameBut [.branch b, .buffers, .flags] s u
  frames : ∀ h : Holder, h ≠ .free → h ≠ .branchAnswer b → heldFrame h u = heldFrame h s
  flag : ∀ f, f ≠ .lineError → flagSet f u = flagSet f s

theorem AnswerOver.trans {b : Branch} {s u v : State} (h1 : AnswerOver b s u) (h2 : AnswerOver b u v) :
    AnswerOver b s v where
  branch := by
    have hu := h1.branch
    rw [← h2.branch] at hu
    exact hu
  same := h1.same.trans h2.same
  frames h hf ha := (h2.frames h hf ha).trans (h1.frames h hf ha)
  flag f hf := (h2.flag f hf).trans (h1.flag f hf)

theorem AnswerOver.refl (b : Branch) (s : State) : AnswerOver b s s where
  branch := rfl
  same := .refl _ s
  frames _ _ _ := rfl
  flag _ _ := rfl

theorem answerOver_modifyBranch {b : Branch} {g : BranchState → BranchState} {s : State}
    (hg : ∀ x, { g x with port := x.port, counters := x.counters } = x) : AnswerOver b s (modifyBranch b g s) where
  branch := by rw [modifyBranch_same]; exact hg _
  same := (modifyBranch_sameBut b g s).mono (by simp)
  frames _ _ _ := rfl
  flag _ _ := rfl

theorem answerOver_modifyPort (b : Branch) (f : PortState → PortState) (s : State) :
    AnswerOver b s (modifyPort (.branch b) f s) := answerOver_modifyBranch fun _ => rfl

theorem answerOver_modifyPortCounters (b : Branch) (f : PortCounters → PortCounters) (s : State) :
    AnswerOver b s (modifyPortCounters (.branch b) f s) := answerOver_modifyPort b _ s

theorem answerOver_lineError (b : Branch) (s : State) : AnswerOver b s (raise .lineError s) where
  branch := rfl
  same := (raise_sameBut .lineError s).mono (by simp)
  frames _ _ _ := rfl
  flag f hf := by rw [flagSet_raise, beq_false_of_ne (Ne.symm hf), Bool.or_false]

theorem answerOver_storeChars (b : Branch) (stored : Bool) (chars : List Byte) (s : State) :
    AnswerOver b s (storeChars (.branch b) stored chars s) := by
  unfold storeChars
  split
  · exact
      { branch := rfl
        same := (writeBuffer_sameBut _ chars s).mono (by simp)
        frames := fun h _ ha => heldFrame_writeBuffer_other (h := .branchAnswer b) ha chars s
        flag := fun _ _ => rfl }
  · exact .refl b s

theorem answerOver_countTruncated (b : Branch) (s : State) : AnswerOver b s (countTruncated (.branch b) s) :=
  (answerOver_modifyPort b _ s).trans (answerOver_lineError b _)

/-! ### The end of the attempt -/

/-- The counters of a branch after an attempt with a result (R88). -/
def resultCounters (o : ExchangeOutcome) (late : Bool) (c : BranchCounters) : BranchCounters :=
  match o with
  | .answered =>
    if late then { c with lateAnswers := countUp c.lateAnswers } else { c with answers := countUp c.answers }
  | .noAnswer => { c with noAnswers := countUp c.noAnswers }
  | .badAnswer => { c with badAnswers := countUp c.badAnswers }
  | .contention | .branchOff => c

/-- The branch stops its window and counts the result (R86, R88). -/
def resultCounted (b : Branch) (i : RecordIndex) (o : ExchangeOutcome) (u : State) : State :=
  modifyBranch b (fun x => { x with
    windowTimer := none
    counters := resultCounters o (u.records[i].abandoned || u.records[i].cancelPending) x.counters }) u

/-- The part in which the table is told the result: the answer buffer is returned unless the attempt is ANSWERED
(R87). -/
def resultReported (b : Branch) (i : RecordIndex) (o : ExchangeOutcome) (u : State) : State :=
  if o = .answered then resultCounted b i o u else returnBuffer (.branchAnswer b) (resultCounted b i o u)

theorem attemptEnds_eq {b : Branch} {i : RecordIndex} (o : ExchangeOutcome) {u : State}
    (h : u.branches[b].onLine = some i) :
    attemptEnds b o u = enterIdle b (dropAssignment b (settleAttempt i b o (resultReported b i o u))) := by
  have honLine : (modifyBranch b (fun x => { x with windowTimer := none }) u).branches[b].onLine = some i := by
    rw [modifyBranch_same]
    exact h
  have hcounted : countResult b o (u.records[i].abandoned || u.records[i].cancelPending)
      (modifyBranch b (fun x => { x with windowTimer := none }) u) = resultCounted b i o u :=
    modifyBranch_modifyBranch ..
  unfold attemptEnds resultReported
  dsimp only
  split
  · rename_i hnone
    exact absurd (honLine.symm.trans hnone) nofun
  · rename_i j hj
    obtain rfl : i = j := Option.some.inj (honLine.symm.trans hj)
    rw [show (modifyBranch b (fun x => { x with windowTimer := none }) u).records = u.records from rfl, hcounted]

theorem BranchState.rated_port_congr {x y : BranchState} (hp : x.port = y.port) (hr : x.pendingRate = y.pendingRate) :
    x.rated.port = y.rated.port := by
  unfold BranchState.rated
  rw [hr]
  cases y.pendingRate with
  | none => exact hp
  | some code =>
    dsimp only
    rw [hp]

/-- An open frame is counted as cut short by a rate that comes into force, and by nothing else (R22, R89). -/
theorem BranchState.rated_counters (x : BranchState) : x.rated.port.counters =
    truncatedOnce { x.port with rx := if x.pendingRate.isSome then x.port.rx else .hunt } := by
  unfold BranchState.rated
  cases x.pendingRate with
  | none => rfl
  | some code => rfl

/-- The branch after the end of its attempt (R86, R88, R89). -/
theorem attemptEnds_ended {b : Branch} {i : RecordIndex} (o : ExchangeOutcome) {u : State}
    (h : u.branches[b].onLine = some i) : let t := attemptEnds b o u
    t.branches[b].windowTimer = none ∧ t.branches[b].pendingRate = none ∧
      t.branches[b].port = u.branches[b].rated.port ∧
      t.branches[b].counters =
        resultCounters o (u.records[i].abandoned || u.records[i].cancelPending) u.branches[b].counters := by
  dsimp only
  rw [attemptEnds_eq o h, enterIdle_branch, dropAssignment_branch]
  have hcounted : (resultReported b i o u).branches[b] = { u.branches[b] with
      windowTimer := none
      counters := resultCounters o (u.records[i].abandoned || u.records[i].cancelPending) u.branches[b].counters } := by
    unfold resultReported
    split <;> exact modifyBranch_same ..
  have hsettled := (settleAttempt_queuesOnly i b o (resultReported b i o u) b).eq
  rw [hcounted] at hsettled
  rw [hsettled]
  refine ⟨?_, BranchState.rated_pendingRate _, BranchState.rated_port_congr rfl rfl, ?_⟩
  · exact congrArg BranchState.windowTimer (BranchState.rated_kept _)
  · exact congrArg BranchState.counters (BranchState.rated_kept _)

/-! ### A failed attempt -/

/-- A live TRANSPARENT record is the one the trunk waits for, so no reply is held (R101, R111). -/
theorem OwedAgrees.no_reply {s : State} (h : OwedAgrees s) {i : RecordIndex}
    (hkind : s.records[i].kind = some .transparent)
    (ha : s.records[i].abandoned = false) : heldFrame .owedReply s = none := by
  obtain ⟨hheld, -, hrecords⟩ := h
  obtain ⟨hlive, hfree⟩ := hrecords i
  have hstate : s.records[i].state ≠ .free := fun hf => by
    rw [hfree hf] at hkind
    cases hkind
  have howed := hlive hkind hstate ha
  cases hnone : heldFrame .owedReply s with
  | none => rfl
  | some chars =>
    have hsome := hheld (by rw [hnone]; rfl)
    rw [howed] at hsome
    rcases hsome with h | h <;> cases h

theorem attemptStands_resultReported {b : Branch} {i : RecordIndex} {o : ExchangeOutcome} {s u : State}
    (ho : o ≠ .answered)
    (h : AnswerOver b s u) (howed : OwedAgrees s) :
    AttemptStands b i s (resultReported b i o u) ∧ (resultReported b i o u).records[i] = s.records[i] := by
  have heq : resultReported b i o u = returnBuffer (.branchAnswer b) (resultCounted b i o u) := if_neg ho
  have hcounted : (resultCounted b i o u).branches[b] = { u.branches[b] with
      windowTimer := none
      counters := resultCounters o (u.records[i].abandoned || u.records[i].cancelPending) u.branches[b].counters } :=
    modifyBranch_same ..
  have hsame : SameBut [.branch b, .buffers, .flags] s (resultCounted b i o u) :=
    h.same.trans ((modifyBranch_sameBut b _ u).mono (by simp))
  have hframes : ∀ g : Holder, g ≠ .free → g ≠ .branchAnswer b →
      heldFrame g (resultCounted b i o u) = heldFrame g s := h.frames
  have hflag : ∀ f, f ≠ .lineError → flagSet f (resultCounted b i o u) = flagSet f s := h.flag
  have hqueue : (resultCounted b i o u).branches[b].queue = s.branches[b].queue :=
    by rw [hcounted]; exact (congrArg BranchState.queue h.branch).trans rfl
  rw [heq]
  generalize resultCounted b i o u = w at *
  have hrecords : w.records = s.records := hsame.2 .records (by decide) (by simp)
  have hreturned : SameBut [.branch b, .buffers, .flags] s (returnBuffer (.branchAnswer b) w) :=
    hsame.trans ((returnBuffer_sameBut _ w).mono (by simp))
  have hkept : ∀ g : Holder, g ≠ .free → g ≠ .branchAnswer b →
      heldFrame g (returnBuffer (.branchAnswer b) w) = heldFrame g s := fun g hf hb => by
    rw [heldFrame_returnBuffer_other hf hb]
    exact hframes g hf hb
  refine ⟨?_, congrArg (·[i]) hrecords⟩
  exact
    { records := fun k _ => congrArg (·[k]) hrecords
      branches := fun d hd => hsame.2 (.branch d) (by fin_cases d <;> decide) (by simp [hd])
      queue := hqueue
      same := hreturned.mono (by simp [mem_branchParts])
      answer := heldFrame_returnBuffer_same (h := .branchAnswer b) nofun w
      request := hkept (.request i) nofun nofun
      flag := fun f hf _ => hflag f hf
      reply := fun hkind ha => by
        have hr : (returnBuffer (.branchAnswer b) w).records[i] = s.records[i] := congrArg (·[i]) hrecords
        rw [hr] at hkind ha
        rw [hkept .owedReply nofun nofun]
        exact howed.no_reply hkind ha }

/-- An attempt that ends in AWAIT or RECV without an answer has failed (R54, R87). -/
theorem attemptEnds_failed {b : Branch} {i : RecordIndex} {o : ExchangeOutcome} {s u : State} (ho : o ≠ .answered)
    (hu : AnswerOver b s u) (howed : OwedAgrees s) (honLine : s.branches[b].onLine = some i)
    (hkind : isStationKind s.records[i] = true) : AttemptFailed b i s.records[i] o s (attemptEnds b o u) := by
  have honLine' : u.branches[b].onLine = some i := (congrArg BranchState.onLine hu.branch).trans honLine
  obtain ⟨hstands, hrecord⟩ := attemptStands_resultReported (i := i) ho hu howed
  rw [attemptEnds_eq o honLine', ← hrecord]
  exact attemptFailed ho hstands (by rw [hrecord]; exact hkind)

end Sys2Proof.Machine
end

section
/-!
The frame that ends an answer: its characters, its CHECK, and what each way of ending comes to (section 4.3).
-/

namespace Sys2Proof.Machine

-- The gate's memory limit counts every thread's arena, so the declarations are elaborated one after another.
set_option Elab.async false

/-! ### The CHECK of an answer -/

theorem bytesOfWord_inj {v w : Word} : bytesOfWord v = bytesOfWord w ↔ v = w := by
  refine ⟨fun h => ?_, fun h => congrArg bytesOfWord h⟩
  simp only [bytesOfWord, List.cons.injEq, and_true] at h
  obtain ⟨hhigh, hlow⟩ := h
  rw [← wordOfBytes_bytes v, hhigh, hlow, wordOfBytes_bytes]

/-- A frame's CHECK matches exactly when it is the CRC of the rest (R7). -/
theorem checkMatches_frame (body : List Byte) (check : Word) :
    checkMatches (body ++ bytesOfWord check) = decide (check = crcOf body) := by
  have hlen : (body ++ bytesOfWord check).length - 2 = body.length := by simp [bytesOfWord]
  unfold checkMatches
  rw [hlen, List.drop_left, List.take_left]
  rw [Bool.eq_iff_iff, beq_iff_eq, bytesOfWord_inj, decide_eq_true_eq]

/-! ### The end of an answer -/

/-- A branch that stores an answer for its record. -/
theorem answerOpen_spec {b : Branch} {i : RecordIndex} {s : State} (h : answerOpen b i s = true) :
    receives s (.branch b) = true ∧ s.branches[b].status = .recv ∧ s.branches[b].onLine = some i ∧
      isStationKind s.records[i] = true ∧
      ∃ c got, s.branches[b].port.rx = .assemble { stored := true, got := c :: got } := by
  unfold answerOpen at h
  simp only [Bool.and_eq_true, beq_iff_eq] at h
  obtain ⟨⟨⟨⟨⟨hr, hst⟩, hon⟩, hstoring⟩, hbegun⟩, hkind⟩ := h
  refine ⟨hr, hst, hon, hkind, ?_⟩
  unfold storing at hstoring
  unfold assemblyBegun at hbegun
  cases hrx : s.branches[b].port.rx with
  | hunt | discard =>
    rw [show (s.port (.branch b)).rx = _ from hrx] at hstoring
    exact absurd hstoring Bool.false_ne_true
  | assemble a =>
    rw [show (s.port (.branch b)).rx = _ from hrx] at hstoring
    rw [hrx] at hbegun
    obtain ⟨stored, got⟩ := a
    obtain rfl : stored = true := hstoring
    cases got with
    | nil => exact absurd hbegun Bool.false_ne_true
    | cons c got => exact ⟨c, got, rfl⟩

/-- The answer that has come is the beginning of the reported frame, from its ADDRESS on. -/
theorem opensWith_address {b : Branch} {chars got : List Byte} {c d : Byte} {stored : Bool} {s : State}
    (hrx : s.branches[b].port.rx = .assemble { stored := stored, got := c :: got })
    (h : opensWith (.branch b) (d :: chars) s = true) : c = d := by
  unfold opensWith at h
  rw [show (s.port (.branch b)).rx = _ from hrx] at h
  simp only [Bool.and_eq_true, List.isPrefixOf_iff_prefix, List.cons_prefix_cons] at h
  exact h.1.1

theorem endAnswer_eq {b : Branch} {a : Assembly} {s : State} (hr : receives s (.branch b) = true)
    (hst : s.branches[b].status = .recv) (hrx : s.branches[b].port.rx = .assemble a) (report : AnswerReport) :
    endAnswer b report s = match report with
      | .complete data check =>
        let chars := frameBody (frameAddress a.got) data ++ bytesOfWord check
        if opensWith (.branch b) chars s then
          frameCompletes (.branch b) a.stored chars
            (storeChars (.branch b) a.stored chars (characterEnds (.branch b) s))
        else s
      | .truncated => cutShort (.branch b) (modifyPort (.branch b) (fun q => { q with charInProgress := false }) s)
      | .malformed count =>
        if a.got.length = 1 then takePosition (.branch b) a count (characterEnds (.branch b) s) else s := by
  have hrecv : (s.branches[b].status == .recv) = true := by rw [hst]; rfl
  unfold endAnswer
  rw [hr, hrecv, hrx]
  cases report <;> rfl

theorem exec_answerEnd {b : Branch} {report : AnswerReport} (h : report.wellFormed = true) (s : State) :
    exec (.answerEnd b report) s = .next (endAnswer b report s) := by
  show execAnswerEnd b report s = _
  unfold execAnswerEnd
  rw [if_pos h]

/-- The part once the whole answer has been stored, its receive side in HUNT. -/
def answerStored (b : Branch) (chars : List Byte) (s : State) : State :=
  setRx (.branch b) .hunt (storeChars (.branch b) true chars (characterEnds (.branch b) s))

theorem answerStored_over (b : Branch) (chars : List Byte) (s : State) : AnswerOver b s (answerStored b chars s) :=
  ((answerOver_modifyPort b _ s).trans (answerOver_storeChars b true chars _)).trans
  (answerOver_modifyPort b (fun q => { q with rx := .hunt }) _)

theorem answerStored_port (b : Branch) (chars : List Byte) (s : State) :
    (answerStored b chars s).branches[b].port.rx = .hunt ∧
      (answerStored b chars s).branches[b].port.counters = s.branches[b].port.counters ∧
      (answerStored b chars s).branches[b].counters = s.branches[b].counters := by
  unfold answerStored setRx
  rw [modifyPort_branch_same]
  have hstored : (storeChars (.branch b) true chars (characterEnds (.branch b) s)).branches[b] =
      (characterEnds (.branch b) s).branches[b] := rfl
  rw [hstored]
  unfold characterEnds
  rw [modifyPort_branch_same]
  exact ⟨rfl, rfl, rfl⟩

theorem answerOver_status {b : Branch} {s u : State} (h : AnswerOver b s u) :
    u.branches[b].status = s.branches[b].status ∧ u.branches[b].onLine = s.branches[b].onLine ∧
      u.branches[b].pendingRate = s.branches[b].pendingRate := by
  have hb := h.branch
  generalize u.branches[b] = y at hb ⊢
  rw [← hb]
  exact ⟨rfl, rfl, rfl⟩

/-- A stored answer that is complete, by whether its CHECK matches and by who sent it (R87). -/
theorem endAnswer_complete {b : Branch} {i : RecordIndex} {s : State} {data : List Byte} {check : Word} {address : Byte}
    (hopen : answerComing b i (frameBody address data ++ bytesOfWord check) s = true) :
    let u := answerStored b (frameBody address data ++ bytesOfWord check) s
    endAnswer b (.complete data check) s =
      if check = crcOf (frameBody address data) then answerGood b address (countGood (.branch b) u)
      else attemptEnds b .badAnswer (raise .lineError
        (modifyPortCounters (.branch b) (fun c => { c with checkErrors := countUp c.checkErrors }) u)) := by
  unfold answerComing at hopen
  rw [Bool.and_eq_true] at hopen
  obtain ⟨hans, hopens⟩ := hopen
  obtain ⟨hr, hst, -, -, c, got, hrx⟩ := answerOpen_spec hans
  obtain rfl : c = address := opensWith_address hrx hopens
  have hstored := (answerOver_status (answerStored_over b (frameBody c data ++ bytesOfWord check) s)).1
  have hframe : frameAddress (frameBody c data ++ bytesOfWord check) = c := rfl
  rw [endAnswer_eq hr hst hrx]
  dsimp only
  rw [show frameAddress (c :: got) = c from rfl, if_pos hopens]
  show frameCompletes (.branch b) true (frameBody c data ++ bytesOfWord check) _ = _
  unfold frameCompletes
  dsimp only
  rw [show setRx (.branch b) .hunt (storeChars (.branch b) true (frameBody c data ++ bytesOfWord check)
    (characterEnds (.branch b) s)) = answerStored b (frameBody c data ++ bytesOfWord check) s from rfl,
    checkMatches_frame]
  generalize answerStored b (frameBody c data ++ bytesOfWord check) s = u at *
  have hrecv : (true && u.branches[b].status == .recv) = true := by
    rw [hstored, hst]
    rfl
  by_cases hgood : check = crcOf (frameBody c data)
  · rw [if_pos (decide_eq_true hgood), if_pos hgood]
    show (if (true && u.branches[b].status == .recv) = true then _ else _) = _
    rw [if_pos hrecv, hframe]
  · rw [if_neg (by simpa using hgood), if_neg hgood]
    have hraised : (raise .lineError (modifyPortCounters (.branch b)
        (fun c => { c with checkErrors := countUp c.checkErrors }) u)).branches[b].status = u.branches[b].status :=
      (answerOver_status ((answerOver_modifyPort b _ u).trans (answerOver_lineError b _))).1
    unfold checkError
    dsimp only
    generalize raise .lineError (modifyPortCounters (.branch b)
      (fun c => { c with checkErrors := countUp c.checkErrors }) u) = v at *
    have hrecv' : (true && v.branches[b].status == .recv) = true := by
      rw [hraised]
      exact hrecv
    exact if_pos hrecv'

theorem countTruncated_branch (b : Branch) (x : RxState) (v : State) :
    (countTruncated (.branch b) (setRx (.branch b) x v)).branches[b] =
    { v.branches[b] with port := { v.branches[b].port with
      rx := x
      counters := { v.branches[b].port.counters with truncated := countUp v.branches[b].port.counters.truncated } }
        } := by
  unfold countTruncated modifyPortCounters setRx
  rw [raise_branches, modifyPort_branch_same, modifyPort_branch_same]

/-- A stored answer that is cut short (R13, R87). -/
theorem endAnswer_truncated {b : Branch} {i : RecordIndex} {s : State} (hopen : answerOpen b i s = true) : ∃ u,
    endAnswer b .truncated s = attemptEnds b .badAnswer u ∧ AnswerOver b s u ∧ flagSet .lineError u = true ∧
      u.branches[b].counters = s.branches[b].counters ∧ u.branches[b].port.rx = .hunt ∧
      u.branches[b].port.counters =
        { s.branches[b].port.counters with truncated := countUp s.branches[b].port.counters.truncated } := by
  obtain ⟨hr, hst, -, -, c, got, hrx⟩ := answerOpen_spec hopen
  let v := modifyPort (.branch b) (fun q => { q with charInProgress := false }) s
  let u := countTruncated (.branch b) (setRx (.branch b) .hunt v)
  have hvport : v.branches[b].port = { s.branches[b].port with charInProgress := false } := by
    show (modifyPort (.branch b) _ s).branches[b].port = _
    rw [modifyPort_branch_same]
  have hvrx : (v.port (.branch b)).rx = .assemble { stored := true, got := c :: got } := by
    show v.branches[b].port.rx = _
    rw [hvport]
    exact hrx
  have hover : AnswerOver b s u := ((answerOver_modifyPort b _ s).trans
    (answerOver_modifyPort b (fun q => { q with rx := .hunt }) v)).trans (answerOver_countTruncated b _)
  have hstatus : (true && u.branches[b].status == .recv) = true := by
    rw [(answerOver_status hover).1, hst]
    rfl
  have hbranch : u.branches[b] = { v.branches[b] with port := { v.branches[b].port with
      rx := .hunt
      counters := { v.branches[b].port.counters with truncated := countUp v.branches[b].port.counters.truncated } } } :=
    countTruncated_branch b .hunt v
  have hcounters : v.branches[b].counters = s.branches[b].counters := by
    show (modifyPort (.branch b) _ s).branches[b].counters = _
    rw [modifyPort_branch_same]
  refine ⟨u, ?_, hover, ?_, ?_, ?_, ?_⟩
  · rw [endAnswer_eq hr hst hrx]
    show cutShort (.branch b) v = _
    have hopened : truncateOpen (.branch b) v = u := by
      unfold truncateOpen
      rw [hvrx]
      rfl
    have hstoring : storing (.branch b) v = true := by
      unfold storing
      rw [hvrx]
    unfold cutShort
    rw [hopened, hstoring]
    exact if_pos hstatus
  · show flagSet .lineError (raise .lineError _) = true
    rw [flagSet_raise]
    exact Bool.or_true _
  · rw [hbranch]
    exact hcounters
  · rw [hbranch]
  · rw [hbranch, hvport]

/-- A stored answer whose COUNT is above 60 (R11, R87). -/
theorem endAnswer_malformed {b : Branch} {i : RecordIndex} {address count : Byte} {s : State}
    (hopen : answerOpen b i s = true) (hcount : 60 < count.toNat)
    (haddress : s.branches[b].port.rx = .assemble { stored := true, got := [address] }) : ∃ u,
    endAnswer b (.malformed count) s = attemptEnds b .badAnswer u ∧ AnswerOver b s u ∧ flagSet .lineError u = true ∧
      u.branches[b].counters = s.branches[b].counters ∧ u.branches[b].port.rx = .discard ∧
      u.branches[b].port.counters =
        { s.branches[b].port.counters with truncated := countUp s.branches[b].port.counters.truncated } := by
  obtain ⟨hr, hst, -, -, -⟩ := answerOpen_spec hopen
  let v := storeChars (.branch b) true ([address] ++ [count]) (characterEnds (.branch b) s)
  let u := countTruncated (.branch b) (setRx (.branch b) .discard v)
  have hvbranch : v.branches[b] = { s.branches[b] with port := { s.branches[b].port with
      lineRest := 0, charInProgress := false, gapTimeout := s.branches[b].port.charTimeout } } := by
    show (characterEnds (.branch b) s).branches[b] = _
    unfold characterEnds
    rw [modifyPort_branch_same]
  have hover : AnswerOver b s u := (((answerOver_modifyPort b _ s).trans (answerOver_storeChars b true _ _)).trans
    (answerOver_modifyPort b (fun q => { q with rx := .discard }) v)).trans (answerOver_countTruncated b _)
  have hstatus : (true && u.branches[b].status == .recv) = true := by
    rw [(answerOver_status hover).1, hst]
    rfl
  have hbranch : u.branches[b] = { v.branches[b] with port := { v.branches[b].port with
      rx := .discard
      counters := { v.branches[b].port.counters with truncated := countUp v.branches[b].port.counters.truncated } } } :=
    countTruncated_branch b .discard v
  refine ⟨u, ?_, hover, ?_, ?_, ?_, ?_⟩
  · rw [endAnswer_eq hr hst haddress]
    show takePosition (.branch b) _ count (characterEnds (.branch b) s) = _
    have hmalformed : ([address] ++ [count]).length = 2 ∧ Config.maxData < count.toNat := ⟨rfl, hcount⟩
    unfold takePosition
    dsimp only
    rw [if_pos hmalformed]
    exact if_pos hstatus
  · show flagSet .lineError (raise .lineError _) = true
    rw [flagSet_raise]
    exact Bool.or_true _
  · rw [hbranch, hvbranch]
  · rw [hbranch]
  · rw [hbranch, hvbranch]

end Sys2Proof.Machine
end

section
/-! An attempt that brings no answer: the window expires, or what is stored is not a good answer (section 4.3). -/

namespace Sys2Proof.Machine

-- The gate's memory limit counts every thread's arena, so the declarations are elaborated one after another.
set_option Elab.async false

/-- The end of a bad answer (R54, R87, R88): what becomes of the attempt, the window and the counters. -/
theorem badAnswer_ended {b : Branch} {i : RecordIndex} {s u : State} (hu : AnswerOver b s u) (howed : OwedAgrees s)
    (honLine : s.branches[b].onLine = some i) (hkind : isStationKind s.records[i] = true)
    (hrx : u.branches[b].port.rx = .hunt ∨ u.branches[b].port.rx = .discard) : let t := attemptEnds b .badAnswer u
    AttemptFailed b i s.records[i] .badAnswer s t ∧ t.branches[b].windowTimer = none ∧
      t.branches[b].counters =
        { u.branches[b].counters with badAnswers := countUp u.branches[b].counters.badAnswers } ∧
      t.branches[b].port.counters = u.branches[b].port.counters := by
  have honLine' : u.branches[b].onLine = some i := (answerOver_status hu).2.1.trans honLine
  obtain ⟨hwindow, -, hport, hcounters⟩ := attemptEnds_ended .badAnswer honLine'
  refine ⟨attemptEnds_failed nofun hu howed honLine hkind, hwindow, hcounters, ?_⟩
  rw [hport, BranchState.rated_counters]
  unfold truncatedOnce
  rcases hrx with h | h <;> rw [h] <;> cases u.branches[b].pendingRate <;> rfl

/-- A flag that is not cleared is still set (section 8.1). -/
theorem flagSet_of_kept {f : Flag} {s t : State} (h : s.flags &&& t.flags = s.flags) (hs : flagSet f s = true) :
    flagSet f t = true := by
  unfold flagSet at hs ⊢
  have hbit := congrArg (BitVec.getLsbD · (flagBit f)) h
  rw [BitVec.getLsbD_and, hs, Bool.true_and] at hbit
  exact hbit

theorem flagSet_attemptEnds {f : Flag} (b : Branch) (o : ExchangeOutcome) {u : State} (h : flagSet f u = true) :
    flagSet f (attemptEnds b o u) = true :=
  flagSet_of_kept ((attemptEnds_keeps (m := True) b o u).flags trivial) h

/-- Settles O52: every failed attempt is retried or settled by its kind, whatever ended it. -/
theorem attemptsFail : Obligations.AttemptsFail := by
  intro b i s howed hr x bad
  have hrun : ∀ f : State → State, outsideReset f s = .next (f s) := fun f => outsideReset_of_running hr
  refine ⟨fun hst => (hrun _).trans (congrArg _ (if_neg hst)), fun hst honLine hkind => ?_, ?_,
    fun report hreport hopen => ?_⟩
  · refine ⟨attemptEnds b .noAnswer s, (hrun _).trans (congrArg _ (if_pos hst)),
      attemptEnds_failed nofun (.refl b s) howed honLine hkind, ?_⟩
    obtain ⟨hwindow, hrate, hport, hcounters⟩ := attemptEnds_ended .noAnswer honLine
    exact ⟨hwindow, hrate, by rw [hport, BranchState.rated_counters], hcounters⟩
  · intro data check hdata address hopen good hwho
    have hans : answerOpen b i s = true := by
      unfold answerComing at hopen
      rw [Bool.and_eq_true] at hopen
      exact hopen.1
    have hwell : (AnswerReport.complete data check).wellFormed = true := by
      show fitsFrame data = true
      simpa [fitsFrame] using hdata
    obtain ⟨-, -, honLine, hkind, -⟩ := answerOpen_spec hans
    have hend := endAnswer_complete hopen
    have hstored := answerStored_over b (frameBody address data ++ bytesOfWord check) s
    obtain ⟨hrx, hport, hcounters⟩ := answerStored_port b (frameBody address data ++ bytesOfWord check) s
    refine ⟨_, exec_answerEnd hwell s, ?_⟩
    rw [hend]
    generalize answerStored b (frameBody address data ++ bytesOfWord check) s = u at *
    by_cases hgood : check = crcOf (frameBody address data)
    · have hg : good = true := decide_eq_true hgood
      have hover : AnswerOver b s (countGood (.branch b) u) := hstored.trans (answerOver_modifyPortCounters b _ u)
      have hgoodBranch : (countGood (.branch b) u).branches[b] = { u.branches[b] with port := { u.branches[b].port with
          counters := { u.branches[b].port.counters with
            framesRxGood := countUp u.branches[b].port.counters.framesRxGood } } } := modifyPort_branch_same ..
      rw [if_pos hgood]
      generalize countGood (.branch b) u = w at *
      have hover' : AnswerOver b s (modifyBranchCounters b
          (fun c => { c with wrongResponder := countUp c.wrongResponder }) w) :=
        hover.trans (answerOver_modifyBranch fun _ => rfl)
      have hwrong : answerGood b address w = attemptEnds b .badAnswer (modifyBranchCounters b
          (fun c => { c with wrongResponder := countUp c.wrongResponder }) w) := by
        have hon : w.branches[b].onLine = some i := (answerOver_status hover).2.1.trans honLine
        have hrecords : w.records = s.records := hover.same.2 .records (by decide) (by simp)
        unfold answerGood
        rw [hon]
        dsimp only
        rw [hrecords]
        exact if_neg (Ne.symm (hwho hg))
      have hbranch : (modifyBranchCounters b (fun c => { c with wrongResponder := countUp c.wrongResponder })
          w).branches[b] =
          { w.branches[b] with counters := { w.branches[b].counters with
            wrongResponder := countUp w.branches[b].counters.wrongResponder } } := modifyBranch_same ..
      rw [hwrong]
      generalize modifyBranchCounters b (fun c => { c with wrongResponder := countUp c.wrongResponder }) w = v at *
      obtain ⟨hfailed, hwindow, hcount, hline⟩ := badAnswer_ended hover' howed honLine hkind
        (.inl (by rw [hbranch, hgoodBranch]; exact hrx))
      refine ⟨hfailed, hwindow, ?_, ?_, fun h => absurd (hg.symm.trans h) nofun⟩
      · rw [hcount, hbranch, hgoodBranch, hcounters, if_pos hg]
      · rw [hline, hbranch, hgoodBranch, hport, if_pos hg]
    · have hg : good = false := decide_eq_false hgood
      have hbad : ¬ good = true := ne_true_of_eq_false hg
      have hcheck := modifyPort_branch_same b (fun q => { q with
        counters := { q.counters with checkErrors := countUp q.counters.checkErrors } }) u
      have hover : AnswerOver b s (raise .lineError (modifyPortCounters (.branch b)
          (fun c => { c with checkErrors := countUp c.checkErrors }) u)) :=
        hstored.trans ((answerOver_modifyPortCounters b _ u).trans (answerOver_lineError b _))
      have hbranch : (raise .lineError (modifyPortCounters (.branch b)
          (fun c => { c with checkErrors := countUp c.checkErrors }) u)).branches[b] = _ := hcheck
      have hset : flagSet .lineError (raise .lineError (modifyPortCounters (.branch b)
          (fun c => { c with checkErrors := countUp c.checkErrors }) u)) = true := by
        rw [flagSet_raise]
        exact Bool.or_true _
      rw [if_neg hgood]
      generalize raise .lineError (modifyPortCounters (.branch b)
        (fun c => { c with checkErrors := countUp c.checkErrors }) u) = v at *
      obtain ⟨hfailed, hwindow, hcount, hline⟩ := badAnswer_ended hover howed honLine hkind
        (.inl (by rw [hbranch]; exact hrx))
      refine ⟨hfailed, hwindow, ?_, ?_, fun _ => flagSet_attemptEnds b _ hset⟩
      · rw [hcount, hbranch, hcounters, if_neg hbad]
      · rw [hline, hbranch, hport, if_neg hbad]
  · obtain ⟨-, -, honLine, hkind, -⟩ := answerOpen_spec hopen
    have hcut : ∃ u, exec (.answerEnd b report) s = .next (attemptEnds b .badAnswer u) ∧ AnswerOver b s u ∧
        flagSet .lineError u = true ∧ u.branches[b].counters = s.branches[b].counters ∧
        (u.branches[b].port.rx = .hunt ∨ u.branches[b].port.rx = .discard) ∧ u.branches[b].port.counters =
          { s.branches[b].port.counters with truncated := countUp s.branches[b].port.counters.truncated } := by
      rcases hreport with rfl | ⟨count, hcount, rfl, address, haddress⟩
      · obtain ⟨u, hend, hover, hflag, hcounters, hrx, hport⟩ := endAnswer_truncated hopen
        exact ⟨u, by rw [exec_answerEnd rfl, hend], hover, hflag, hcounters, .inl hrx, hport⟩
      · obtain ⟨u, hend, hover, hflag, hcounters, hrx, hport⟩ := endAnswer_malformed hopen hcount haddress
        have hwell : (AnswerReport.malformed count).wellFormed = true := decide_eq_true hcount
        exact ⟨u, (exec_answerEnd hwell s).trans (congrArg _ hend), hover, hflag, hcounters, .inr hrx, hport⟩
    obtain ⟨u, hexec, hover, hflag, hcounters, hrx, hport⟩ := hcut
    obtain ⟨hfailed, hwindow, hcount, hline⟩ := badAnswer_ended hover howed honLine hkind hrx
    exact ⟨_, hexec, hfailed, hwindow, by rw [hcount, hcounters], flagSet_attemptEnds b _ hflag, by rw [hline, hport]⟩

end Sys2Proof.Machine
end

section
/-! A good answer from the right address reaches the master, the completion list or the snapshot (sections 3.6, 3.7). -/

namespace Sys2Proof.Machine

-- The gate's memory limit counts every thread's arena, so the declarations are elaborated one after another.
set_option Elab.async false

/-! ### The frame of a holder -/

/-- A holder whose every buffer holds the same characters, and that has one, holds that frame. -/
theorem heldFrame_of_all {h : Holder} {chars : List Byte} {s : State}
    (hall : ∀ n : Fin Config.bufferCount, s.buffers[n].holder = h → s.buffers[n].chars = chars)
    (hsome : ∃ n : Fin Config.bufferCount, s.buffers[n].holder = h) : heldFrame h s = some chars := by
  obtain ⟨n, hn⟩ := hsome
  rw [heldFrame_eq_lowest]
  cases hlow : lowestIndex fun i : Fin Config.bufferCount => s.buffers[i].holder == h with
  | none =>
    have hnone := lowestIndex_eq_none.mp hlow n
    rw [hn] at hnone
    simp at hnone
  | some m =>
    have hm := (lowestIndex_eq_some.mp hlow).1
    exact congrArg some (hall m (by simpa using hm))

theorem exists_holder_of_heldFrame {h : Holder} {s : State} (hs : (heldFrame h s).isSome = true) :
    ∃ n : Fin Config.bufferCount, s.buffers[n].holder = h := by
  by_contra hn
  push Not at hn
  rw [heldFrame_eq_none.mpr hn] at hs
  exact absurd hs Bool.false_ne_true

theorem handedOver_after_return {h g k : Holder} {s : State} {n : Fin Config.bufferCount} (hn : s.buffers[n].holder = h)
    (hk : h ≠ k) : (handOver h g (returnBuffer k s)).buffers[n] = { s.buffers[n] with holder := g } := by
  have hne : s.buffers[n].holder ≠ k := by
    rw [hn]
    exact hk
  rw [handOver_buffers, returnBuffer_buffers, if_neg hne, if_pos hn]

/-! ### The record of an answered attempt -/

/-- What an answer leaves alone whatever the kind of its record `i`: the other records, a REQUEST buffer that is
returned, ANSWER_FAIL (R56, R57, R60, R61). -/
def AnswerTaken (i : RecordIndex) (v w : State) : Prop :=
  (∀ k ≠ i, w.records[k] = v.records[k]) ∧ heldFrame (.request i) w = none ∧
    flagSet .answerFail w = flagSet .answerFail v

theorem answerTaken_freed {i : RecordIndex} {u v : State} (hrecords : ∀ k ≠ i, u.records[k] = v.records[k])
    (hflags : u.flags = v.flags) : AnswerTaken i v (freeRecord i u) := by
  refine ⟨fun k hk => ?_, heldFrame_freeRecord_request i u, ?_⟩
  · rw [freeRecord_records, if_neg hk, hrecords k hk]
  · rw [flagSet_congr (freeRecord_flags i u), flagSet_congr hflags]

/-- An answer that no one waits for is dropped with its record (R59, R72). -/
theorem lateAnswer_dropped (b : Branch) (i : RecordIndex) (v : State) :
    let w := freeRecord i (dropLateAnswer b .answered v)
    AnswerTaken i v w ∧ w.records[i] = .free ∧ w.trunk = v.trunk ∧ w.slots = v.slots ∧
      heldFrame (.branchAnswer b) w = none := by
  dsimp only
  have hdrop : dropLateAnswer b .answered v = returnBuffer (.branchAnswer b) v := if_pos rfl
  rw [hdrop]
  refine ⟨answerTaken_freed (fun _ _ => rfl) rfl, ?_, freeRecord_trunk .., freeRecord_slots .., ?_⟩
  · rw [freeRecord_records, if_pos rfl]
  · rw [heldFrame_freeRecord_other (h := .branchAnswer b) i nofun nofun nofun]
    exact heldFrame_returnBuffer_same (h := .branchAnswer b) nofun v

/-- An answer owed to the master: the frame under the record's trunk address (R57, R111). -/
theorem answerTransparent_owed {b : Branch} {i : RecordIndex} {data : List Byte} {line : Byte} {v : State}
    (hdata : data.length ≤ 60) (hreply : heldFrame .owedReply v = none)
    (hall : ∀ n : Fin Config.bufferCount, v.buffers[n].holder = .branchAnswer b →
      v.buffers[n].chars = mkFrame line data) :
    let w := answerTransparent i b v
    let a := v.records[i].trunkAddress.getD 0
    AnswerTaken i v w ∧ w.records[i] = .free ∧ w.slots = v.slots ∧ heldFrame (.branchAnswer b) w = none ∧
      ((heldFrame (.branchAnswer b) v).isSome = true →
        w.trunk.owed = .answer ∧ w.trunk.port.tx = .lead { address := a, data := data } ∧
          holdsFrame .owedReply (mkFrame a data) w) := by
  dsimp only
  let a := v.records[i].trunkAddress.getD 0
  let f := mkFrame a (frameData ((heldFrame (.branchAnswer b) v).getD []))
  let u := handOver (.answer i) .owedReply (writeBuffer (.answer i) f (handOver (.branchAnswer b) (.answer i) v))
  have heq : answerTransparent i b v = freeRecord i (oweReply .answer .owedReply u) := rfl
  have hu : ∀ n : Fin Config.bufferCount, u.buffers[n] =
      if v.buffers[n].holder = .branchAnswer b ∨ v.buffers[n].holder = .answer i then
        { holder := .owedReply, chars := f } else v.buffers[n] := by
    intro n
    show (handOver _ _ _).buffers[n] = _
    rw [handOver_buffers, writeBuffer_buffers, handOver_buffers]
    generalize v.buffers[n] = c
    obtain ⟨h, chars⟩ := c
    by_cases hb : h = .branchAnswer b
    · simp [hb]
    · by_cases ha : h = .answer i
      · simp [ha]
      · simp [hb, ha]
  rw [heq]
  refine ⟨answerTaken_freed (fun _ _ => rfl) rfl, ?_, freeRecord_slots .., ?_, fun hheld => ?_⟩
  · rw [freeRecord_records, if_pos rfl]
  · rw [heldFrame_freeRecord_other (h := .branchAnswer b) i nofun nofun nofun]
    refine Eq.trans (heldFrame_handOver_other (h := .answer i) (g := .owedReply) (k := .branchAnswer b) nofun nofun _)
      ?_
    rw [heldFrame_writeBuffer_other (h := .answer i) (g := .branchAnswer b) nofun]
    exact heldFrame_handOver_from (h := .branchAnswer b) (g := .answer i) nofun v
  · have hf : f = mkFrame a data := by
      have hframe := heldFrame_of_all hall (exists_holder_of_heldFrame hheld)
      show mkFrame a (frameData ((heldFrame (.branchAnswer b) v).getD [])) = _
      rw [hframe, Option.getD_some, frameData_mkFrame line hdata]
    obtain ⟨n, hn⟩ := exists_holder_of_heldFrame hheld
    have hun : u.buffers[n] = { holder := .owedReply, chars := f } := by
      rw [hu, if_pos (.inl hn)]
    have howed : heldFrame .owedReply u = some f := by
      refine heldFrame_of_all (fun m hm => ?_) ⟨n, by rw [hun]⟩
      rw [hu] at hm ⊢
      split at hm
      · rename_i h
        rw [if_pos h]
      · exact absurd hm (heldFrame_eq_none.mp hreply m)
    have hbuffers : (oweReply .answer .owedReply u).buffers = u.buffers := rfl
    have htrunk : (oweReply .answer .owedReply u).trunk.owed = .answer ∧
        (oweReply .answer .owedReply u).trunk.port.tx = .lead { address := a, data := data } := by
      refine ⟨rfl, ?_⟩
      show TxState.lead (frameToSend .owedReply (modifyTrunk (fun t => { t with owed := .answer }) u)) = _
      unfold frameToSend
      rw [show heldFrame .owedReply (modifyTrunk (fun t => { t with owed := .answer }) u) = some f from howed, hf]
      dsimp only [Option.getD_some]
      rw [frameAddress_mkFrame, frameData_mkFrame a hdata]
    rw [freeRecord_trunk]
    refine ⟨htrunk.1, htrunk.2, n, ?_⟩
    rw [freeRecord_buffers, returnBuffer_buffers, returnBuffer_buffers, hbuffers, hun, hf]
    rfl

/-- A DEFERRED record that is answered keeps the frame as its ANSWER (R60, R66). -/
theorem endDeferred_answered {b : Branch} {i : RecordIndex} {v : State} : let w := endDeferred i b .answered v
    AnswerTaken i v w ∧
      w.records[i] = { v.records[i] with
        state := .ended, outcome := some .answered, hold := some { count := 0, limit := v.params.holdTime * 100 } } ∧
      w.trunk = v.trunk ∧ w.slots = v.slots ∧ heldFrame (.branchAnswer b) w = none ∧
      w.completions = v.completions ++ [i] ∧ flagSet .completion w = true ∧
      ∀ n : Fin Config.bufferCount, v.buffers[n].holder = .branchAnswer b →
        w.buffers[n] = { v.buffers[n] with holder := .answer i } := by
  dsimp only
  have heq : endDeferred i b .answered v = raise .completion
      { leaveQueues i (modifyRecord i
        (fun r => { r with
          state := .ended, outcome := some .answered, hold := some { count := 0, limit := v.params.holdTime * 100 } })
        (handOver (.branchAnswer b) (.answer i) (returnBuffer (.request i) v))) with
        completions := v.completions ++ [i] } := rfl
  have hbuffers : (endDeferred i b .answered v).buffers =
      (handOver (.branchAnswer b) (.answer i) (returnBuffer (.request i) v)).buffers := by
    rw [heq]
    rfl
  have hflag : ∀ f, flagSet f (endDeferred i b .answered v) = (flagSet f v || Flag.completion == f) := fun f => by
    rw [heq, flagSet_raise]
    rfl
  refine ⟨⟨fun k hk => ?_, ?_, ?_⟩, ?_, ?_, ?_, ?_, ?_, ?_, fun n hn => ?_⟩
  · rw [heq]
    exact updateAt_other _ _ hk
  · rw [heldFrame_of_buffers hbuffers, heldFrame_handOver_other (h := .branchAnswer b) (g := .answer i)
      (k := .request i) nofun nofun]
    exact heldFrame_returnBuffer_same (h := .request i) nofun v
  · rw [hflag]
    exact Bool.or_false _
  · rw [heq]
    exact updateAt_same ..
  · rw [heq]
    rfl
  · rw [heq]
    rfl
  · rw [heldFrame_of_buffers hbuffers]
    exact heldFrame_handOver_from (h := .branchAnswer b) (g := .answer i) nofun _
  · rw [heq]
    rfl
  · rw [hflag]
    exact Bool.or_true _
  · rw [hbuffers, handedOver_after_return (h := .branchAnswer b) (k := .request i) hn nofun]

/-- The slot of an answered poll: its snapshot is replaced and the poll ends (R135, R136). -/
theorem pollEnds_answered (k : SlotIndex) (b : Branch) (v : State) : let w := pollEnds k b true v
    w = { v with slots := w.slots, buffers := w.buffers } ∧ (∀ j ≠ k, w.slots[j] = v.slots[j]) ∧
      w.slots[k] = { missedSlot v.slots[k] with seq := v.slots[k].seq + 1, age := some 0, misses := 0 } ∧
      (∀ n : Fin Config.bufferCount, v.buffers[n].holder = .branchAnswer b →
        w.buffers[n] = { v.buffers[n] with holder := .snapshot k }) := by
  dsimp only
  have heq : pollEnds k b true v = slotLeavePoll k (replaceSnapshot k b v) := rfl
  have hslot : (replaceSnapshot k b v).slots[k] =
      { v.slots[k] with seq := v.slots[k].seq + 1, age := some 0, misses := 0 } := updateAt_same ..
  have hother : ∀ j ≠ k, (replaceSnapshot k b v).slots[j] = v.slots[j] := fun j hj => modifySlot_other hj _ _
  have hbuffers : ∀ n : Fin Config.bufferCount, v.buffers[n].holder = .branchAnswer b →
      (replaceSnapshot k b v).buffers[n] = { v.buffers[n] with holder := .snapshot k } := fun n hn => by
    exact handedOver_after_return (h := .branchAnswer b) (k := .snapshot k) hn nofun
  have hkept : replaceSnapshot k b v = { v with
      slots := (replaceSnapshot k b v).slots, buffers := (replaceSnapshot k b v).buffers } := rfl
  rw [heq]
  generalize replaceSnapshot k b v = u at *
  have hstate : u.slots[k].state = v.slots[k].state := by rw [hslot]
  unfold slotLeavePoll missedSlot
  rw [hstate]
  cases hcase : v.slots[k].state with
  | onLine | stopping =>
    refine ⟨by rw [hkept]; rfl, fun j hj => ?_, ?_, hbuffers⟩
    · exact (modifySlot_other hj _ u).trans (hother j hj)
    · refine (updateAt_same ..).trans ?_
      rw [hslot]
  | unset | stopped | armed | due =>
    refine ⟨hkept, hother, ?_, hbuffers⟩
    rw [hslot]
    dsimp only
    rw [hcase]

end Sys2Proof.Machine
end

section
/-! The delivery of a good answer by the kind of its record (section 4.3). -/

namespace Sys2Proof.Machine

-- The gate's memory limit counts every thread's arena, so the declarations are elaborated one after another.
set_option Elab.async false

theorem settleAttempt_answered (i : RecordIndex) (b : Branch) (v : State) :
    settleAttempt i b .answered v = fixOutcome i b .answered v := by
  unfold settleAttempt
  simp

theorem settleAttempt_answered_transparent {i : RecordIndex} {v : State} (h : v.records[i].kind = some .transparent)
    (b : Branch) : settleAttempt i b .answered v = settleTransparent i b .answered v := by
  rw [settleAttempt_answered]
  unfold fixOutcome noteOutcome
  rw [h]

theorem settleAttempt_answered_deferred {i : RecordIndex} {v : State} (h : v.records[i].kind = some .deferred)
    (b : Branch) : settleAttempt i b .answered v = settleDeferred i b .answered v := by
  rw [settleAttempt_answered]
  unfold fixOutcome noteOutcome
  rw [h]

theorem settleAttempt_answered_cyclic {i : RecordIndex} {v : State} (h : v.records[i].kind = some .cyclic)
    (b : Branch) : settleAttempt i b .answered v = settleCyclic i b .answered v := by
  rw [settleAttempt_answered]
  unfold fixOutcome noteOutcome
  rw [h]

/-- The part in which the table is told of a good answer (R87, R88). -/
structure AnswerReported (b : Branch) (frame : List Byte) (s v : State) : Prop where
  records : v.records = s.records
  trunk : v.trunk = s.trunk
  slots : v.slots = s.slots
  completions : v.completions = s.completions
  params : v.params = s.params
  branches : ∀ d ≠ b, v.branches[d] = s.branches[d]
  same : SameBut exchangeParts s v
  buffers : ∀ n : Fin Config.bufferCount, v.buffers[n] =
    if s.buffers[n].holder = .branchAnswer b then { holder := .branchAnswer b, chars := frame } else s.buffers[n]
  answerFail : flagSet .answerFail v = flagSet .answerFail s

theorem AnswerReported.written {b : Branch} {frame : List Byte} {s v : State} (h : AnswerReported b frame s v)
    {n : Fin Config.bufferCount} (hn : v.buffers[n].holder = .branchAnswer b) : v.buffers[n].chars = frame := by
  rw [h.buffers] at hn ⊢
  split
  · rfl
  · rename_i hne
    rw [if_neg hne] at hn
    exact absurd hn hne

theorem AnswerReported.held {b : Branch} {frame : List Byte} {s v : State} (h : AnswerReported b frame s v)
    {n : Fin Config.bufferCount} (hn : s.buffers[n].holder = .branchAnswer b) :
    v.buffers[n] = { holder := .branchAnswer b, chars := frame } := by
  rw [h.buffers, if_pos hn]

theorem AnswerReported.other {b : Branch} {frame : List Byte} {s v : State}
    (h : AnswerReported b frame s v) {g : Holder}
    (hg : g ≠ .branchAnswer b) (hnone : heldFrame g s = none) : heldFrame g v = none := by
  rw [heldFrame_eq_none] at hnone ⊢
  intro n
  rw [h.buffers]
  split
  · exact Ne.symm hg
  · exact hnone n

theorem AnswerReported.some {b : Branch} {frame : List Byte} {s v : State} (h : AnswerReported b frame s v)
    (hs : (heldFrame (.branchAnswer b) s).isSome = true) : (heldFrame (.branchAnswer b) v).isSome = true := by
  obtain ⟨n, hn⟩ := exists_holder_of_heldFrame hs
  rw [heldFrame_of_all (chars := frame) (fun m hm => h.written hm) ⟨n, by rw [h.held hn]⟩]
  rfl

/-- The answer of a complete good frame is reported with the frame in the answer buffer. -/
theorem answerReported_of_stored {b : Branch} {i : RecordIndex} (frame : List Byte) (s : State) :
    AnswerReported b frame s (resultCounted b i .answered (countGood (.branch b) (answerStored b frame s))) := by
  have hover : AnswerOver b s (countGood (.branch b) (answerStored b frame s)) :=
    (answerStored_over b frame s).trans (answerOver_modifyPortCounters b _ _)
  have hbuffers : ∀ n : Fin Config.bufferCount, (countGood (.branch b) (answerStored b frame s)).buffers[n] =
      if s.buffers[n].holder = .branchAnswer b then { holder := .branchAnswer b, chars := frame } else
        s.buffers[n] := by
    intro n
    have hstored : (countGood (.branch b) (answerStored b frame s)).buffers[n] =
        (writeBuffer (.branchAnswer b) frame (characterEnds (.branch b) s)).buffers[n] := rfl
    rw [hstored, writeBuffer_buffers]
    show (if s.buffers[n].holder = _ then { s.buffers[n] with chars := frame } else s.buffers[n]) = _
    split
    · rename_i h
      dsimp only
      rw [h]
    · rfl
  generalize countGood (.branch b) (answerStored b frame s) = u at *
  have hsame : SameBut [.branch b, .buffers, .flags] s (resultCounted b i .answered u) :=
    hover.same.trans ((modifyBranch_sameBut b _ u).mono (by simp))
  have hpool : (resultCounted b i .answered u).buffers = u.buffers := rfl
  have hflags : (resultCounted b i .answered u).flags = u.flags := rfl
  generalize resultCounted b i .answered u = v at *
  exact
    { records := hsame.2 .records (by decide) (by simp)
      trunk := hsame.2 .trunk (by decide) (by simp)
      slots := hsame.2 .slots (by decide) (by simp)
      completions := hsame.2 .completions (by decide) (by simp)
      params := hsame.2 .params (by decide) (by simp)
      branches := fun d hd => hsame.2 (.branch d) (by fin_cases d <;> decide) (by simp [hd])
      same := hsame.mono (by simp [exchangeParts, mem_branchParts])
      buffers := fun n => by rw [hpool, hbuffers]
      answerFail := (flagSet_congr hflags _).trans (hover.flag .answerFail nofun) }

/-- What the delivery of an answer comes to, by the kind of its record (R57, R59, R60, R61, R72). -/
def AnswerGoes (b : Branch) (i : RecordIndex) (data : List Byte) (s t : State) : Prop :=
  let r := s.records[i]
  let frame := mkFrame r.lineAddress data
  match r.kind with
  | some .deferred =>
    t.trunk = s.trunk ∧ t.slots = s.slots ∧ heldFrame (.branchAnswer b) t = none ∧
    if r.cancelPending then t.records[i] = Record.free
    else
      t.records[i] = { r with
        state := .ended, outcome := some .answered
        hold := some { count := 0, limit := s.params.holdTime * 100 } } ∧
      t.completions = s.completions ++ [i] ∧ flagSet .completion t = true ∧
      ∀ n : Fin Config.bufferCount, s.buffers[n].holder = .branchAnswer b →
        t.buffers[n] = { holder := .answer i, chars := frame }
  | some .transparent =>
    t.records[i] = Record.free ∧ t.slots = s.slots ∧ heldFrame (.branchAnswer b) t = none ∧
    if r.abandoned then t.trunk = s.trunk
    else ((heldFrame (.branchAnswer b) s).isSome = true →
      t.trunk.owed = .answer ∧ t.trunk.port.tx = .lead { address := r.trunkAddress.getD 0, data := data } ∧
        holdsFrame .owedReply (mkFrame (r.trunkAddress.getD 0) data) t)
  | some .cyclic =>
    t.records[i] = Record.free ∧ t.trunk = s.trunk ∧
    ∀ k, r.slot = some k → (∀ j ≠ k, t.slots[j] = s.slots[j]) ∧
      t.slots[k] = { missedSlot s.slots[k] with seq := s.slots[k].seq + 1, age := some 0, misses := 0 } ∧
      ∀ n : Fin Config.bufferCount, s.buffers[n].holder = .branchAnswer b →
        t.buffers[n] = { holder := .snapshot k, chars := frame }
  | some .group | none => True

theorem answered_transparent {b : Branch} {i : RecordIndex} {data : List Byte} {s v : State} (hdata : data.length ≤ 60)
    (howed : OwedAgrees s) (hkind : s.records[i].kind = some .transparent)
    (hv : AnswerReported b (mkFrame s.records[i].lineAddress data) s v) :
    AnswerTaken i v (settleAttempt i b .answered v) ∧ AnswerGoes b i data s (settleAttempt i b .answered v) := by
  have hrecord : v.records[i] = s.records[i] := congrArg (·[i]) hv.records
  rw [settleAttempt_answered_transparent (by rw [hrecord]; exact hkind) b]
  unfold AnswerGoes settleTransparent
  dsimp only
  rw [hkind, hrecord]
  cases ha : s.records[i].abandoned with
  | true =>
    rw [if_pos rfl]
    obtain ⟨htaken, hfree, htrunk, hslots, hanswer⟩ := lateAnswer_dropped b i v
    exact ⟨htaken, hfree, hslots.trans hv.slots, hanswer, htrunk.trans hv.trunk⟩
  | false =>
    rw [if_neg Bool.false_ne_true, if_pos rfl]
    have hreply : heldFrame .owedReply v = none := hv.other nofun (howed.no_reply hkind ha)
    obtain ⟨htaken, hfree, hslots, hanswer, htold⟩ :=
      answerTransparent_owed (i := i) hdata hreply fun n hn => hv.written hn
    rw [hrecord] at htold
    exact ⟨htaken, hfree, hslots.trans hv.slots, hanswer, fun hs => htold (hv.some hs)⟩

theorem answered_deferred {b : Branch} {i : RecordIndex} {data : List Byte} {s v : State}
    (hkind : s.records[i].kind = some .deferred) (hv : AnswerReported b (mkFrame s.records[i].lineAddress data) s v) :
    AnswerTaken i v (settleAttempt i b .answered v) ∧ AnswerGoes b i data s (settleAttempt i b .answered v) := by
  have hrecord : v.records[i] = s.records[i] := congrArg (·[i]) hv.records
  rw [settleAttempt_answered_deferred (by rw [hrecord]; exact hkind) b]
  unfold AnswerGoes settleDeferred
  dsimp only
  rw [hkind, hrecord]
  cases hc : s.records[i].cancelPending with
  | true =>
    rw [if_pos rfl]
    obtain ⟨htaken, hfree, htrunk, hslots, hanswer⟩ := lateAnswer_dropped b i v
    exact ⟨htaken, htrunk.trans hv.trunk, hslots.trans hv.slots, hanswer, hfree⟩
  | false =>
    rw [if_neg Bool.false_ne_true]
    obtain ⟨htaken, hended, htrunk, hslots, hanswer, hlist, hflag, hframe⟩ :=
      endDeferred_answered (b := b) (i := i) (v := v)
    rw [hrecord, hv.params] at hended
    refine ⟨htaken, htrunk.trans hv.trunk, hslots.trans hv.slots, hanswer, ?_⟩
    rw [if_neg Bool.false_ne_true]
    refine ⟨?_, by rw [hlist, hv.completions], hflag, fun n hn => ?_⟩
    · rw [hended]
      dsimp only
      rw [hkind, hc]
    · have hn' := hv.held hn
      rw [hframe n (by rw [hn']), hn']

theorem answered_cyclic {b : Branch} {i : RecordIndex} {data : List Byte} {s v : State}
    (hkind : s.records[i].kind = some .cyclic) (hv : AnswerReported b (mkFrame s.records[i].lineAddress data) s v) :
    AnswerTaken i v (settleAttempt i b .answered v) ∧ AnswerGoes b i data s (settleAttempt i b .answered v) := by
  have hrecord : v.records[i] = s.records[i] := congrArg (·[i]) hv.records
  rw [settleAttempt_answered_cyclic (by rw [hrecord]; exact hkind) b]
  unfold AnswerGoes
  dsimp only
  rw [hkind]
  unfold settleCyclic
  rw [hrecord]
  cases hslot : s.records[i].slot with
  | none =>
    refine ⟨answerTaken_freed (fun _ _ => rfl) rfl, ?_, (freeRecord_trunk ..).trans hv.trunk, nofun⟩
    rw [freeRecord_records, if_pos rfl]
  | some k =>
    dsimp only
    obtain ⟨hkept, hothers, hpolled, hframe⟩ := pollEnds_answered k b v
    rw [show ((.answered : ExchangeOutcome) == .answered) = true from rfl]
    generalize pollEnds k b true v = u at *
    have hrecords : u.records = v.records := by rw [hkept]
    have hflags : u.flags = v.flags := by rw [hkept]
    have htrunk : u.trunk = v.trunk := by rw [hkept]
    refine ⟨answerTaken_freed (fun j _ => by rw [hrecords]) hflags, ?_, ?_, fun k' hk' => ?_⟩
    · rw [freeRecord_records, if_pos rfl]
    · rw [freeRecord_trunk, htrunk, hv.trunk]
    · obtain rfl : k = k' := Option.some.inj hk'
      rw [freeRecord_slots]
      refine ⟨fun j hj => by rw [hothers j hj, hv.slots], by rw [hpolled, hv.slots], fun n hn => ?_⟩
      have hn' := hv.held hn
      rw [freeRecord_buffers, returnBuffer_buffers, returnBuffer_buffers, hframe n (by rw [hn']), hn']
      rfl

theorem answered {b : Branch} {i : RecordIndex} {data : List Byte} {s v : State} (hdata : data.length ≤ 60)
    (howed : OwedAgrees s) (hkind : isStationKind s.records[i] = true)
    (hv : AnswerReported b (mkFrame s.records[i].lineAddress data) s v) :
    AnswerTaken i v (settleAttempt i b .answered v) ∧ AnswerGoes b i data s (settleAttempt i b .answered v) := by
  unfold isStationKind at hkind
  simp only [Bool.or_eq_true, beq_iff_eq] at hkind
  rcases hkind with (h | h) | h
  · exact answered_transparent hdata howed h hv
  · exact answered_deferred h hv
  · exact answered_cyclic h hv

/-- What becomes of an answer is not changed by what differs in no more than branches and LINE_ERROR. -/
theorem AnswerGoes.congr {b : Branch} {i : RecordIndex} {data : List Byte} {s w t : State} (h : AnswerGoes b i data s w)
    (hrecords : t.records = w.records) (htrunk : t.trunk = w.trunk) (hslots : t.slots = w.slots)
    (hlist : t.completions = w.completions) (hbuffers : t.buffers = w.buffers)
    (hflag : flagSet .completion t = flagSet .completion w) : AnswerGoes b i data s t := by
  unfold AnswerGoes holdsFrame at h ⊢
  rw [hrecords, htrunk, hslots, hlist, hbuffers, hflag, heldFrame_of_buffers hbuffers]
  exact h

/-- Settles O53: the answer that is stored whole from the right address goes where its record's kind says. -/
theorem answerIsDelivered : Obligations.AnswerIsDelivered := by
  intro b i data s hdata howed x r frame hcoming
  have hopen : answerOpen b i s = true := by
    unfold answerComing at hcoming
    rw [Bool.and_eq_true] at hcoming
    exact hcoming.1
  obtain ⟨-, -, honLine, hkind, -⟩ := answerOpen_spec hopen
  have hwell : (AnswerReport.complete data (crcOf (frameBody r.lineAddress data))).wellFormed = true := by
    show fitsFrame data = true
    simpa [fitsFrame] using hdata
  let u := countGood (.branch b) (answerStored b frame s)
  have hover : AnswerOver b s u := (answerStored_over b frame s).trans (answerOver_modifyPortCounters b _ _)
  obtain ⟨hrx, hport, hcounters⟩ := answerStored_port b frame s
  have hbranch : u.branches[b] = { (answerStored b frame s).branches[b] with
      port := { (answerStored b frame s).branches[b].port with
        counters := { (answerStored b frame s).branches[b].port.counters with
          framesRxGood := countUp (answerStored b frame s).branches[b].port.counters.framesRxGood } } } :=
    modifyPort_branch_same ..
  have honLine' : u.branches[b].onLine = some i := (answerOver_status hover).2.1.trans honLine
  have hrecords : u.records = s.records := hover.same.2 .records (by decide) (by simp)
  have hreported : AnswerReported b frame s (resultCounted b i .answered u) := answerReported_of_stored frame s
  have hend : endAnswer b (.complete data (crcOf (frameBody r.lineAddress data))) s = attemptEnds b .answered u := by
    rw [endAnswer_complete hcoming, if_pos rfl]
    unfold answerGood
    rw [show countGood (.branch b) (answerStored b (frameBody r.lineAddress data ++
      bytesOfWord (crcOf (frameBody r.lineAddress data))) s) = u from rfl, honLine']
    dsimp only
    rw [hrecords]
    exact if_pos rfl
  obtain ⟨hwindow, -, hline, hcount⟩ := attemptEnds_ended .answered honLine'
  have hsettled : attemptEnds b .answered u =
      enterIdle b (dropAssignment b (settleAttempt i b .answered (resultCounted b i .answered u))) :=
    (attemptEnds_eq .answered honLine').trans rfl
  rw [hbranch] at hcount hline
  rw [hrecords] at hcount
  rw [BranchState.rated_port_of_hunt (by exact hrx)] at hline
  obtain ⟨htaken, hgoes⟩ := answered hdata howed hkind hreported
  have hqueues := settleAttempt_queuesOnly i b .answered (resultCounted b i .answered u)
  have hkept := settleAttempt_kept i b .answered (resultCounted b i .answered u)
  refine ⟨attemptEnds b .answered u, (exec_answerEnd hwell s).trans (congrArg _ hend), ?_⟩
  generalize attemptEnds b .answered u = t at *
  generalize resultCounted b i .answered u = v at *
  generalize settleAttempt i b .answered v = w at *
  obtain ⟨hidle, hon, -⟩ := dropped_idle b w
  have hdropped := dropped_sameBut b w
  rw [← hsettled] at hidle hon hdropped
  have hrecs : t.records = w.records := hdropped.2 .records (by decide) (by simp)
  have hbufs : t.buffers = w.buffers := hdropped.2 .buffers (by decide) (by simp)
  have hflag : ∀ f, f ≠ .lineError → flagSet f t = flagSet f w := fun f hf => by
    rw [hsettled]
    exact flagSet_dropped hf b w
  obtain ⟨hothers, hrequest, hfail⟩ := htaken
  refine ⟨hidle, hon, hwindow, ?_, ?_, ?_, ?_, fun k hk => ?_, fun d hd => ?_, ?_, ?_⟩
  · rw [hcount, hcounters]
    rfl
  · rw [hline]
    unfold underRate
    cases (answerStored b frame s).branches[b].pendingRate <;> exact congrArg
      (fun c : PortCounters => { c with framesRxGood := countUp c.framesRxGood }) hport
  · rw [heldFrame_of_buffers hbufs]
    exact hrequest
  · rw [hflag .answerFail nofun, hfail, hreported.answerFail]
  · rw [hrecs, hothers k hk, hreported.records]
  · rw [hsettled, dropped_branch_other hd, ← hreported.branches d hd]
    exact hqueues d
  · exact (hreported.same.trans hkept.sameBut).trans
      (hdropped.mono (by simp [exchangeParts, mem_branchParts]))
  · exact hgoes.congr hrecs (hdropped.2 .trunk (by decide) (by simp)) (hdropped.2 .slots (by decide) (by simp))
      (hdropped.2 .completions (by decide) (by simp)) hbufs (hflag .completion nofun)

end Sys2Proof.Machine
end

section
/-!
A branch that leaves service settles its work: the on-line record first, then its queue from head to tail (R63). What
the settlements of a list of records come to together.
-/

namespace Sys2Proof.Machine

-- The gate's memory limit counts every thread's arena, so the declarations are elaborated one after another.
set_option Elab.async false

/-! ### A list of records settled -/

/-- The record is the poll of that slot. -/
def pollsSlot (r : Record) (k : SlotIndex) : Bool := r.kind == some .cyclic && r.slot == some k

/-- The records of a list have been settled on branch `b`, each with its outcome, none with an answer (R58 to R63,
R72). -/
structure ListSettled (b : Branch) (o : RecordIndex → ExchangeOutcome) (l : List RecordIndex) (v w : State) : Prop where
  records : ∀ i, w.records[i] =
    if i ∈ l then settledRecord b (o i) v.params.holdTime v.records[i] else v.records[i]
  completions : (∀ i ∈ l, i ∉ v.completions) →
    w.completions = v.completions ++ l.filter fun i => joinsCompletions v.records[i]
  completion : flagSet .completion w = (flagSet .completion v || l.any fun i => joinsCompletions v.records[i])
  flags : ∀ f, f = .answerFail ∨ f = .branchFault ∨ f = .contention → flagSet f w = flagSet f v
  request : ∀ i ∈ l, v.records[i].kind ≠ some .group ∨ w.records[i] = .free → heldFrame (.request i) w = none
  answer : ∀ i, (i ∈ l → heldFrame (.answer i) v = none) → heldFrame (.answer i) w = heldFrame (.answer i) v
  frames : ∀ h : Holder, h ≠ .free → h ≠ .owedReply → (∀ i, h ≠ .answer i) → (∀ i ∈ l, h ≠ .request i) →
    heldFrame h w = heldFrame h v
  slots : ∀ k : SlotIndex, w.slots[k] =
    if l.any (fun i => pollsSlot v.records[i] k) then missedSlot v.slots[k] else v.slots[k]
  trunk : (∀ i ∈ l, awaitedByTrunk v.records[i] = false) →
    w.trunk = v.trunk ∧ heldFrame .owedReply w = heldFrame .owedReply v
  told : ∀ i ∈ l, awaitedByTrunk v.records[i] = true → (∀ j ∈ l, awaitedByTrunk v.records[j] = true → j = i) →
    heldFrame .owedReply v = none → (heldFrame (.request i) v).isSome = true →
    trunkToldOfFailure v.records[i] (o i) v w
  queue : (∀ i ∈ l, i ∉ v.branches[b].queue) → w.branches[b].queue = v.branches[b].queue
  params : w.params = v.params

theorem ListSettled.nil (b : Branch) (o : RecordIndex → ExchangeOutcome) (v : State) : ListSettled b o [] v v where
  records _ := (if_neg List.not_mem_nil).symm
  completions _ := (List.append_nil _).symm
  completion := (Bool.or_false _).symm
  flags _ _ := rfl
  request _ hi := absurd hi List.not_mem_nil
  answer _ _ := rfl
  frames _ _ _ _ _ := rfl
  slots _ := rfl
  trunk _ := ⟨rfl, rfl⟩
  told _ hi := absurd hi List.not_mem_nil
  queue _ := rfl
  params := rfl

theorem RecordSettled.list {b : Branch} {o : RecordIndex → ExchangeOutcome} {i : RecordIndex} {v w : State}
    (h : RecordSettled b (o i) i v w) (ho : (o i == .noAnswer || o i == .badAnswer) = false) :
    ListSettled b o [i] v w where
  records k := by
    by_cases hk : k = i
    · subst hk
      rw [if_pos (List.mem_singleton_self k), h.record]
    · rw [if_neg (by simpa using hk), h.others k hk]
  completions hi := by
    cases hj : joinsCompletions v.records[i] with
    | true => rw [h.joins hj, List.filter_cons_of_pos (p := fun i => joinsCompletions v.records[i]) hj, List.filter_nil]
    | false =>
      rw [h.stays hj (hi i (List.mem_singleton_self i)), List.filter_cons_of_neg
        (p := fun i => joinsCompletions v.records[i]) (by rw [hj]; exact Bool.false_ne_true)]
      exact (List.append_nil _).symm
  completion := by
    rw [h.completion, List.any_cons, List.any_nil, Bool.or_false]
  flags f hf := by
    rcases hf with rfl | rfl | rfl
    · rw [h.answerFail, ho, Bool.or_false]
    · exact h.branchFault
    · exact h.contention
  request k hk := by
    obtain rfl := List.mem_singleton.mp hk
    exact h.request
  answer k hk := by
    by_cases hki : k = i
    · subst hki
      have hnone := hk (List.mem_singleton_self k)
      rw [h.answer hnone, hnone]
    · refine h.frames (.answer k) nofun nofun ?_ nofun
      exact fun heq => hki (Holder.answer.inj heq)
  frames g hf ho' ha hr := h.frames g hf (hr i (List.mem_singleton_self i)) (ha i) ho'
  slots k := by
    have hpoll : ([i].any fun j => pollsSlot v.records[j] k) = true ↔
        v.records[i].kind = some .cyclic ∧ v.records[i].slot = some k := by
      rw [List.any_cons, List.any_nil, Bool.or_false]
      unfold pollsSlot
      rw [Bool.and_eq_true, beq_iff_eq, beq_iff_eq]
    rw [h.slots, if_congr hpoll rfl rfl]
  trunk hi := by
    have hawaited := hi i (List.mem_singleton_self i)
    by_cases hkind : v.records[i].kind = some .transparent
    · refine h.abandoned ?_
      unfold awaitedByTrunk at hawaited
      rw [hkind] at hawaited
      simpa using hawaited
    · exact h.trunk hkind
  told k hk hawaited _ hreply hrequest := by
    obtain rfl := List.mem_singleton.mp hk
    unfold awaitedByTrunk at hawaited
    rw [Bool.and_eq_true, beq_iff_eq] at hawaited
    exact h.told hawaited.1 (fun _ => hreply) hrequest
  queue hi := h.queue (hi i (List.mem_singleton_self i))
  params := h.kept.params

theorem trunkToldOfFailure_congr {r : Record} {o : ExchangeOutcome} {s s' t t' : State} (h : trunkToldOfFailure r o s t)
    (hs : s'.trunk = s.trunk) (hp : s'.params = s.params) (ht : t'.trunk = t.trunk) : trunkToldOfFailure r o s' t' := by
  unfold trunkToldOfFailure at h ⊢
  rw [hs, hp, ht]
  exact h

theorem ListSettled.append {b : Branch} {o : RecordIndex → ExchangeOutcome} {l m : List RecordIndex} {u v w : State}
    (h1 : ListSettled b o l v u) (h2 : ListSettled b o m u w) (hdisjoint : ∀ i ∈ m, i ∉ l)
    (hpolls : ∀ i ∈ m, v.records[i].kind ≠ some .cyclic) : ListSettled b o (l ++ m) v w := by
  have hrecords : ∀ i ∈ m, u.records[i] = v.records[i] := fun i hi => by rw [h1.records, if_neg (hdisjoint i hi)]
  have hparams : u.params = v.params := h1.params
  have hjoins : (m.filter fun i => joinsCompletions u.records[i]) = m.filter fun i => joinsCompletions v.records[i] :=
    List.filter_congr fun i hi => by rw [hrecords i hi]
  have hany : (m.any fun i => joinsCompletions u.records[i]) = m.any fun i => joinsCompletions v.records[i] := by
    rw [Bool.eq_iff_iff, List.any_eq_true, List.any_eq_true]
    exact exists_congr fun i => and_congr_right fun hi => by rw [hrecords i hi]
  exact
    { records := fun i => by
        rw [h2.records, hparams]
        by_cases hm : i ∈ m
        · rw [if_pos hm, hrecords i hm, if_pos (List.mem_append_right l hm)]
        · rw [if_neg hm, h1.records]
          refine if_congr ?_ rfl rfl
          rw [List.mem_append, or_iff_left hm]
      completions := fun hnot => by
        have hfirst := h1.completions fun i hi => hnot i (List.mem_append_left m hi)
        rw [h2.completions, hfirst, hjoins, List.append_assoc, List.filter_append]
        intro i hi
        rw [hfirst, List.mem_append, not_or]
        refine ⟨hnot i (List.mem_append_right l hi), fun h => ?_⟩
        exact hdisjoint i hi (List.mem_of_mem_filter h)
      completion := by rw [h2.completion, h1.completion, hany, List.any_append, Bool.or_assoc]
      flags := fun f hf => (h2.flags f hf).trans (h1.flags f hf)
      request := fun i hi hgroup => by
        by_cases hm : i ∈ m
        · exact h2.request i hm (by rw [hrecords i hm]; exact hgroup)
        · have hl : i ∈ l := (List.mem_append.mp hi).resolve_right hm
          have hstays : w.records[i] = u.records[i] := by rw [h2.records, if_neg hm]
          rw [h2.frames (.request i) nofun nofun nofun fun j hj heq => hm (Holder.request.inj heq ▸ hj)]
          exact h1.request i hl (by rw [← hstays]; exact hgroup)
      answer := fun i hi => by
        have hfirst := h1.answer i fun hl => hi (List.mem_append_left m hl)
        rw [h2.answer i fun hm => ?_, hfirst]
        rw [hfirst]
        exact hi (List.mem_append_right l hm)
      frames := fun h hf ho ha hr => by
        rw [h2.frames h hf ho ha fun i hi => hr i (List.mem_append_right l hi)]
        exact h1.frames h hf ho ha fun i hi => hr i (List.mem_append_left m hi)
      slots := fun k => by
        have hnone : (m.any fun i => pollsSlot u.records[i] k) = false := by
          rw [List.any_eq_false]
          intro i hi
          unfold pollsSlot
          rw [hrecords i hi, beq_false_of_ne (hpolls i hi)]
          exact Bool.false_ne_true
        have hnone' : (m.any fun i => pollsSlot v.records[i] k) = false := by
          rw [List.any_eq_false]
          intro i hi
          unfold pollsSlot
          rw [beq_false_of_ne (hpolls i hi)]
          exact Bool.false_ne_true
        rw [h2.slots, hnone, List.any_append, hnone', Bool.or_false, if_neg Bool.false_ne_true, h1.slots]
      trunk := fun hnone => by
        obtain ⟨htrunk, hreply⟩ := h1.trunk fun i hi => hnone i (List.mem_append_left m hi)
        obtain ⟨htrunk', hreply'⟩ := h2.trunk fun i hi => by
          rw [hrecords i hi]
          exact hnone i (List.mem_append_right l hi)
        exact ⟨htrunk'.trans htrunk, hreply'.trans hreply⟩
      told := fun i hi hawaited hunique hreply hrequest => by
        rcases List.mem_append.mp hi with hl | hm
        · have htold := h1.told i hl hawaited (fun j hj => hunique j (List.mem_append_left m hj)) hreply hrequest
          refine trunkToldOfFailure_congr htold rfl rfl (h2.trunk fun j hj => ?_).1
          rw [hrecords j hj]
          by_contra hne
          rw [Bool.not_eq_false] at hne
          obtain rfl := hunique j (List.mem_append_right l hj) hne
          exact hdisjoint j hj hl
        · obtain ⟨htrunk, hkept⟩ := h1.trunk fun j hj => by
            by_contra hne
            rw [Bool.not_eq_false] at hne
            obtain rfl := hunique j (List.mem_append_left m hj) hne
            exact hdisjoint j hm hj
          have hframe : heldFrame (.request i) u = heldFrame (.request i) v :=
            h1.frames (.request i) nofun nofun nofun fun j hj heq => hdisjoint i hm (Holder.request.inj heq ▸ hj)
          have htold := h2.told i hm (by rw [hrecords i hm]; exact hawaited)
            (fun j hj hj' => hunique j (List.mem_append_right l hj) (by rw [← hrecords j hj]; exact hj'))
            (hkept.trans hreply) (by rw [hframe]; exact hrequest)
          rw [hrecords i hm] at htold
          exact trunkToldOfFailure_congr htold htrunk.symm hparams.symm rfl
      queue := fun hnot => by
        have hfirst := h1.queue fun i hi => hnot i (List.mem_append_left m hi)
        rw [h2.queue fun i hi => by rw [hfirst]; exact hnot i (List.mem_append_right l hi), hfirst]
      params := h2.params.trans h1.params }

theorem ListSettled.congr {b : Branch} {o o' : RecordIndex → ExchangeOutcome} {l : List RecordIndex} {v w : State}
    (h : ListSettled b o l v w) (ho : ∀ i ∈ l, o i = o' i) : ListSettled b o' l v w :=
  { h with
    records := fun i => by
      rw [h.records]
      by_cases hi : i ∈ l
      · rw [if_pos hi, if_pos hi, ho i hi]
      · rw [if_neg hi, if_neg hi]
    told := fun i hi => by
      rw [← ho i hi]
      exact h.told i hi }

/-- A settlement stands when a part agrees with what it left in all that it speaks of. -/
theorem ListSettled.then {b : Branch} {o : RecordIndex → ExchangeOutcome} {l : List RecordIndex} {v w t : State}
    (h : ListSettled b o l v w) (hrecords : t.records = w.records) (hlist : t.completions = w.completions)
    (hflags : t.flags = w.flags) (hbuffers : t.buffers = w.buffers) (hslots : t.slots = w.slots)
    (htrunk : t.trunk = w.trunk) (hqueue : t.branches[b].queue = w.branches[b].queue) (hparams : t.params = w.params) :
    ListSettled b o l v t where
  records i := by rw [hrecords]; exact h.records i
  completions := by rw [hlist]; exact h.completions
  completion := by rw [flagSet_congr hflags]; exact h.completion
  flags f hf := by rw [flagSet_congr hflags]; exact h.flags f hf
  request i hi := by rw [heldFrame_of_buffers hbuffers, hrecords]; exact h.request i hi
  answer i hi := by rw [heldFrame_of_buffers hbuffers]; exact h.answer i hi
  frames g hf ho ha hr := by rw [heldFrame_of_buffers hbuffers]; exact h.frames g hf ho ha hr
  slots k := by rw [hslots]; exact h.slots k
  trunk hi := by rw [htrunk, heldFrame_of_buffers hbuffers]; exact h.trunk hi
  told i hi h1 h2 h3 h4 := trunkToldOfFailure_congr (h.told i hi h1 h2 h3 h4) rfl rfl htrunk
  queue hi := by rw [hqueue]; exact h.queue hi
  params := hparams.trans h.params

/-! ### The queue of a branch -/

/-- The record has an exchange that a branch leaving service ends (R63). -/
def hasExchange (r : Record) : Bool := isStationKind r || r.kind == some .group

theorem recordSettled_settleBranchOff {b : Branch} {i : RecordIndex} {v : State}
    (h : hasExchange v.records[i] = true) : RecordSettled b .branchOff i v (settleBranchOff b v i) := by
  unfold settleBranchOff
  by_cases hgroup : v.records[i].kind = some .group
  · rw [if_pos hgroup]
    exact recordSettled_groupLeave rfl hgroup
  · rw [if_neg hgroup]
    refine recordSettled_fixOutcome nofun ?_
    unfold hasExchange at h
    rw [beq_false_of_ne hgroup, Bool.or_false] at h
    exact h

/-- The records of a queue are settled one after the other (R63). -/
theorem listSettled_foldl {b : Branch} : ∀ (l : List RecordIndex) (v : State), l.Nodup →
    (∀ i ∈ l, hasExchange v.records[i] = true) → (∀ i ∈ l, v.records[i].kind ≠ some .cyclic) →
    ListSettled b (fun _ => .branchOff) l v (l.foldl (settleBranchOff b) v)
  | [], v, _, _, _ => .nil b _ v
  | i :: l, v, hnodup, hexchange, hpolls => by
    obtain ⟨hi, hl⟩ := List.nodup_cons.mp hnodup
    have hfirst : RecordSettled b .branchOff i v (settleBranchOff b v i) :=
      recordSettled_settleBranchOff (hexchange i List.mem_cons_self)
    have hsame : ∀ j ∈ l, (settleBranchOff b v i).records[j] = v.records[j] := fun j hj =>
      hfirst.others j fun h => hi (h ▸ hj)
    refine ListSettled.append (l := [i]) (m := l) (hfirst.list (o := fun _ => .branchOff) rfl)
      (listSettled_foldl l _ hl (fun j hj => ?_) fun j hj => ?_) (fun j hj h => hi (List.mem_singleton.mp h ▸ hj))
      fun j hj => hpolls j (List.mem_cons_of_mem i hj)
    · rw [hsame j hj]
      exact hexchange j (List.mem_cons_of_mem i hj)
    · rw [hsame j hj]
      exact hpolls j (List.mem_cons_of_mem i hj)

/-! ### A branch that leaves service -/

/-- The work of a branch can be settled: each record of it stands there once and has an exchange, and no poll is queued
(R63). -/
structure WorkFit (b : Branch) (v : State) : Prop where
  nodup : (workOf v b).Nodup
  exchange : ∀ i ∈ workOf v b, hasExchange v.records[i] = true
  polls : ∀ i ∈ v.branches[b].queue, v.records[i].kind ≠ some .cyclic

/-- What leaving service adds, in `t`, to the settlement of the work that has come to `w`: its DUE slots are ARMED with
a miss, and the line of the branch is rid of what stands open (R92, R94, R144). -/
structure LeftAfter (b : Branch) (w t : State) : Prop where
  records : t.records = w.records
  completions : t.completions = w.completions
  buffers : t.buffers = w.buffers
  trunk : t.trunk = w.trunk
  flags : ∀ f, f ≠ .lineError → f ≠ .branchFault → flagSet f t = flagSet f w
  slots : ∀ k : SlotIndex, t.slots[k] =
    if slotDueOn w b k then { w.slots[k] with state := .armed, misses := missUp w.slots[k].misses } else w.slots[k]

theorem applyPendingRate_same (b : Branch) (s : State) : let t := applyPendingRate b s
    t.records = s.records ∧ t.completions = s.completions ∧ t.buffers = s.buffers ∧ t.trunk = s.trunk ∧
      t.slots = s.slots ∧ ∀ f, f ≠ .lineError → flagSet f t = flagSet f s := by
  dsimp only
  refine ⟨?_, ?_, ?_, ?_, ?_, fun f hf => flagSet_enterIdle hf b s⟩ <;> rw [applyPendingRate_eq] <;> rfl

theorem leaveService_leftAfter (b : Branch) (v : State) : LeftAfter b (settleBranchWork b v) (leaveService b v) := by
  obtain ⟨hrecords, hlist, hbuffers, htrunk, hslots, hflags⟩ := applyPendingRate_same b (settleBranchWork b v)
  have hleft : leaveService b v = modifyBranch b (fun x => { x with stalled := false })
      (abandonDuePolls b (applyPendingRate b (settleBranchWork b v))) := rfl
  rw [hleft]
  generalize applyPendingRate b (settleBranchWork b v) = u at *
  generalize settleBranchWork b v = w at *
  refine ⟨hrecords, hlist, hbuffers, htrunk, fun f hf _ => hflags f hf, fun k => ?_⟩
  have hdue : slotDueOn u b k = slotDueOn w b k := by
    unfold slotDueOn
    rw [hslots]
  show (tableOf _)[k] = _
  rw [tableOf_get, hdue, hslots]

/-- The work of a branch that leaves service is settled with BRANCH_OFF (R63). -/
theorem leaveService_settled {b : Branch} {v : State} (h : WorkFit b v) :
    ∃ w, ListSettled b (fun _ => .branchOff) (workOf v b) v w ∧ LeftAfter b w (leaveService b v) := by
  obtain ⟨hnodup, hexchange, hpolls⟩ := h
  have hleft := leaveService_leftAfter b v
  unfold workOf at hnodup hexchange ⊢
  unfold settleBranchWork at hleft
  dsimp only at hleft
  cases honLine : v.branches[b].onLine with
  | none =>
    rw [honLine] at hleft hnodup hexchange
    have hsettled := listSettled_foldl (b := b) v.branches[b].queue v hnodup hexchange hpolls
    exact ⟨_, hsettled, hleft.records, hleft.completions, hleft.buffers, hleft.trunk, hleft.flags, hleft.slots⟩
  | some i =>
    rw [honLine] at hleft hnodup hexchange
    obtain ⟨hi, hqueue⟩ := List.nodup_cons.mp hnodup
    have hfirst : RecordSettled b .branchOff i v (settleBranchOff b v i) :=
      recordSettled_settleBranchOff (hexchange i List.mem_cons_self)
    have hsame : ∀ j ∈ v.branches[b].queue, (settleBranchOff b v i).records[j] = v.records[j] := fun j hj =>
      hfirst.others j fun heq => hi (heq ▸ hj)
    have hrest := listSettled_foldl (b := b) v.branches[b].queue (settleBranchOff b v i) hqueue
      (fun j hj => by rw [hsame j hj]; exact hexchange j (List.mem_cons_of_mem i hj))
      fun j hj => by rw [hsame j hj]; exact hpolls j hj
    dsimp only at hleft
    rw [hfirst.queue hi] at hleft
    have hsettled := (hfirst.list (o := fun _ => .branchOff) rfl).append hrest
      (fun j hj heq => hi (List.mem_singleton.mp heq ▸ hj)) hpolls
    exact ⟨_, hsettled, hleft.records, hleft.completions, hleft.buffers, hleft.trunk, hleft.flags, hleft.slots⟩

/-! ### The statement of a branch's settled work -/

/-- A poll on line is not a DUE slot, and no record of the branch's work has joined the completion list (R65, R135). -/
structure WorkUnended (b : Branch) (s : State) : Prop where
  unlisted : ∀ i ∈ workOf s b, i ∉ s.completions
  polling : ∀ i ∈ workOf s b, ∀ k, pollsSlot s.records[i] k = true → s.slots[k].state ≠ .due

theorem missedSlot_state_ne_due {x : Slot} (h : x.state ≠ .due) : (missedSlot x).state ≠ .due := by
  unfold missedSlot
  split
  · exact nofun
  · exact nofun
  all_goals exact h

/-- The settlement of the records of the work, from a part `v` in which each stands as `last` says, is what leaving
service makes of them (R63, R144). -/
theorem workSettled_of {b : Branch} {last : RecordIndex → Record} {o : RecordIndex → ExchangeOutcome} {s v w t : State}
    (hfit : WorkFit b s) (hun : WorkUnended b s) (h : ListSettled b o (workOf s b) v w)
    (hother : ∀ i ∉ workOf s b, v.records[i] = s.records[i])
    (hlast : ∀ i ∈ workOf s b, settledRecord b (o i) s.params.holdTime v.records[i] =
      settledRecord b (o i) s.params.holdTime (last i) ∧ joinsCompletions v.records[i] = joinsCompletions (last i) ∧
      v.records[i].kind = s.records[i].kind ∧ v.records[i].slot = s.records[i].slot)
    (hlist : v.completions = s.completions) (hflag : flagSet .completion v = flagSet .completion s)
    (hslots : v.slots = s.slots) (hparams : v.params = s.params)
    (hrecords : t.records = w.records) (hlist' : t.completions = w.completions) (hbuffers : t.buffers = w.buffers)
    (hflag' : flagSet .completion t = flagSet .completion w)
    (hslots' : ∀ k : SlotIndex, t.slots[k] =
      if slotDueOn w b k then { w.slots[k] with state := .armed, misses := missUp w.slots[k].misses } else w.slots[k]) :
    WorkSettled b last o s t := by
  refine ⟨fun i => ?_, ?_, ?_, fun i hi hgroup => ?_, fun k => ?_⟩
  · rw [hrecords, h.records, hparams]
    by_cases hi : i ∈ workOf s b
    · rw [if_pos hi, if_pos hi, (hlast i hi).1]
    · rw [if_neg hi, if_neg hi, hother i hi]
  · rw [hlist', h.completions (fun i hi => by rw [hlist]; exact hun.unlisted i hi), hlist]
    exact congrArg (s.completions ++ ·) (List.filter_congr fun i hi => (hlast i hi).2.1)
  · rw [hflag', h.completion, hflag]
    refine congrArg (flagSet .completion s || ·) ?_
    rw [Bool.eq_iff_iff, List.any_eq_true, List.any_eq_true]
    exact exists_congr fun i => and_congr_right fun hi => by rw [(hlast i hi).2.1]
  · rw [heldFrame_of_buffers hbuffers]
    refine h.request i hi ?_
    rw [(hlast i hi).2.2.1, ← hrecords]
    exact hgroup
  · have hpolls : ((workOf s b).any fun i => pollsSlot v.records[i] k) =
        s.branches[b].onLine.any fun i => s.records[i].kind == some .cyclic && s.records[i].slot == some k := by
      have hsame : ((workOf s b).any fun i => pollsSlot v.records[i] k) =
          (workOf s b).any fun i => pollsSlot s.records[i] k := by
        rw [Bool.eq_iff_iff, List.any_eq_true, List.any_eq_true]
        refine exists_congr fun i => and_congr_right fun hi => ?_
        unfold pollsSlot
        rw [(hlast i hi).2.2.1, (hlast i hi).2.2.2]
      have hqueue : (s.branches[b].queue.any fun i => pollsSlot s.records[i] k) = false := by
        rw [List.any_eq_false]
        intro i hi
        unfold pollsSlot
        rw [beq_false_of_ne (hfit.polls i hi)]
        exact Bool.false_ne_true
      rw [hsame]
      unfold workOf
      rw [List.any_append, hqueue, Bool.or_false]
      cases s.branches[b].onLine with
      | none => rfl
      | some i => exact Bool.or_false _
    have hpolling : ((workOf s b).any fun i => pollsSlot v.records[i] k) = true → s.slots[k].state ≠ .due :=
      fun hany => by
      obtain ⟨i, hi, hpoll⟩ := List.any_eq_true.mp hany
      refine hun.polling i hi k ?_
      unfold pollsSlot at hpoll ⊢
      rwa [(hlast i hi).2.2.1, (hlast i hi).2.2.2] at hpoll
    have hw := h.slots k
    rw [hslots] at hw
    unfold slotOutOfService
    rw [hslots', ← hpolls]
    cases hany : (workOf s b).any fun i => pollsSlot v.records[i] k with
    | true =>
      have hdue := hpolling hany
      rw [hany, if_pos rfl] at hw
      have hdueW : slotDueOn w b k = false := by
        unfold slotDueOn
        rw [hw, beq_false_of_ne (missedSlot_state_ne_due hdue), Bool.false_and]
      have hdueS : slotDueOn s b k = false := by
        unfold slotDueOn
        rw [beq_false_of_ne hdue, Bool.false_and]
      rw [hdueW, hdueS, hw]
      rfl
    | false =>
      rw [hany, if_neg Bool.false_ne_true] at hw
      have hdue : slotDueOn w b k = slotDueOn s b k := by
        unfold slotDueOn
        rw [hw]
      rw [hdue, hw]
      rfl

/-! ### The work of a part in agreement -/

theorem mem_workOf {b : Branch} {s : State} {i : RecordIndex} :
    i ∈ workOf s b ↔ s.branches[b].onLine = some i ∨ i ∈ s.branches[b].queue := by
  unfold workOf
  rw [List.mem_append, Option.mem_toList]

/-- A record that agrees with its kind and state and has work on line or queued (R45). -/
theorem recordAgrees_working {r : Record} (h : recordAgrees r = true)
    (hst : r.state = .queued ∨ r.state = .onLine ∨ r.state = .delivering) :
    hasExchange r = true ∧ r.outcome = none ∧ (r.kind = some .cyclic → r.state = .onLine ∧ r.retriesLeft = 0) ∧
      (r.state = .delivering → r.pendingSet &&& r.sendingSet = 0) := by
  unfold recordAgrees at h
  cases hkind : r.kind with
  | none =>
    rw [hkind] at h
    have hfree : r.state = .free := congrArg Record.state (eq_of_beq h)
    rw [hfree] at hst
    rcases hst with h | h | h <;> cases h
  | some kind =>
    rw [hkind] at h
    have hexchange : hasExchange r = true := by
      unfold hasExchange isStationKind
      rw [hkind]
      cases kind <;> rfl
    have hended : (r.state == .ended) = false := by
      rcases hst with hst | hst | hst <;> rw [hst] <;> rfl
    refine ⟨hexchange, ?_⟩
    cases kind with
    | deferred =>
      simp only [hended, Bool.and_eq_true, Bool.or_eq_true, beq_iff_eq, beq_false, Bool.not_eq_true'] at h
      obtain ⟨⟨⟨⟨⟨⟨hstate, -⟩, -⟩, -⟩, -⟩, houtcome⟩, -⟩ := h
      refine ⟨Option.isNone_iff_eq_none.mp (by simpa using houtcome), nofun, fun hd => ?_⟩
      simp [hd] at hstate
    | transparent =>
      simp only [Bool.and_eq_true, Bool.or_eq_true, beq_iff_eq] at h
      obtain ⟨⟨⟨⟨⟨hstate, -⟩, -⟩, -⟩, houtcome⟩, -⟩ := h
      refine ⟨Option.isNone_iff_eq_none.mp houtcome, nofun, fun hd => ?_⟩
      simp [hd] at hstate
    | cyclic | group => simp_all

/-- A record of a branch's work, in a part whose table agrees (R50, R76). -/
theorem TableAgrees.working {b : Branch} {s : State} (h : TableAgrees s) {i : RecordIndex} (hi : i ∈ workOf s b) :
    s.records[i].state = .queued ∨ s.records[i].state = .onLine ∨ s.records[i].state = .delivering := by
  obtain ⟨-, hqueues, -⟩ := h
  obtain ⟨hwaits, hserved, -⟩ := (hqueues b).2.2 i
  rcases mem_workOf.mp hi with hon | hq
  · have hst := hserved.mp hon
    unfold servedOn at hst
    simp only [Bool.or_eq_true, Bool.and_eq_true, beq_iff_eq] at hst
    rcases hst with hst | hst
    · exact .inr (.inl hst.1)
    · exact .inr (.inr hst.1)
  · have hst := hwaits.mp hq
    unfold waitsOn at hst
    simp only [Bool.or_eq_true, Bool.and_eq_true, beq_iff_eq] at hst
    rcases hst with hst | hst
    · exact .inl hst.1
    · exact .inr (.inr hst.1)

/-- A record that is on a branch's line does not wait in its queue as well (R46, R62). -/
theorem waitsOn_ne_servedOn {b : Branch} {r : Record} (h : recordAgrees r = true) (hw : waitsOn b r = true)
    (hs : servedOn b r = true) : False := by
  unfold waitsOn at hw
  unfold servedOn at hs
  simp only [Bool.or_eq_true, Bool.and_eq_true, beq_iff_eq] at hw hs
  rcases hw with ⟨hw, -⟩ | ⟨hw, hp⟩ <;> rcases hs with ⟨hs, -⟩ | ⟨hs, hg⟩
  · rw [hw] at hs
    cases hs
  · rw [hw] at hs
    cases hs
  · rw [hw] at hs
    cases hs
  · obtain ⟨-, -, -, hdisjoint⟩ := recordAgrees_working h (.inr (.inr hw))
    unfold inSet at hp hg
    have hbit : (r.pendingSet &&& r.sendingSet).getLsbD b.val = false := by
      rw [hdisjoint hw]
      exact BitVec.getLsbD_zero
    rw [BitVec.getLsbD_and, hp, hg] at hbit
    cases hbit

theorem workFit_of_agrees {b : Branch} {s : State} (h : TableAgrees s) : WorkFit b s ∧ WorkUnended b s := by
  obtain ⟨hrecords, hqueues, ⟨-, hended⟩, ⟨hslots, hpoll⟩, -⟩ := id h
  obtain ⟨hnodup, -, hwork⟩ := hqueues b
  refine ⟨⟨?_, fun i hi => ?_, fun i hi hkind => ?_⟩, ⟨fun i hi hlisted => ?_, fun i hi k hk => ?_⟩⟩
  · unfold workOf
    cases hon : s.branches[b].onLine with
    | none => exact hnodup
    | some i =>
      refine List.nodup_cons.mpr ⟨fun hi => ?_, hnodup⟩
      exact waitsOn_ne_servedOn (hrecords i) ((hwork i).1.mp hi) ((hwork i).2.1.mp hon)
  · exact (recordAgrees_working (hrecords i) (h.working hi)).1
  · have hst := (recordAgrees_working (hrecords i) (h.working (mem_workOf.mpr (.inr hi)))).2.2.1 hkind
    have hwaits := (hwork i).1.mp hi
    unfold waitsOn at hwaits
    rw [hst.1] at hwaits
    exact absurd hwaits (by simp)
  · have hst := (hended i).mp hlisted
    rcases h.working hi with hw | hw | hw <;> rw [hst] at hw <;> cases hw
  · unfold pollsSlot at hk
    rw [Bool.and_eq_true, beq_iff_eq, beq_iff_eq] at hk
    rcases (hslots k).2.mp ⟨i, hk.2⟩ with hst | hst <;> rw [hst] <;> exact nofun

end Sys2Proof.Machine
end

section
/-!
Contention on a branch: the attempt ends, and at the third in a row the branch leaves service into FAULT with its work
settled (sections 4.3, 4.5).
-/

namespace Sys2Proof.Machine

-- The gate's memory limit counts every thread's arena, so the declarations are elaborated one after another.
set_option Elab.async false

/-! ### The part when contention has been counted -/

theorem contendedBranch_sameBut (b : Branch) (s : State) : SameBut [.branch b, .flags] s (contendedBranch b s) := by
  unfold contendedBranch transmissionContended
  exact (((modifyPort_sameBut (.branch b) _ s).mono (by simp [portPart])).trans
    ((raise_sameBut .contention _).mono (by simp))).trans ((modifyBranch_sameBut b _ _).mono (by simp))

theorem flagSet_contendedBranch (f : Flag) (b : Branch) (s : State) :
    flagSet f (contendedBranch b s) = (flagSet f s || Flag.contention == f) := by
  show flagSet f (raise .contention _) = _
  rw [flagSet_raise]
  rfl

theorem contendedBranch_buffers (b : Branch) (s : State) : (contendedBranch b s).buffers = s.buffers := rfl

/-- The part in which the table is told that a station record's attempt was lost to contention (R84). -/
def contentionReported (b : Branch) (i : RecordIndex) (s : State) : State :=
  returnBuffer (.branchAnswer b) (countAttempt i (contendedBranch b s))

/-- A station record with its attempt counted (R83, R84). -/
def attemptCounted (r : Record) : Record := if r.kind = some .cyclic then r else { r with attempts := r.attempts + 1 }

theorem attemptCounted_eq (r : Record) : ∃ n, attemptCounted r = { r with attempts := n } := by
  unfold attemptCounted
  split
  · exact ⟨r.attempts, rfl⟩
  · exact ⟨_, rfl⟩

theorem contentionReported_frames {b : Branch} {i : RecordIndex} {s : State} {g : Holder} (hf : g ≠ .free)
    (hb : g ≠ .branchAnswer b) : heldFrame g (contentionReported b i s) = heldFrame g s := by
  unfold contentionReported
  rw [heldFrame_returnBuffer_other hf hb]
  rfl

theorem attemptStands_contention {b : Branch} {i : RecordIndex} {s : State} (howed : OwedAgrees s)
    (hkind : isStationKind s.records[i] = true) :
    AttemptStands b i s (contentionReported b i s) ∧ (contentionReported b i s).records[i] =
      attemptCounted s.records[i] := by
  have hsame := contendedBranch_sameBut b s
  have hrecords : (contendedBranch b s).records = s.records := rfl
  have hcounted : (countAttempt i (contendedBranch b s)).records[i] = attemptCounted s.records[i] := by
    rw [countAttempt_station (by rw [hrecords]; exact hkind), hrecords]
    rfl
  have hothers : ∀ k ≠ i, (countAttempt i (contendedBranch b s)).records[k] = s.records[k] := fun k hk =>
    (modifyRecord_other i hk _ (contendedBranch b s)).trans (by rw [hrecords])
  have hbranch : (countAttempt i (contendedBranch b s)).branches = (contendedBranch b s).branches := rfl
  have hflags : (countAttempt i (contendedBranch b s)).flags = (contendedBranch b s).flags := rfl
  have hbuffers : (countAttempt i (contendedBranch b s)).buffers = s.buffers := rfl
  have hcount : SameBut [.branch b, .flags, .records] s (countAttempt i (contendedBranch b s)) :=
    (hsame.mono (by simp)).trans ((modifyRecord_sameBut i _ _).mono (by simp))
  have hset := fun f => flagSet_contendedBranch f b s
  have hqueue : (contendedBranch b s).branches[b].queue = s.branches[b].queue := by rw [contendedBranch_branch]
  have hother : ∀ d ≠ b, (contendedBranch b s).branches[d] = s.branches[d] :=
    fun d hd => contendedBranch_branch_other hd s
  unfold contentionReported
  generalize contendedBranch b s = c at *
  generalize countAttempt i c = u at *
  have hkept : ∀ g : Holder, g ≠ .free → g ≠ .branchAnswer b →
      heldFrame g (returnBuffer (.branchAnswer b) u) = heldFrame g s := fun g hf hb => by
    rw [heldFrame_returnBuffer_other hf hb]
    exact heldFrame_of_buffers hbuffers g
  refine ⟨?_, hcounted⟩
  exact
    { records := hothers
      branches := fun d hd => (congrArg (·[d]) hbranch).trans (hother d hd)
      queue := (congrArg (fun x => x[b].queue) hbranch).trans hqueue
      same := (hcount.mono (by simp [mem_branchParts])).trans ((returnBuffer_sameBut _ u).mono (by simp))
      answer := heldFrame_returnBuffer_same (h := .branchAnswer b) nofun u
      request := hkept (.request i) nofun nofun
      flag := fun f _ hc => by
        rw [flagSet_congr (t := returnBuffer (.branchAnswer b) u) (s := c) hflags, hset, beq_false_of_ne (Ne.symm hc),
          Bool.or_false]
      reply := fun hkind ha => by
        have hr : (returnBuffer (.branchAnswer b) u).records[i] = attemptCounted s.records[i] := hcounted
        obtain ⟨n, hn⟩ := attemptCounted_eq s.records[i]
        rw [hr, hn] at hkind ha
        rw [hkept .owedReply nofun nofun]
        exact howed.no_reply hkind ha }

theorem contendedWork_station {b : Branch} {i : RecordIndex} {s : State} (honLine : s.branches[b].onLine = some i)
    (hkind : isStationKind s.records[i] = true) : contendedWork b (contendedBranch b s) =
      dropAssignment b (settleAttempt i b .contention (contentionReported b i s)) := by
  have hon : (contendedBranch b s).branches[b].onLine = some i := by
    rw [contendedBranch_branch]
    exact honLine
  unfold contendedWork
  rw [hon]
  exact if_pos ((isStationKind_countAttempt i (contendedBranch b s)).trans hkind)

theorem contendedWork_group {b : Branch} {i : RecordIndex} {s : State} (honLine : s.branches[b].onLine = some i)
    (hkind : s.records[i].kind = some .group) : contendedWork b (contendedBranch b s) =
      dropAssignment b (groupLeave b i (contendedBranch b s)) := by
  have hon : (contendedBranch b s).branches[b].onLine = some i := by
    rw [contendedBranch_branch]
    exact honLine
  have hnot : ¬ isStationKind (contendedBranch b s).records[i] = true := by
    unfold isStationKind
    rw [show (contendedBranch b s).records[i] = s.records[i] from rfl, hkind]
    exact nofun
  unfold contendedWork
  rw [hon]
  dsimp only
  rw [countAttempt_of_group (s := contendedBranch b s) hkind, if_neg hnot]

/-! ### What contention leaves alone -/

theorem answerFail_fixOutcome {b : Branch} {i : RecordIndex} {o : ExchangeOutcome} {s : State}
    (ho : o = .contention ∨ o = .branchOff) :
    flagSet .answerFail (fixOutcome i b o s) = flagSet .answerFail s := by
  by_cases hkind : isStationKind s.records[i] = true
  · have hsettled := recordSettled_fixOutcome (b := b) (o := o) (i := i) (v := s)
      (by rcases ho with rfl | rfl <;> exact nofun) hkind
    rw [hsettled.answerFail]
    rcases ho with rfl | rfl <;> exact Bool.or_false _
  · have hsame : fixOutcome i b o s = s := by
      unfold isStationKind at hkind
      unfold fixOutcome
      split <;> simp_all
    rw [hsame]

theorem answerFail_groupLeave (b : Branch) (i : RecordIndex) (s : State) :
    flagSet .answerFail (groupLeave b i s) = flagSet .answerFail s := by
  unfold groupLeave
  dsimp only
  split
  · exact flagSet_congr (freeRecord_flags i _) _
  · rfl

theorem answerFail_settleAttempt (b : Branch) (i : RecordIndex) (s : State) :
    flagSet .answerFail (settleAttempt i b .contention s) = flagSet .answerFail s := by
  unfold settleAttempt
  dsimp only
  split
  · exact answerFail_fixOutcome (.inl rfl)
  · rfl

theorem answerFail_contendedWork (b : Branch) (s : State) :
    flagSet .answerFail (contendedWork b s) = flagSet .answerFail s := by
  unfold contendedWork
  split
  · rfl
  · rename_i i _
    have hcount : flagSet .answerFail (countAttempt i s) = flagSet .answerFail s := rfl
    dsimp only
    generalize countAttempt i s = u at hcount
    split
    · exact (answerFail_settleAttempt b i _).trans hcount
    · exact (answerFail_groupLeave b i u).trans hcount

theorem answerFail_settleBranchOff (b : Branch) (s : State) (i : RecordIndex) :
    flagSet .answerFail (settleBranchOff b s i) = flagSet .answerFail s := by
  unfold settleBranchOff
  split
  · exact answerFail_groupLeave b i s
  · exact answerFail_fixOutcome (.inr rfl)

theorem answerFail_leaveService (b : Branch) (s : State) :
    flagSet .answerFail (leaveService b s) = flagSet .answerFail s := by
  have hfold : ∀ (l : List RecordIndex) (u : State),
      flagSet .answerFail (l.foldl (settleBranchOff b) u) = flagSet .answerFail u := by
    intro l
    induction l with
    | nil => exact fun _ => rfl
    | cons i l ih => exact fun u => (ih _).trans (answerFail_settleBranchOff b u i)
  rw [(leaveService_leftAfter b s).flags .answerFail nofun nofun]
  unfold settleBranchWork
  dsimp only
  refine (hfold _ _).trans ?_
  split
  · exact answerFail_settleBranchOff b s _
  · rfl

theorem contendedWork_kept (b : Branch) (s : State) : SameBut exchangeParts s (contendedWork b s) := by
  have hdrop : ∀ u : State, SameBut exchangeParts u (dropAssignment b u) := fun u =>
    (dropAssignment_sameBut b u).mono (by simp [exchangeParts, mem_branchParts])
  unfold contendedWork
  split
  · exact .refl _ s
  · rename_i i _
    have hcount : SameBut exchangeParts s (countAttempt i s) :=
      (modifyRecord_sameBut i _ s).mono (by simp [exchangeParts])
    dsimp only
    refine hcount.trans ?_
    generalize countAttempt i s = u
    split
    · refine SameBut.trans ?_ (hdrop _)
      exact ((returnBuffer_sameBut _ u).mono (by simp [exchangeParts])).trans (settleAttempt_kept i b _ _).sameBut
    · exact (groupLeave_kept b i u).sameBut.trans (hdrop _)

end Sys2Proof.Machine
end

section
/-! The third contention in a row: the branch goes into FAULT and its work is settled (sections 3.5, 4.5). -/

namespace Sys2Proof.Machine

-- The gate's memory limit counts every thread's arena, so the declarations are elaborated one after another.
set_option Elab.async false

/-! ### The work of a part in agreement -/

theorem hasExchange_cases {r : Record} (h : hasExchange r = true) : isStationKind r = true ∨ r.kind = some .group := by
  unfold hasExchange at h
  rw [Bool.or_eq_true, beq_iff_eq] at h
  exact h

/-- The TRANSPARENT record that the trunk waits for is one only (R64, R101). -/
theorem OwedAgrees.awaited {s : State} (h : OwedAgrees s) {i : RecordIndex} (ha : awaitedByTrunk s.records[i] = true) :
    s.trunk.owed = .pendingAnswer i := by
  unfold awaitedByTrunk at ha
  simp only [Bool.and_eq_true, beq_iff_eq, Bool.not_eq_true'] at ha
  obtain ⟨hkind, habandoned⟩ := ha
  obtain ⟨hlive, hfree⟩ := h.2.2 i
  refine hlive hkind (fun hst => ?_) habandoned
  rw [hfree hst] at hkind
  cases hkind

theorem OwedAgrees.awaited_unique {s : State} (h : OwedAgrees s) {i j : RecordIndex}
    (hi : awaitedByTrunk s.records[i] = true) (hj : awaitedByTrunk s.records[j] = true) : j = i :=
  OwedReply.pendingAnswer.inj ((h.awaited hj).symm.trans (h.awaited hi))

theorem holdsBuffer_request (s : State) (i : RecordIndex) : holdsBuffer s (.request i) =
    (s.records[i].kind != some .cyclic &&
      (s.records[i].state == .queued || s.records[i].state == .onLine || s.records[i].state == .delivering)) := rfl

theorem holdsBuffer_branchAnswer (s : State) (b : Branch) : holdsBuffer s (.branchAnswer b) =
    s.branches[b].onLine.any fun i => isStationKind s.records[i] := rfl

/-- A record of a branch's work holds its REQUEST, unless it is a poll (R118). -/
theorem TableAgrees.request {b : Branch} {s : State} (h : TableAgrees s) {i : RecordIndex} (hi : i ∈ workOf s b)
    (hkind : s.records[i].kind ≠ some .cyclic) : (heldFrame (.request i) s).isSome = true := by
  have hworking := h.working hi
  obtain ⟨-, -, -, -, hheld, -⟩ := h
  have hholds : holdsBuffer s (.request i) = true := by
    rw [holdsBuffer_request, bne_iff_ne.mpr hkind]
    rcases hworking with hst | hst | hst <;> rw [hst] <;> rfl
  have hone := hheld (.request i) nofun
  rw [hholds, if_pos rfl] at hone
  cases hnone : heldFrame (.request i) s with
  | none =>
    rw [heldCount_eq_zero.mpr hnone] at hone
    cases hone
  | some chars => rfl

/-- A branch with a GROUP record on its line holds no answer buffer (R118). -/
theorem TableAgrees.no_answer {b : Branch} {s : State} (h : TableAgrees s) {i : RecordIndex}
    (honLine : s.branches[b].onLine = some i) (hkind : s.records[i].kind = some .group) :
    heldFrame (.branchAnswer b) s = none := by
  obtain ⟨-, -, -, -, hheld, -⟩ := h
  have hnot : holdsBuffer s (.branchAnswer b) = false := by
    rw [holdsBuffer_branchAnswer, honLine]
    show isStationKind s.records[i] = false
    unfold isStationKind
    rw [hkind]
    rfl
  have hzero := hheld (.branchAnswer b) nofun
  rw [hnot] at hzero
  exact heldCount_eq_zero.mp hzero

/-! ### The records as they last stood -/

/-- A part `v` in which the work of a branch stands as `last` says before it is settled, and nothing of the work of the
trunk, the slots and the other records has changed. -/
structure WorkStands (b : Branch) (last : RecordIndex → Record) (o : RecordIndex → ExchangeOutcome) (s v : State) :
    Prop where
  other : ∀ i ∉ workOf s b, v.records[i] = s.records[i]
  settled : ∀ i ∈ workOf s b, settledRecord b (o i) s.params.holdTime v.records[i] =
    settledRecord b (o i) s.params.holdTime (last i)
  same : ∀ i ∈ workOf s b, v.records[i].kind = s.records[i].kind ∧ v.records[i].slot = s.records[i].slot ∧
    v.records[i].abandoned = s.records[i].abandoned ∧ v.records[i].cancelPending = s.records[i].cancelPending
  last : ∀ i ∈ workOf s b, (last i).kind = s.records[i].kind ∧ (last i).cancelPending = s.records[i].cancelPending ∧
    v.records[i].abandoned = (last i).abandoned ∧ v.records[i].notify = (last i).notify ∧
    v.records[i].trunkAddress = (last i).trunkAddress
  completions : v.completions = s.completions
  completion : flagSet .completion v = flagSet .completion s
  slots : v.slots = s.slots
  params : v.params = s.params
  trunk : v.trunk = s.trunk
  answer : heldFrame (.branchAnswer b) v = none
  reply : heldFrame .owedReply v = heldFrame .owedReply s
  request : ∀ i, heldFrame (.request i) v = heldFrame (.request i) s

/-- What leaving service in contention comes to (R58 to R63, R144). -/
theorem workStands_settled {b : Branch} {last : RecordIndex → Record} {o : RecordIndex → ExchangeOutcome}
    {s v w t : State} (hstands : WorkStands b last o s v) (hsettled : ListSettled b o (workOf s b) v w)
    (hleft : LeftAfter b w t) (howed : OwedAgrees s) (hagrees : TableAgrees s) :
    WorkSettled b last o s t ∧ heldFrame (.branchAnswer b) t = none ∧
      (∀ j ∈ workOf s b, awaitedByTrunk s.records[j] = true → trunkToldOfFailure (last j) (o j) s t) ∧
      ((∀ j ∈ workOf s b, awaitedByTrunk s.records[j] = false) → t.trunk = s.trunk) := by
  obtain ⟨hfit, hun⟩ := workFit_of_agrees (b := b) hagrees
  have hawaited : ∀ i ∈ workOf s b, awaitedByTrunk v.records[i] = awaitedByTrunk s.records[i] := fun i hi => by
    obtain ⟨hkind, -, ha, -⟩ := hstands.same i hi
    unfold awaitedByTrunk
    rw [hkind, ha]
  refine ⟨?_, ?_, fun j hj ha => ?_, fun hnone => ?_⟩
  · refine workSettled_of hfit hun hsettled hstands.other (fun i hi => ?_) hstands.completions hstands.completion
      hstands.slots hstands.params hleft.records hleft.completions hleft.buffers
        (hleft.flags .completion nofun nofun) hleft.slots
    obtain ⟨hkind, hslot, -, hcancel⟩ := hstands.same i hi
    obtain ⟨hkind', hcancel', -⟩ := hstands.last i hi
    refine ⟨hstands.settled i hi, ?_, hkind, hslot⟩
    unfold joinsCompletions
    rw [hkind, hcancel, hkind', hcancel']
  · rw [heldFrame_of_buffers hleft.buffers,
      hsettled.frames (.branchAnswer b) nofun nofun (fun _ => nofun) fun _ _ => nofun]
    exact hstands.answer
  · have hkind : s.records[j].kind ≠ some .cyclic := fun hc => by
      unfold awaitedByTrunk at ha
      rw [hc] at ha
      exact absurd ha Bool.false_ne_true
    have hreply : heldFrame .owedReply s = none := by
      unfold awaitedByTrunk at ha
      simp only [Bool.and_eq_true, beq_iff_eq, Bool.not_eq_true'] at ha
      exact howed.no_reply ha.1 ha.2
    have htold := hsettled.told j hj (by rw [hawaited j hj]; exact ha)
      (fun k hk hk' => howed.awaited_unique ha (by rw [← hawaited k hk]; exact hk')) (hstands.reply.trans hreply)
      (by rw [hstands.request]; exact hagrees.request hj hkind)
    have hcong := trunkToldOfFailure_congr htold hstands.trunk.symm hstands.params.symm hleft.trunk
    obtain ⟨-, -, habandoned, hnotify, haddress⟩ := hstands.last j hj
    unfold trunkToldOfFailure at hcong ⊢
    rwa [habandoned, hnotify, haddress] at hcong
  · rw [hleft.trunk, (hsettled.trunk fun i hi => by rw [hawaited i hi]; exact hnone i hi).1, hstands.trunk]

/-- A station record that is put back into its queue is settled as it stood (R58, R60, R61). -/
theorem settledRecord_queued {b : Branch} {o : ExchangeOutcome} {n : Nat} {r : Record} (h : isStationKind r = true) :
    settledRecord b o n { r with state := .queued } = settledRecord b o n r := by
  obtain ⟨kind, _⟩ := r
  unfold isStationKind at h
  cases kind with
  | none => cases h
  | some k =>
    cases k with
    | transparent | deferred | cyclic => rfl
    | group => cases h

end Sys2Proof.Machine
end

section
/-! Contention on a branch, from the run of three to the settlement of its work (sections 4.3, 4.5). -/

namespace Sys2Proof.Machine

-- The gate's memory limit counts every thread's arena, so the declarations are elaborated one after another.
set_option Elab.async false

theorem enterFault_leftAfter {b : Branch} {w u : State} (h : LeftAfter b w (leaveService b u)) :
    LeftAfter b w (enterFault b u) := by
  unfold enterFault
  dsimp only
  generalize leaveService b u = t at h
  exact
    { records := h.records
      completions := h.completions
      buffers := h.buffers
      trunk := h.trunk
      flags := fun f hl hf => by
        refine Eq.trans (flagSet_raise .branchFault f t) ?_
        rw [beq_false_of_ne (Ne.symm hf), Bool.or_false]
        exact h.flags f hl hf
      slots := h.slots }

/-- A branch that has left service has no DUE slot (R144). -/
theorem LeftAfter.no_due {b : Branch} {w t : State} (h : LeftAfter b w t) (k : SlotIndex) :
    slotDueOn t b k = false := by
  unfold slotDueOn
  rw [h.slots]
  split
  · rfl
  · rename_i hdue
    unfold slotDueOn at hdue
    simpa using hdue

/-- The record on line is settled, then the branch leaves service with its queue (R63, R84). -/
theorem settled_then_leaves {b : Branch} {i : RecordIndex} {o : RecordIndex → ExchangeOutcome} {s v w : State}
    (hfirst : RecordSettled b (o i) i v w) (ho : (o i == .noAnswer || o i == .badAnswer) = false)
    (hfit : WorkFit b s) (honLine : s.branches[b].onLine = some i)
    (hqueue : v.branches[b].queue = s.branches[b].queue) (hsame : ∀ j ≠ i, v.records[j] = s.records[j])
    (hrest : ∀ j ≠ i, o j = .branchOff) :
    ∃ t, ListSettled b o (workOf s b) v t ∧ LeftAfter b t (leaveService b (dropAssignment b w)) := by
  obtain ⟨hnodup, hexchange, hpolls⟩ := hfit
  have hwork : workOf s b = i :: s.branches[b].queue := by
    unfold workOf
    rw [honLine]
    rfl
  rw [hwork] at hnodup hexchange ⊢
  obtain ⟨hi, hnodup⟩ := List.nodup_cons.mp hnodup
  have hne : ∀ j ∈ s.branches[b].queue, j ≠ i := fun j hj heq => hi (heq ▸ hj)
  have hdropped := dropAssignment_branch b w
  have hu : ListSettled b o [i] v (dropAssignment b w) := (hfirst.list ho).then rfl rfl rfl rfl rfl rfl
    (by rw [hdropped]) rfl
  have huqueue : (dropAssignment b w).branches[b].queue = s.branches[b].queue := by
    rw [hdropped]
    exact (hfirst.queue (by rw [hqueue]; exact hi)).trans hqueue
  have huwork : workOf (dropAssignment b w) b = s.branches[b].queue := by
    unfold workOf
    rw [huqueue, hdropped]
    rfl
  have hurecords : ∀ j ∈ s.branches[b].queue, (dropAssignment b w).records[j] = s.records[j] := fun j hj =>
    (hfirst.others j (hne j hj)).trans (hsame j (hne j hj))
  generalize dropAssignment b w = u at *
  obtain ⟨t, ht, hleft⟩ := leaveService_settled (b := b) (v := u)
    { nodup := by rw [huwork]; exact hnodup
      exchange := fun j hj => by
        rw [huwork] at hj
        rw [hurecords j hj]
        exact hexchange j (List.mem_cons_of_mem i hj)
      polls := fun j hj => by
        rw [huqueue] at hj
        rw [hurecords j hj]
        exact hpolls j hj }
  rw [huwork] at ht
  refine ⟨t, hu.append (ht.congr fun j hj => (hrest j (hne j hj)).symm) (fun j hj h => ?_) (fun j hj => ?_), hleft⟩
  · exact hne j hj (List.mem_singleton.mp h)
  · rw [hsame j (hne j hj)]
    exact hpolls j hj

/-- The record on line as it last stands when contention puts its branch into FAULT (R55, R84). -/
def lastContended (i : RecordIndex) (retried : Bool) (s : State) (j : RecordIndex) : Record :=
  if j ≠ i then s.records[j]
  else if s.records[i].kind = some .group then s.records[i]
  else if retried then { attemptCounted s.records[i] with retriesLeft := s.records[i].retriesLeft - 1 }
  else attemptCounted s.records[i]

/-- The outcome of a record of a branch that contention puts into FAULT (R63, R84). -/
def outcomeContended (i : RecordIndex) (retried : Bool) (j : RecordIndex) : ExchangeOutcome :=
  if j = i && !retried then .contention else .branchOff

theorem outcomeContended_other {i j : RecordIndex} (h : j ≠ i) (retried : Bool) :
    outcomeContended i retried j = .branchOff := by
  unfold outcomeContended
  rw [decide_eq_false h]
  rfl

theorem lastContended_other {i j : RecordIndex} (h : j ≠ i) (retried : Bool) (s : State) :
    lastContended i retried s j = s.records[j] := if_pos h

theorem contended_leaves_group {b : Branch} {i : RecordIndex} {s : State} (honLine : s.branches[b].onLine = some i)
    (hkind : s.records[i].kind = some .group) (hagrees : TableAgrees s) : ∃ v w,
    WorkStands b (lastContended i false s) (outcomeContended i false) s v ∧
      ListSettled b (outcomeContended i false) (workOf s b) v w ∧
      LeftAfter b w (leaveService b (contendedWork b (contendedBranch b s))) := by
  obtain ⟨hfit, -⟩ := workFit_of_agrees (b := b) hagrees
  have hcontention : outcomeContended i false i = .contention := by
    unfold outcomeContended
    simp
  have hlast : lastContended i false s i = s.records[i] := by
    unfold lastContended
    rw [if_neg (not_not.mpr rfl), if_pos hkind]
  have hlast' : ∀ j, lastContended i false s j = s.records[j] := fun j => by
    by_cases hj : j = i
    · rw [hj, hlast]
    · exact lastContended_other hj false s
  have hfirst : RecordSettled b (outcomeContended i false i) i (contendedBranch b s)
      (groupLeave b i (contendedBranch b s)) :=
    recordSettled_groupLeave (by rw [hcontention]; rfl) hkind
  obtain ⟨w, hw, hleft⟩ := settled_then_leaves hfirst (by rw [hcontention]; rfl) hfit honLine
    (by rw [contendedBranch_branch]) (fun j _ => rfl) (fun j hj => outcomeContended_other hj false)
  refine ⟨contendedBranch b s, w, ?_, hw, by rw [contendedWork_group honLine hkind]; exact hleft⟩
  exact
    { other := fun j _ => rfl
      settled := fun j _ => by rw [hlast']; rfl
      same := fun j _ => ⟨rfl, rfl, rfl, rfl⟩
      last := fun j _ => by rw [hlast']; exact ⟨rfl, rfl, rfl, rfl, rfl⟩
      completions := rfl
      completion := by rw [flagSet_contendedBranch]; exact Bool.or_false _
      slots := rfl
      params := rfl
      trunk := rfl
      answer := (heldFrame_of_buffers (contendedBranch_buffers b s) _).trans (hagrees.no_answer honLine hkind)
      reply := heldFrame_of_buffers (contendedBranch_buffers b s) _
      request := fun j => heldFrame_of_buffers (contendedBranch_buffers b s) _ }

/-- The work of a branch whose station record has been counted, or also put back, stands as the record last stands. -/
theorem workStands_station {b : Branch} {i : RecordIndex} {retried : Bool} {s v : State}
    (hkind : isStationKind s.records[i] = true) (hi : i ∈ workOf s b) (hothers : ∀ j ≠ i, v.records[j] = s.records[j])
    (hrecord : v.records[i] = lastContended i retried s i ∨
      v.records[i] = { lastContended i retried s i with state := .queued })
    (hframes : ∀ g : Holder, g ≠ .free → g ≠ .branchAnswer b → heldFrame g v = heldFrame g s)
    (hanswer : heldFrame (.branchAnswer b) v = none) (hsame : SameBut (branchParts ++ [.records, .buffers, .flags]) s v)
    (hflag : flagSet .completion v = flagSet .completion s) :
    WorkStands b (lastContended i retried s) (outcomeContended i retried) s v := by
  have hlast : ∃ n m, lastContended i retried s i = { s.records[i] with attempts := n, retriesLeft := m } := by
    obtain ⟨n, hn⟩ := attemptCounted_eq s.records[i]
    unfold lastContended
    rw [if_neg (not_not.mpr rfl), if_neg, hn]
    · split
      · exact ⟨_, _, rfl⟩
      · exact ⟨_, _, rfl⟩
    · intro hgroup
      unfold isStationKind at hkind
      rw [hgroup] at hkind
      cases hkind
  obtain ⟨n, m, hlast⟩ := hlast
  have hv : ∃ x, v.records[i] = { s.records[i] with attempts := n, retriesLeft := m, state := x } := by
    rcases hrecord with h | h <;> rw [h, hlast] <;> exact ⟨_, rfl⟩
  obtain ⟨x, hv⟩ := hv
  have hcases : ∀ j, j = i ∨ j ≠ i ∧ v.records[j] = s.records[j] ∧ lastContended i retried s j = s.records[j] :=
    fun j => by
    by_cases hj : j = i
    · exact .inl hj
    · exact .inr ⟨hj, hothers j hj, lastContended_other hj retried s⟩
  exact
    { other := fun j hj => hothers j fun h => hj (h ▸ hi)
      settled := fun j _ => by
        rcases hcases j with rfl | ⟨-, h1, h2⟩
        · rcases hrecord with h | h
          · rw [h]
          · rw [h]
            refine settledRecord_queued ?_
            rw [hlast]
            exact hkind
        · rw [h1, h2]
      same := fun j _ => by
        rcases hcases j with rfl | ⟨-, h1, h2⟩
        · rw [hv]
          exact ⟨rfl, rfl, rfl, rfl⟩
        · rw [h1]
          exact ⟨rfl, rfl, rfl, rfl⟩
      last := fun j _ => by
        rcases hcases j with rfl | ⟨-, h1, h2⟩
        · rw [hv, hlast]
          exact ⟨rfl, rfl, rfl, rfl, rfl⟩
        · rw [h1, h2]
          exact ⟨rfl, rfl, rfl, rfl, rfl⟩
      completions := hsame.2 .completions (by decide) (by decide)
      completion := hflag
      slots := hsame.2 .slots (by decide) (by decide)
      params := hsame.2 .params (by decide) (by decide)
      trunk := hsame.2 .trunk (by decide) (by decide)
      answer := hanswer
      reply := hframes .owedReply nofun nofun
      request := fun j => hframes (.request j) nofun nofun }

/-- A record that is retried keeps RETRIES_LEFT, and neither ABANDONED nor CANCEL_PENDING stops it (R55). -/
def isRetried (r : Record) : Bool := r.retriesLeft != 0 && !r.abandoned && !r.cancelPending

theorem settleAttempt_contention (i : RecordIndex) (b : Branch) (v : State) : settleAttempt i b .contention v =
    if isRetried v.records[i] then retryRecord i b v else fixOutcome i b .contention v := by
  unfold settleAttempt isRetried
  generalize v.records[i] = r
  obtain ⟨_, _, _, _, _, _, _, _, _, _, retries, _, _, cancel, abandoned, _⟩ := r
  dsimp only
  cases abandoned <;> cases cancel <;> by_cases h : retries = 0 <;> simp [h]

theorem contended_leaves_station {b : Branch} {i : RecordIndex} {s : State} (honLine : s.branches[b].onLine = some i)
    (hkind : isStationKind s.records[i] = true) (howed : OwedAgrees s) (hagrees : TableAgrees s) : ∃ v w,
    let retried := isRetried s.records[i]
    WorkStands b (lastContended i retried s) (outcomeContended i retried) s v ∧
      ListSettled b (outcomeContended i retried) (workOf s b) v w ∧
      LeftAfter b w (leaveService b (contendedWork b (contendedBranch b s))) := by
  obtain ⟨hfit, -⟩ := workFit_of_agrees (b := b) hagrees
  obtain ⟨hstands, hrecord⟩ := attemptStands_contention (b := b) howed hkind
  have hi : i ∈ workOf s b := mem_workOf.mpr (.inl honLine)
  have hgroup : s.records[i].kind ≠ some .group := fun hgroup => by
    unfold isStationKind at hkind
    rw [hgroup] at hkind
    cases hkind
  have hframes : ∀ g : Holder, g ≠ .free → g ≠ .branchAnswer b →
      heldFrame g (contentionReported b i s) = heldFrame g s := fun g hf hb => contentionReported_frames hf hb
  have hretried : isRetried (contentionReported b i s).records[i] = isRetried s.records[i] := by
    obtain ⟨n, hn⟩ := attemptCounted_eq s.records[i]
    rw [hrecord, hn]
    rfl
  rw [contendedWork_station honLine hkind, settleAttempt_contention, hretried]
  have hreports : (contentionReported b i s).records[i].kind = s.records[i].kind := by
    obtain ⟨n, hn⟩ := attemptCounted_eq s.records[i]
    rw [hrecord, hn]
  generalize contentionReported b i s = v at *
  dsimp only
  cases hcase : isRetried s.records[i] with
  | false =>
    have hlast : lastContended i false s i = attemptCounted s.records[i] := by
      unfold lastContended
      rw [if_neg (not_not.mpr rfl), if_neg hgroup, if_neg Bool.false_ne_true]
    have hcontention : outcomeContended i false i = .contention := by
      unfold outcomeContended
      simp
    have hstation : isStationKind v.records[i] = true := by
      unfold isStationKind
      rw [hreports]
      exact hkind
    have hfirst : RecordSettled b (outcomeContended i false i) i v (fixOutcome i b .contention v) := by
      rw [hcontention]
      exact recordSettled_fixOutcome nofun hstation
    obtain ⟨w, hw, hleft⟩ := settled_then_leaves hfirst (by rw [hcontention]; rfl) hfit honLine hstands.queue
      hstands.records (fun j hj => outcomeContended_other hj false)
    exact ⟨v, w, workStands_station hkind hi hstands.records (.inl (hrecord.trans hlast.symm)) hframes hstands.answer
      hstands.same (hstands.flag .completion nofun nofun), hw, hleft⟩
  | true =>
    have hlast : lastContended i true s i =
        { attemptCounted s.records[i] with retriesLeft := s.records[i].retriesLeft - 1 } := by
      unfold lastContended
      rw [if_neg (not_not.mpr rfl), if_neg hgroup, if_pos rfl]
    have houtcome : ∀ j, outcomeContended i true j = .branchOff := fun j => by
      unfold outcomeContended
      rw [Bool.not_true, Bool.and_false]
      rfl
    have hnotPoll : s.records[i].kind ≠ some .cyclic := fun hcyclic => by
      have hzero := ((recordAgrees_working (hagrees.1 i) (hagrees.working hi)).2.2.1 hcyclic).2
      unfold isRetried at hcase
      rw [hzero] at hcase
      cases hcase
    let u := dropAssignment b (retryRecord i b v)
    have hurecord : u.records[i] = { lastContended i true s i with state := .queued } := by
      refine Eq.trans (updateAt_same ..) ?_
      obtain ⟨n, hn⟩ := attemptCounted_eq s.records[i]
      rw [hrecord, hlast, hn]
    have huothers : ∀ j ≠ i, u.records[j] = s.records[j] := fun j hj =>
      (updateAt_other _ _ hj).trans (hstands.records j hj)
    have hubranch : u.branches[b].onLine = none ∧ u.branches[b].queue = i :: s.branches[b].queue := by
      show (dropAssignment b (retryRecord i b v)).branches[b].onLine = none ∧ _
      rw [dropAssignment_branch]
      refine ⟨rfl, ?_⟩
      show (modifyBranch b _ _).branches[b].queue = _
      rw [modifyBranch_same]
      exact congrArg (List.cons i) hstands.queue
    have hubuffers : u.buffers = v.buffers := rfl
    have huflags : u.flags = v.flags := rfl
    have husame : SameBut (branchParts ++ [.records, .buffers, .flags]) s u :=
      hstands.same.trans ((((modifyRecord_sameBut i _ v).mono (by simp)).trans
        ((modifyBranch_sameBut b _ _).mono (by simp [mem_branchParts]))).trans
        ((dropAssignment_sameBut b _).mono (by simp [mem_branchParts])))
    have hleave : dropAssignment b (if true = true then retryRecord i b v else fixOutcome i b .contention v) = u := rfl
    rw [hleave]
    generalize u = u at *
    have huwork : workOf u b = workOf s b := by
      unfold workOf
      rw [hubranch.1, hubranch.2, honLine]
      rfl
    have hukind : ∀ j : RecordIndex, u.records[j].kind = s.records[j].kind := fun j => by
      by_cases hj : j = i
      · obtain ⟨n, hn⟩ := attemptCounted_eq s.records[i]
        rw [hj, hurecord, hlast, hn]
      · rw [huothers j hj]
    obtain ⟨w, hw, hleft⟩ := leaveService_settled (b := b) (v := u)
      { nodup := by rw [huwork]; exact hfit.nodup
        exchange := fun j hj => by
          have hexchange := hfit.exchange j (by rw [← huwork]; exact hj)
          unfold hasExchange isStationKind at hexchange ⊢
          rw [hukind]
          exact hexchange
        polls := fun j hj => by
          rw [hukind]
          rw [hubranch.2] at hj
          rcases List.mem_cons.mp hj with rfl | hj
          · exact hnotPoll
          · exact hfit.polls j hj }
    rw [huwork] at hw
    exact ⟨u, w, workStands_station hkind hi huothers (.inr hurecord)
      (fun g hf hb => (heldFrame_of_buffers hubuffers g).trans (hframes g hf hb))
      ((heldFrame_of_buffers hubuffers _).trans hstands.answer) husame
      ((flagSet_congr huflags _).trans (hstands.flag .completion nofun nofun)),
      hw.congr fun j _ => (houtcome j).symm, hleft⟩

end Sys2Proof.Machine
end

section
/-! Contention ends the attempt, and the third in a row puts the branch into FAULT (sections 4.3, 4.5). -/

namespace Sys2Proof.Machine

-- The gate's memory limit counts every thread's arena, so the declarations are elaborated one after another.
set_option Elab.async false

/-- Every flag set when contention has been counted is still set when it has been dealt with (section 8.1). -/
theorem flagSet_sendContended {f : Flag} {b : Branch} {s : State} (h : flagSet f (contendedBranch b s) = true) :
    flagSet f (sendContended b s) = true := by
  have hkept : Keeps True (contendedBranch b s) (sendContended b s) := by
    rw [sendContended_eq]
    refine (contendedWork_keeps b _).trans ?_
    split
    · exact enterFault_keeps b _
    · exact enterIdle_keeps b _
  exact flagSet_of_kept (hkept.flags trivial) h

theorem contentionRun_contendedWork (b : Branch) (s : State) :
    (contendedWork b (contendedBranch b s)).branches[b].contentionRun = s.branches[b].contentionRun + 1 := by
  obtain ⟨queue, stalled, hwork⟩ := contendedWork_branch b (contendedBranch b s)
  rw [hwork, contendedBranch_branch]

theorem sendContended_idle {b : Branch} {s : State} (h : s.branches[b].contentionRun < 2) :
    sendContended b s = enterIdle b (contendedWork b (contendedBranch b s)) := by
  rw [sendContended_eq, contentionRun_contendedWork]
  exact if_neg (Nat.not_le.mpr (Nat.succ_lt_succ h))

theorem sendContended_fault {b : Branch} {s : State} (h : 2 ≤ s.branches[b].contentionRun) :
    sendContended b s = enterFault b (contendedWork b (contendedBranch b s)) := by
  rw [sendContended_eq, contentionRun_contendedWork]
  exact if_pos (Nat.succ_le_succ h)

/-- The branch after contention, whatever its run (R19, R84, R89). -/
theorem sendContended_branch (b : Branch) (s : State) : let y := (sendContended b s).branches[b]
    y.contentionRun = s.branches[b].contentionRun + 1 ∧ y.onLine = none ∧ y.pendingRate = none ∧
      y.port = underRate s.branches[b].pendingRate s.branches[b].port.lost ∧ y.counters = s.branches[b].counters := by
  dsimp only
  have hfields : ∀ x : BranchState, x.port.rx = .hunt → x.rated.contentionRun = x.contentionRun ∧
      x.rated.onLine = x.onLine ∧ x.rated.port = underRate x.pendingRate x.port ∧ x.rated.counters = x.counters := by
    intro x hx
    rw [BranchState.rated_port_of_hunt hx, BranchState.rated_kept]
    exact ⟨rfl, rfl, rfl, rfl⟩
  by_cases h : s.branches[b].contentionRun < 2
  · obtain ⟨queue, stalled, hbranch⟩ := sendContended_branch_idle h
    rw [hbranch]
    obtain ⟨h1, h2, h3, h4⟩ := hfields { s.branches[b] with
      port := s.branches[b].port.lost, contentionRun := s.branches[b].contentionRun + 1, onLine := none
      queue := queue, stalled := stalled } rfl
    exact ⟨h1, h2, BranchState.rated_pendingRate _, h3, h4⟩
  · rw [sendContended_branch_fault (Nat.not_lt.mp h)]
    obtain ⟨h1, h2, h3, h4⟩ := hfields { s.branches[b] with
      port := s.branches[b].port.lost, contentionRun := s.branches[b].contentionRun + 1 } rfl
    exact ⟨h1, rfl, BranchState.rated_pendingRate _, h3, h4⟩

theorem answerFail_sendContended (b : Branch) (s : State) :
    flagSet .answerFail (sendContended b s) = flagSet .answerFail s := by
  have hwork : flagSet .answerFail (contendedWork b (contendedBranch b s)) = flagSet .answerFail s := by
    rw [answerFail_contendedWork, flagSet_contendedBranch]
    exact Bool.or_false _
  rw [sendContended_eq, ← hwork]
  generalize contendedWork b (contendedBranch b s) = u
  split
  · refine Eq.trans (flagSet_raise .branchFault .answerFail (leaveService b u)) ?_
    rw [answerFail_leaveService]
    exact Bool.or_false _
  · exact flagSet_enterIdle (f := .answerFail) nofun b u

theorem sendContended_sameBut (b : Branch) (s : State) : SameBut exchangeParts s (sendContended b s) := by
  have hwork : SameBut exchangeParts s (contendedWork b (contendedBranch b s)) :=
    ((contendedBranch_sameBut b s).mono (by simp [exchangeParts, mem_branchParts])).trans (contendedWork_kept b _)
  rw [sendContended_eq]
  refine hwork.trans ?_
  split
  · exact (enterFault_kept b _).sameBut
  · exact (enterIdle_kept b _).sameBut

/-- Short of the third in a row, a GROUP record loses the branch and the branch is in IDLE (R62, R84). -/
theorem sendContended_group {b : Branch} {i : RecordIndex} {s : State} (h : s.branches[b].contentionRun < 2)
    (honLine : s.branches[b].onLine = some i) (hkind : s.records[i].kind = some .group) :
    let t := sendContended b s
    let r := s.records[i]
    (∀ k ≠ i, t.records[k] = s.records[k]) ∧
      if setWithout r.pendingSet b = 0 ∧ setWithout r.sendingSet b = 0 then
        t.records[i] = Record.free ∧ heldFrame (.request i) t = none
      else
        t.records[i] = { r with
          pendingSet := setWithout r.pendingSet b, sendingSet := setWithout r.sendingSet b } ∧
          t.buffers = s.buffers := by
  dsimp only
  obtain ⟨hothers, hfreed, hwritten, -⟩ := groupLeave_left b i (contendedBranch b s)
  have hrecords : (contendedBranch b s).records = s.records := rfl
  rw [hrecords] at hothers hfreed hwritten
  rw [sendContended_idle h, contendedWork_group honLine hkind]
  generalize groupLeave b i (contendedBranch b s) = w at *
  have hdropped := dropped_sameBut b w
  have hrecs : (enterIdle b (dropAssignment b w)).records = w.records := hdropped.2 .records (by decide) (by simp)
  have hbufs : (enterIdle b (dropAssignment b w)).buffers = w.buffers := hdropped.2 .buffers (by decide) (by simp)
  rw [hrecs, heldFrame_of_buffers hbufs, hbufs]
  refine ⟨hothers, ?_⟩
  split
  · rename_i hempty
    exact hfreed hempty
  · rename_i hleft
    obtain ⟨hrecord, hsame⟩ := hwritten hleft
    exact ⟨hrecord, (hsame.2 .buffers (by decide) (by decide)).trans (contendedBranch_buffers b s)⟩

/-- Settles O51: contention ends the attempt, and at the third in a row the branch leaves service for FAULT. -/
theorem branchContentionEnds : Obligations.BranchContentionEnds := by
  intro b i s hr hsending honLine howed x r q
  have hexec : exec (.branchContention b) s = .next (sendContended b s) :=
    (outsideReset_of_running hr).trans (congrArg _ (if_pos hsending))
  obtain ⟨hrun, hon, hrate, hport, hcounters⟩ := sendContended_branch b s
  refine ⟨sendContended b s, hexec, flagSet_sendContended ?_, hrun, hon, hrate, hport,
    congrArg BranchCounters.badAnswers hcounters, congrArg BranchCounters.noAnswers hcounters,
    fun d hd => sendContended_branch_other hd s, answerFail_sendContended b s, sendContended_sameBut b s,
    fun h => ⟨?_, fun hkind => ?_, sendContended_group h honLine⟩, fun h => ?_⟩
  · rw [flagSet_contendedBranch]
    exact Bool.or_true _
  · obtain ⟨queue, stalled, hbranch⟩ := sendContended_branch_idle h
    rw [hbranch]
  · obtain ⟨hstands, hrecord⟩ := attemptStands_contention (b := b) howed hkind
    have hstation : isStationKind (contentionReported b i s).records[i] = true := by
      obtain ⟨n, hn⟩ := attemptCounted_eq s.records[i]
      rw [hrecord, hn]
      exact hkind
    have hfailed := attemptFailed (o := .contention) nofun hstands hstation
    rw [hrecord] at hfailed
    rw [sendContended_idle h, contendedWork_station honLine hkind]
    exact hfailed
  · have hbranch := sendContended_branch_fault h
    have hleft : LeftAfter b (settleBranchWork b (contendedWork b (contendedBranch b s))) (sendContended b s) := by
      rw [sendContended_fault h]
      exact enterFault_leftAfter (leaveService_leftAfter b _)
    refine ⟨by rw [hbranch], ?_, by rw [hbranch], by rw [hbranch], hleft.no_due, by rw [hbranch]; rfl,
      fun hagrees => ?_⟩
    · rw [sendContended_fault h]
      generalize contendedWork b (contendedBranch b s) = u
      refine Eq.trans (flagSet_raise .branchFault .branchFault (leaveService b u)) ?_
      exact Bool.or_true _
    · have hsettled : ∃ v w, WorkStands b (lastContended i (isStationKind r && isRetried r) s)
          (outcomeContended i (isStationKind r && isRetried r)) s v ∧
          ListSettled b (outcomeContended i (isStationKind r && isRetried r)) (workOf s b) v w ∧
          LeftAfter b w (sendContended b s) := by
        rw [sendContended_fault h]
        rcases hasExchange_cases ((workFit_of_agrees hagrees).1.exchange i (mem_workOf.mpr (.inl honLine)))
          with hkind | hkind
        · obtain ⟨v, w, hstands, hw, hleave⟩ := contended_leaves_station honLine hkind howed hagrees
          rw [show isStationKind r = true from hkind, Bool.true_and]
          exact ⟨v, w, hstands, hw, enterFault_leftAfter hleave⟩
        · obtain ⟨v, w, hstands, hw, hleave⟩ := contended_leaves_group honLine hkind hagrees
          have hnot : isStationKind r = false := by
            unfold isStationKind
            rw [show r.kind = _ from hkind]
            rfl
          rw [hnot, Bool.false_and]
          exact ⟨v, w, hstands, hw, enterFault_leftAfter hleave⟩
      obtain ⟨v, w, hstands, hw, hleave⟩ := hsettled
      have hall := workStands_settled hstands hw hleave howed hagrees
      have hretried : (isStationKind r && isRetried r) =
          (isStationKind r && r.retriesLeft != 0 && !r.abandoned && !r.cancelPending) := by
        unfold isRetried
        rw [Bool.and_assoc, Bool.and_assoc, Bool.and_assoc]
      rw [hretried] at hall
      exact hall

end Sys2Proof.Machine
end

section
/-! The work of a branch under the supersede of a command (sections 3.6, 5.2). -/

namespace Sys2Proof.Machine

-- The gate's memory limit counts every thread's arena, so the declarations are elaborated one after another.
set_option Elab.async false

/-- The supersede takes no record into a queue or the completion list, and takes the record it frees out of them
(R64). -/
theorem superseded_lists (s : State) :
    (∀ b : Branch, (superseded s).branches[b].queue.Sublist s.branches[b].queue ∧
      ∀ i ∈ (superseded s).branches[b].queue, liveTransparent s = some i → s.records[i].state ≠ .queued) ∧
      (superseded s).completions.Sublist s.completions := by
  let v := supersedeOwed (setRx .trunk .hunt s)
  have hlists : (superseded s).branches = (supersedeRecord v).branches ∧
      (superseded s).completions = (supersedeRecord v).completions := by
    unfold superseded
    rw [(supersede_eq (s := setRx .trunk .hunt s) rfl).2]
    exact ⟨rfl, rfl⟩
  have hv : v.branches = s.branches ∧ v.completions = s.completions ∧ v.records = s.records ∧
      liveTransparent v = liveTransparent s := by
    show (supersedeOwed (setRx .trunk .hunt s)).branches = _ ∧ (supersedeOwed (setRx .trunk .hunt s)).completions = _ ∧
      (supersedeOwed (setRx .trunk .hunt s)).records = _ ∧ liveTransparent (supersedeOwed (setRx .trunk .hunt s)) = _
    rw [supersedeOwed_eq]
    exact ⟨rfl, rfl, rfl, rfl⟩
  obtain ⟨hbranches, hlist, hrecords, hlive⟩ := hv
  rw [hlists.1, hlists.2]
  generalize v = v at *
  unfold supersedeRecord
  rw [hlive]
  cases hcase : liveTransparent s with
  | none =>
    dsimp only
    rw [hbranches, hlist]
    exact ⟨fun b => ⟨.refl _, fun _ _ => nofun⟩, .refl _⟩
  | some i =>
    dsimp only
    rw [hrecords]
    by_cases hst : s.records[i].state = .queued
    · rw [if_pos hst, freeRecord_completions, hlist]
      refine ⟨fun b => ?_, List.filter_sublist⟩
      rw [freeRecord_queue, hbranches]
      refine ⟨List.filter_sublist, fun j hj hij => ?_⟩
      have hne : j ≠ i := by simpa using (List.mem_filter.mp hj).2
      exact absurd (Option.some.inj hij).symm hne
    · rw [if_neg hst]
      refine ⟨fun b => ⟨?_, fun j _ hij => ?_⟩, ?_⟩
      · show List.Sublist v.branches[b].queue _
        rw [hbranches]
      · rwa [← Option.some.inj hij]
      · show List.Sublist v.completions _
        rw [hlist]

/-- A record of a branch's work as the supersede leaves it: as it was, or ABANDONED (R64). -/
theorem superseded_work {b : Branch} {s : State} (h : TableAgrees s) {i : RecordIndex}
    (hi : i ∈ workOf (superseded s) b) :
    i ∈ workOf s b ∧ ∃ a, (superseded s).records[i] = { s.records[i] with abandoned := a } := by
  have honLine : (superseded s).branches[b].onLine = s.branches[b].onLine :=
    (congrArg BranchState.onLine (superseded_branch s b).eq).trans rfl
  obtain ⟨hsub, hlive⟩ := (superseded_lists s).1 b
  have hmem : i ∈ workOf s b := by
    rw [mem_workOf] at hi ⊢
    rw [honLine] at hi
    exact hi.imp_right fun hq => hsub.subset hq
  refine ⟨hmem, ?_⟩
  rw [superseded_records]
  by_cases hcase : liveTransparent s = some i
  · have hst : s.records[i].state ≠ .queued := by
      rw [mem_workOf, honLine] at hi
      rcases hi with hon | hq
      · have hserved := ((h.2.1 b).2.2 i).2.1.mp hon
        unfold servedOn at hserved
        intro hqueued
        rw [hqueued] at hserved
        simp at hserved
      · exact hlive i hq hcase
    unfold supersededRecord
    rw [if_pos hcase, if_neg hst]
    exact ⟨true, rfl⟩
  · rw [if_neg hcase]
    exact ⟨s.records[i].abandoned, rfl⟩

theorem workFit_superseded {b : Branch} {s : State} (h : TableAgrees s) :
    WorkFit b (superseded s) ∧ WorkUnended b (superseded s) := by
  obtain ⟨⟨hnodup, hexchange, hpolls⟩, ⟨hunlisted, hpolling⟩⟩ := workFit_of_agrees (b := b) h
  have honLine : (superseded s).branches[b].onLine = s.branches[b].onLine :=
    (congrArg BranchState.onLine (superseded_branch s b).eq).trans rfl
  obtain ⟨hlists, hlist⟩ := superseded_lists s
  refine ⟨⟨?_, fun i hi => ?_, fun i hi => ?_⟩, ⟨fun i hi hl => ?_, fun i hi k hk => ?_⟩⟩
  · refine List.Nodup.sublist ?_ hnodup
    unfold workOf
    rw [honLine]
    exact List.Sublist.append (.refl _) (hlists b).1
  · obtain ⟨hmem, a, ha⟩ := superseded_work h hi
    rw [ha]
    exact hexchange i hmem
  · obtain ⟨-, a, ha⟩ := superseded_work h (mem_workOf.mpr (.inr hi))
    rw [ha]
    exact hpolls i ((hlists b).1.subset hi)
  · exact hunlisted i (superseded_work h hi).1 (hlist.subset hl)
  · obtain ⟨hmem, a, ha⟩ := superseded_work h hi
    rw [ha] at hk
    rw [superseded_slots]
    exact hpolling i hmem k hk

/-- A record of a branch's work holds no ANSWER (R118). -/
theorem TableAgrees.no_record_answer {b : Branch} {s : State} (h : TableAgrees s) {i : RecordIndex}
    (hi : i ∈ workOf s b) : heldFrame (.answer i) s = none := by
  have hworking := (recordAgrees_working (h.1 i) (h.working hi)).2.1
  obtain ⟨-, -, -, -, hheld, -⟩ := h
  have hnot : holdsBuffer s (.answer i) = false := by
    show (s.records[i].outcome == some .answered) = false
    rw [hworking]
    rfl
  have hzero := hheld (.answer i) nofun
  rw [hnot] at hzero
  exact heldCount_eq_zero.mp hzero

theorem heldFrame_returnBuffer_none {g : Holder} (hg : g ≠ .free) (h : Holder) {s : State} (hs : heldFrame g s = none) :
    heldFrame g (returnBuffer h s) = none := by
  by_cases hne : g = h
  · subst hne
    exact heldFrame_returnBuffer_same hg s
  · rw [heldFrame_returnBuffer_other hg hne]
    exact hs

/-- The supersede gives no record an ANSWER (R64, R104). -/
theorem superseded_answer_none {s : State} {i : RecordIndex} (h : heldFrame (.answer i) s = none) :
    heldFrame (.answer i) (superseded s) = none := by
  have hkept : ∀ (k : Holder) {v : State}, heldFrame (.answer i) v = none →
      heldFrame (.answer i) (returnBuffer k v) = none :=
    fun k _ hv => heldFrame_returnBuffer_none (g := .answer i) nofun k hv
  have howed : heldFrame (.answer i) (supersedeOwed (setRx .trunk .hunt s)) = none := by
    rw [supersedeOwed_eq]
    split
    · exact hkept .owedReply h
    · exact h
  generalize hv : supersedeOwed (setRx .trunk .hunt s) = v at howed
  have hrecord : heldFrame (.answer i) (supersedeRecord v) = none := by
    unfold supersedeRecord
    split
    · exact howed
    · rename_i j _
      split
      · refine Eq.trans (heldFrame_of_buffers (freeRecord_buffers j v) _) ?_
        exact hkept _ (hkept _ howed)
      · exact howed
  unfold superseded
  rw [(supersede_eq (s := setRx .trunk .hunt s) rfl).2, hv]
  split
  · exact hkept _ hrecord
  · exact hrecord

end Sys2Proof.Machine
end

section
/-! DISABLE and ENABLE: what they make of a branch, of its work and of the pool (section 4.5). -/

namespace Sys2Proof.Machine

-- The gate's memory limit counts every thread's arena, so the declarations are elaborated one after another.
set_option Elab.async false

/-! ### Buffers that no settlement touches -/

/-- A holder that is none of a record's and not the owed reply's. -/
def apartFromRecords (h : Holder) : Prop :=
  h ≠ .free ∧ h ≠ .owedReply ∧ (∀ i, h ≠ .answer i) ∧ ∀ i, h ≠ .request i

theorem heldFrame_groupLeave {h : Holder} (hh : apartFromRecords h) (b : Branch) (i : RecordIndex) (s : State) :
    heldFrame h (groupLeave b i s) = heldFrame h s := by
  obtain ⟨hf, -, ha, hr⟩ := hh
  unfold groupLeave
  dsimp only
  split
  · exact heldFrame_freeRecord_other i hf (hr i) (ha i) _
  · rfl

theorem heldFrame_settleBranchOff {h : Holder} (hh : apartFromRecords h) (b : Branch) (s : State) (i : RecordIndex) :
    heldFrame h (settleBranchOff b s i) = heldFrame h s := by
  obtain ⟨hf, ho, ha, hr⟩ := id hh
  unfold settleBranchOff
  split
  · exact heldFrame_groupLeave hh b i s
  · rename_i hgroup
    by_cases hkind : isStationKind s.records[i] = true
    · exact (recordSettled_fixOutcome (b := b) (o := .branchOff) nofun hkind).frames h hf (hr i) (ha i) ho
    · have hsame : fixOutcome i b .branchOff s = s := by
        unfold isStationKind at hkind
        unfold fixOutcome
        split <;> simp_all
      rw [hsame]

theorem heldFrame_leaveService {h : Holder} (hh : apartFromRecords h) (b : Branch) (s : State) :
    heldFrame h (leaveService b s) = heldFrame h s := by
  have hfold : ∀ (l : List RecordIndex) (u : State), heldFrame h (l.foldl (settleBranchOff b) u) = heldFrame h u := by
    intro l
    induction l with
    | nil => exact fun _ => rfl
    | cons i l ih => exact fun u => (ih _).trans (heldFrame_settleBranchOff hh b u i)
  rw [heldFrame_of_buffers (leaveService_leftAfter b s).buffers]
  unfold settleBranchWork
  dsimp only
  refine (hfold _ _).trans ?_
  split
  · exact heldFrame_settleBranchOff hh b s _
  · rfl

/-! ### DISABLE -/

/-- The part in which a branch in service is about to leave it: its line is released, its answer buffer returned
(R92). -/
def disabling (b : Branch) (s : State) : State :=
  returnBuffer (.branchAnswer b) (modifyBranch b (fun x => { x with windowTimer := none }) (stopReceive b s))

theorem setStatus_same (b : Branch) (x : BranchStatus) (s : State) : (setStatus b x s).buffers = s.buffers ∧
    (setStatus b x s).flags = s.flags ∧ (setStatus b x s).slots = s.slots := ⟨rfl, rfl, rfl⟩

theorem disableBranch_inService {b : Branch} {s : State} (h : inService s b = true) :
    disableBranch b s = setStatus b .off (leaveService b (disabling b s)) := by
  obtain ⟨hoff, hfault⟩ := inService_iff.mp h
  unfold disableBranch
  cases hst : s.branches[b].status with
  | off => exact absurd hst hoff
  | fault => exact absurd hst hfault
  | idle | lead | send | await | recv => rfl

theorem disableBranch_fault {b : Branch} {s : State} (h : s.branches[b].status = .fault) : disableBranch b s =
    modifyBranch b (fun x => { x with status := .off, quarantineTimer := none }) (stopReceive b s) := by
  unfold disableBranch
  rw [h]

theorem disableBranch_off {b : Branch} {s : State} (h : s.branches[b].status = .off) : disableBranch b s = s := by
  unfold disableBranch
  rw [h]

theorem out_of_service {b : Branch} {s : State} (h : inService s b = false) :
    s.branches[b].status = .off ∨ s.branches[b].status = .fault := by
  by_contra hn
  rw [not_or] at hn
  rw [inService_iff.mpr hn] at h
  cases h

theorem stopReceive_branch (b : Branch) (s : State) : (stopReceive b s).branches[b] = { s.branches[b] with
    port := { s.branches[b].port with
      tx := .quiet, rx := .hunt, lineRest := 0, charInProgress := false, inBreak := false, synchronised := false } } :=
  modifyPort_branch_same ..

theorem disabling_branch (b : Branch) (s : State) : (disabling b s).branches[b] = { s.branches[b] with
    port := { s.branches[b].port with
      tx := .quiet, rx := .hunt, lineRest := 0, charInProgress := false, inBreak := false, synchronised := false }
    windowTimer := none } := by
  show (modifyBranch b _ (stopReceive b s)).branches[b] = _
  rw [modifyBranch_same, stopReceive_branch]

/-- What DISABLE leaves of a branch whatever its state (R92, R95). -/
theorem disableBranch_disabled {b : Branch} {s : State} (h : BranchesAgree s) : let y := (disableBranch b s).branches[b]
    let x := s.branches[b]
    y.status = .off ∧ y.contentionRun = x.contentionRun ∧ y.lastServed = x.lastServed ∧
      y.port.rate = x.pendingRate.getD x.port.rate ∧ y.port.counters = x.port.counters := by
  dsimp only
  cases hservice : inService s b with
  | true =>
    rw [disableBranch_branch hservice]
    let x : BranchState := { s.branches[b] with
      port := { s.branches[b].port with
        tx := .quiet, rx := .hunt, lineRest := 0, charInProgress := false, inBreak := false, synchronised := false }
      windowTimer := none }
    have hkept := x.rated_kept
    have hport := BranchState.rated_port_of_hunt (x := x) rfl
    refine ⟨rfl, (congrArg BranchState.contentionRun hkept).trans rfl,
      (congrArg BranchState.lastServed hkept).trans rfl, ?_, ?_⟩
    · refine (congrArg PortState.rate hport).trans ?_
      unfold underRate
      show (match s.branches[b].pendingRate with | none => _ | some code => _ : PortState).rate = _
      cases s.branches[b].pendingRate <;> rfl
    · refine (congrArg PortState.counters hport).trans ?_
      unfold underRate
      show (match s.branches[b].pendingRate with | none => _ | some code => _ : PortState).counters = _
      cases s.branches[b].pendingRate <;> rfl
  | false =>
    have hout := out_of_service hservice
    obtain ⟨-, -, -, hrate⟩ := agrees_out_of_service (h b) hout
    rw [hrate]
    rcases hout with hoff | hfault
    · rw [disableBranch_off hoff]
      exact ⟨hoff, rfl, rfl, rfl, rfl⟩
    · rw [disableBranch_fault hfault, modifyBranch_same, stopReceive_branch]
      exact ⟨rfl, rfl, rfl, rfl, rfl⟩

theorem stopReceive_sameBut (b : Branch) (s : State) : SameBut [.branch b] s (stopReceive b s) :=
  modifyPort_sameBut (.branch b) _ s

theorem disabling_sameBut (b : Branch) (s : State) : SameBut [.branch b, .buffers] s (disabling b s) :=
  (((stopReceive_sameBut b s).mono (by simp)).trans ((modifyBranch_sameBut b _ _).mono (by simp))).trans
    ((returnBuffer_sameBut _ _).mono (by simp))

theorem disableBranch_sameBut (b : Branch) (s : State) : SameBut exchangeParts s (disableBranch b s) := by
  have hstop : SameBut exchangeParts s (stopReceive b s) :=
    (stopReceive_sameBut b s).mono (by simp [exchangeParts, mem_branchParts])
  have hbranch : ∀ (f : BranchState → BranchState) (u : State), SameBut exchangeParts u (modifyBranch b f u) :=
    fun f u =>
    (modifyBranch_sameBut b f u).mono (by simp [exchangeParts, mem_branchParts])
  cases hservice : inService s b with
  | true =>
    rw [disableBranch_inService hservice]
    have hdisabling : SameBut exchangeParts s (disabling b s) :=
      (disabling_sameBut b s).mono (by simp [exchangeParts, mem_branchParts])
    exact (hdisabling.trans (leaveService_kept b _).sameBut).trans (hbranch _ _)
  | false =>
    rcases out_of_service hservice with hoff | hfault
    · rw [disableBranch_off hoff]
      exact .refl _ s
    · rw [disableBranch_fault hfault]
      exact hstop.trans (hbranch _ _)

theorem heldFrame_disableBranch {h : Holder} (hh : apartFromRecords h) {b : Branch}
    (hb : h ≠ .branchAnswer b) (s : State) :
    heldFrame h (disableBranch b s) = heldFrame h s := by
  cases hservice : inService s b with
  | true =>
    rw [disableBranch_inService hservice]
    rw [heldFrame_of_buffers (setStatus_same b .off _).1, heldFrame_leaveService hh b]
    exact heldFrame_returnBuffer_other hh.1 hb _
  | false =>
    rcases out_of_service hservice with hoff | hfault
    · rw [disableBranch_off hoff]
    · rw [disableBranch_fault hfault]
      rfl

/-- A part out of which a branch in service is taken has no answer buffer for it and no DUE slot of it (R92, R144). -/
theorem disableBranch_left {b : Branch} {s : State} (h : inService s b = true) :
    heldFrame (.branchAnswer b) (disableBranch b s) = none ∧ ∀ k, slotDueOn (disableBranch b s) b k = false := by
  rw [disableBranch_inService h]
  have hapart : apartFromRecords (.branchAnswer b) := ⟨nofun, nofun, nofun, nofun⟩
  obtain ⟨hbuffers, -, hslots⟩ := setStatus_same b .off (leaveService b (disabling b s))
  refine ⟨?_, fun k => ?_⟩
  · rw [heldFrame_of_buffers hbuffers, heldFrame_leaveService hapart b]
    exact heldFrame_returnBuffer_same (h := .branchAnswer b) nofun _
  · have hdue := (leaveService_leftAfter b (disabling b s)).no_due k
    unfold slotDueOn at hdue ⊢
    rw [hslots]
    exact hdue

theorem answerFail_disableBranch (b : Branch) (s : State) :
    flagSet .answerFail (disableBranch b s) = flagSet .answerFail s := by
  cases hservice : inService s b with
  | true =>
    rw [disableBranch_inService hservice, flagSet_congr (setStatus_same b .off _).2.1, answerFail_leaveService]
    rfl
  | false =>
    rcases out_of_service hservice with hoff | hfault
    · rw [disableBranch_off hoff]
    · rw [disableBranch_fault hfault]
      rfl

/-! ### ENABLE -/

theorem enterIdle_of_no_rate {b : Branch} {s : State} (h : s.branches[b].pendingRate = none) :
    enterIdle b s = setStatus b .idle s := by
  unfold enterIdle applyPendingRate
  rw [h]

/-- ENABLE of a branch out of service (R93, R95). -/
theorem enableBranch_enabled {b : Branch} {s : State} (hs : BranchesAgree s) (h : inService s b = false) :
    SameBut [.branch b] s (enableBranch b s) ∧
      let y := (enableBranch b s).branches[b]
      let x := s.branches[b]
      y.status = .idle ∧ y.contentionRun = 0 ∧ y.quarantineTimer = none ∧ y.lastServed = x.lastServed ∧
        y.counters = x.counters ∧ y.port.rate = x.port.rate ∧
        y.port.synchronised = (x.status == .fault && x.port.synchronised) := by
  have hout := out_of_service h
  obtain ⟨-, -, -, hrate⟩ := agrees_out_of_service (hs b) hout
  rcases hout with hoff | hfault
  · have hquarantine : s.branches[b].quarantineTimer = none := by
      obtain ⟨-, -, -, -, hq, -⟩ := branchAgrees_iff.mp (hs b)
      exact hq.resolve_right (by rw [hoff]; exact nofun)
    let v := modifyBranch b (fun x => { x with contentionRun := 0 }) (stopReceive b s)
    have hv : v.branches[b] = { s.branches[b] with
        port := { s.branches[b].port with
          tx := .quiet, rx := .hunt, lineRest := 0, charInProgress := false, inBreak := false, synchronised := false }
        contentionRun := 0 } := by
      show (modifyBranch b _ (stopReceive b s)).branches[b] = _
      rw [modifyBranch_same, stopReceive_branch]
    have hsame : SameBut [.branch b] s v := (stopReceive_sameBut b s).trans (modifyBranch_sameBut b _ _)
    have heq : enableBranch b s = enterIdle b v := by
      unfold enableBranch
      rw [hoff]
    rw [heq, enterIdle_of_no_rate (by rw [hv]; exact hrate)]
    generalize v = v at *
    refine ⟨hsame.trans (modifyBranch_sameBut b _ _), ?_⟩
    unfold setStatus
    dsimp only
    rw [modifyBranch_same, hv, hoff]
    exact ⟨rfl, rfl, hquarantine, rfl, rfl, rfl, rfl⟩
  · let v := modifyBranch b (fun x => { x with contentionRun := 0, quarantineTimer := none }) s
    have hv : v.branches[b] = { s.branches[b] with contentionRun := 0, quarantineTimer := none } := modifyBranch_same ..
    have hsame : SameBut [.branch b] s v := modifyBranch_sameBut b _ s
    have heq : enableBranch b s = enterIdle b v := by
      unfold enableBranch
      rw [hfault]
    rw [heq, enterIdle_of_no_rate (by rw [hv]; exact hrate)]
    generalize v = v at *
    refine ⟨hsame.trans (modifyBranch_sameBut b _ _), ?_⟩
    unfold setStatus
    dsimp only
    rw [modifyBranch_same, hv, hfault]
    exact ⟨rfl, rfl, rfl, rfl, rfl, rfl, rfl⟩

theorem enableBranch_inService {b : Branch} {s : State} (h : inService s b = true) : enableBranch b s = s := by
  obtain ⟨hoff, hfault⟩ := inService_iff.mp h
  unfold enableBranch
  cases hst : s.branches[b].status with
  | off => exact absurd hst hoff
  | fault => exact absurd hst hfault
  | idle | lead | send | await | recv => rfl

end Sys2Proof.Machine
end

section
/-! BRANCH_CONTROL (sections 4.5, 9.8). -/

namespace Sys2Proof.Machine

-- The gate's memory limit counts every thread's arena, so the declarations are elaborated one after another.
set_option Elab.async false

/-- A flag that no reception sets (section 8.1). -/
theorem flagSet_reception {f : Flag} (hl : f ≠ .lineError) (hb : f ≠ .bufLow) {s t : State}
    (h : t.flags ||| receiptFlags = s.flags ||| receiptFlags) : flagSet f t = flagSet f s := by
  have hmask : receiptFlags.getLsbD (flagBit f) = false := by
    unfold receiptFlags
    rw [BitVec.getLsbD_or, flagMask_flagBit, flagMask_flagBit, beq_false_of_ne (Ne.symm hb),
      beq_false_of_ne (Ne.symm hl)]
    rfl
  have hbit := congrArg (BitVec.getLsbD · (flagBit f)) h
  rw [BitVec.getLsbD_or, BitVec.getLsbD_or, hmask, Bool.or_false, Bool.or_false] at hbit
  exact hbit

theorem received_flagSet {s u : State} (h : Received s u) {f : Flag} (hl : f ≠ .lineError) (hb : f ≠ .bufLow) :
    flagSet f u = flagSet f s := flagSet_reception hl hb h.flags

theorem branchAnswer_mem (b : Branch) : Holder.branchAnswer b ∈ exchangeHolders := by
  unfold exchangeHolders
  simp

theorem request_mem (i : RecordIndex) : Holder.request i ∈ exchangeHolders := by
  unfold exchangeHolders
  simp

theorem answer_mem (i : RecordIndex) : Holder.answer i ∈ exchangeHolders := by
  unfold exchangeHolders
  simp

theorem received_inService {s u : State} (h : Received s u) (b : Branch) : inService u b = inService s b := by
  refine Eq.trans ?_ (superseded_inService s b)
  unfold inService
  rw [h.branches]

theorem received_agrees {s u : State} (h : Received s u) (hs : BranchesAgree s) : BranchesAgree u := by
  intro b
  rw [h.branches]
  exact branchesAgree_of_queuesOnly (superseded_branch s) hs b

theorem WorkSettled.congr {b : Branch} {last : RecordIndex → Record} {o : RecordIndex → ExchangeOutcome} {s v t : State}
    (h : WorkSettled b last o s v) (hrecords : t.records = v.records) (hlist : t.completions = v.completions)
    (hflags : t.flags = v.flags) (hframes : ∀ i, heldFrame (.request i) t = heldFrame (.request i) v)
    (hslots : t.slots = v.slots) : WorkSettled b last o s t := by
  obtain ⟨h1, h2, h3, h4, h5⟩ := h
  refine ⟨fun i => by rw [hrecords]; exact h1 i, by rw [hlist]; exact h2, by rw [flagSet_congr hflags]; exact h3,
    fun i hi hg => ?_, fun k => by rw [hslots]; exact h5 k⟩
  rw [hframes]
  exact h4 i hi (by rw [← hrecords]; exact hg)

/-- The work that DISABLE settles, found by a command of the trunk (R63, R92). -/
theorem received_disabled {s u : State} (hu : Received s u) {b : Branch} (hservice : inService u b = true)
    (hagrees : TableAgrees s) :
    WorkSettled b (fun i => (superseded s).records[i]) (fun _ => .branchOff) (superseded s) (disableBranch b u) ∧
      ∀ i, heldFrame (.answer i) (disableBranch b u) =
        heldFrame (.answer i) (superseded s) := by
  obtain ⟨hfit, hun⟩ := workFit_superseded (b := b) hagrees
  have hsame := disabling_sameBut b u
  have hbranch : (disabling b u).branches[b].onLine = (superseded s).branches[b].onLine ∧
      (disabling b u).branches[b].queue = (superseded s).branches[b].queue := by
    rw [disabling_branch, hu.branches]
    exact ⟨rfl, rfl⟩
  have hrecords : (disabling b u).records = (superseded s).records :=
    (hsame.2 .records (by decide) (by simp)).trans hu.records
  have hframes : ∀ i, heldFrame (.answer i) (disabling b u) =
      heldFrame (.answer i) (superseded s) := fun i => by
    refine Eq.trans (heldFrame_returnBuffer_other (h := .branchAnswer b) (g := .answer i) nofun nofun _) ?_
    exact hu.heldFrame nofun nofun
  have hslots : (disabling b u).slots = (superseded s).slots := (hsame.2 .slots (by decide) (by simp)).trans hu.slots
  have hparams : (disabling b u).params = (superseded s).params :=
    (hsame.2 .params (by decide) (by simp)).trans hu.params
  have hlist : (disabling b u).completions = (superseded s).completions :=
    (hsame.2 .completions (by decide) (by simp)).trans hu.completions
  have hflag : flagSet .completion (disabling b u) =
      flagSet .completion (superseded s) := by
    rw [flagSet_congr (superseded_kept s).1]
    exact received_flagSet hu nofun nofun
  have hleft := disableBranch_inService hservice
  rw [hleft]
  generalize disabling b u = v at *
  have hwork : workOf v b = workOf (superseded s) b := by
    unfold workOf
    rw [hbranch.1, hbranch.2]
  obtain ⟨w, hw, hleave⟩ := leaveService_settled (b := b) (v := v)
    { nodup := by rw [hwork]; exact hfit.nodup
      exchange := by rw [hwork, hrecords]; exact hfit.exchange
      polls := by rw [hbranch.2, hrecords]; exact hfit.polls }
  rw [hwork] at hw
  have hsettled : WorkSettled b (fun i => (superseded s).records[i]) (fun _ => .branchOff) (superseded s)
      (leaveService b v) :=
    workSettled_of hfit hun hw (fun i _ => congrArg (·[i]) hrecords)
      (fun i _ => by rw [hrecords]; exact ⟨rfl, rfl, rfl, rfl⟩) hlist hflag hslots hparams hleave.records
      hleave.completions
      hleave.buffers (hleave.flags .completion nofun nofun) hleave.slots
  have hanswers : ∀ i, heldFrame (.answer i) (leaveService b v) = heldFrame (.answer i) (superseded s) := fun i => by
    rw [heldFrame_of_buffers hleave.buffers, hw.answer i fun hi => ?_, hframes]
    rw [hframes]
    exact superseded_answer_none (hagrees.no_record_answer (superseded_work hagrees hi).1)
  generalize leaveService b v = t at *
  obtain ⟨hbuffers, hflags, hslots'⟩ := setStatus_same b .off t
  exact ⟨hsettled.congr rfl rfl hflags (fun i => heldFrame_of_buffers hbuffers _) hslots',
    fun i => (heldFrame_of_buffers hbuffers _).trans (hanswers i)⟩

theorem branchItems_length (b : Branch) (s : State) : (branchItems b s).length ≤ 56 := by
  unfold branchItems
  simp

/-- The result bytes of BRANCH_CONTROL, read on a part with its response (section 10.5). -/
def controlItems (branch : Byte) (b : Branch) (t : State) : List Byte :=
  [branch, statusByte t.branches[b].status, (if t.branches[b].stalled then 0x01#8 else 0x00#8),
   BitVec.ofNat 8 t.branches[b].contentionRun, BitVec.ofNat 8 t.branches[b].queue.length,
   BitVec.ofNat 8 (deferredCount t b), (t.branches[b].onLine.map fun i => BitVec.ofNat 8 i.val).getD 0xFF#8]

theorem branchItems_eq {branch : Byte} {b : Branch} (hb : b.val = branch.toNat) {t v : State}
    (hbranches : t.branches = v.branches) (hrecords : t.records = v.records) :
    branchItems b v = controlItems branch b t := by
  unfold branchItems controlItems deferredCount branchCode
  rw [hbranches, hrecords, byteOfNat_of_toNat hb]
  rfl

/-- The answer of BRANCH_CONTROL on the part `v` that its action leaves (R91, R175). -/
theorem received_control {s u v : State} (hu : Received s u) {branch : Byte} {b : Branch} (hb : b.val = branch.toNat)
    (seq : Byte) (hparams : v.params = u.params) (hheld : heldFrame .trunkAssembly v = heldFrame .trunkAssembly u) :
    let t := buildResponse 0x28#8 seq (okay (branchItems b v) v)
    Answered s 0x28#8 seq .ok (controlItems branch b t) t := by
  have hitems := branchItems_eq hb (buildResponse_branches 0x28#8 seq (okay (branchItems b v) v))
    (buildResponse_records 0x28#8 seq (okay (branchItems b v) v))
  have hanswered := hu.answered 0x28#8 seq .ok (branchItems_length b v) (congrArg GlobalParams.mgmtAddress hparams)
    (by rw [hheld]; exact hu.assembly)
  dsimp only
  rw [← hitems]
  exact hanswered

/-- BRANCH_CONTROL is executed on the part that its frame finds (R91, R160). -/
theorem branchControl_received {i : Instr} {seq branch action : Byte} {s : State}
    (hd : Laws.commandData i = some [0x28#8, seq, branch, action]) (hi : ∀ a data, i ≠ .trunkGoodFrame a data)
    (hs : commandReady 0x28#8 seq s = true) : ∃ u, Received s u ∧
      exec i s = .next (buildResponse 0x28#8 seq (cmdBranchControl branch action u)) :=
  row_received (c := .branchControl) (args := [branch, action]) hd hi hs (by simp)

theorem cmdBranchControl_none {branch : Byte} (h : 4 ≤ branch.toNat) (action : Byte) (u : State) :
    cmdBranchControl branch action u = refuse .badArgument u := by
  unfold cmdBranchControl
  rw [branchOf_eq_none.mpr h]

theorem cmdBranchControl_some {branch : Byte} {b : Branch} (h : b.val = branch.toNat) (u : State) :
    cmdBranchControl branch 0x00#8 u = okay (branchItems b u) u ∧
      cmdBranchControl branch 0x01#8 u = okay (branchItems b (enableBranch b u)) (enableBranch b u) ∧
      cmdBranchControl branch 0x02#8 u = okay (branchItems b (disableBranch b u)) (disableBranch b u) := by
  unfold cmdBranchControl
  rw [branchOf_eq_some.mpr h]
  exact ⟨rfl, rfl, rfl⟩

/-- Settles O46: QUERY reads, DISABLE settles the branch's work and silences it, ENABLE returns it to IDLE. -/
theorem branchControlActs : Obligations.BranchControlActs := by
  intro seq branch s hs hagrees
  obtain ⟨u, hu, hquery⟩ := branchControl_received (i := .branchControlQuery seq branch) rfl (by simp) hs
  obtain ⟨v, hv, hdisable⟩ := branchControl_received (i := .branchControlDisable seq branch) rfl (by simp) hs
  obtain ⟨w, hw, henable⟩ := branchControl_received (i := .branchControlEnable seq branch) rfl (by simp) hs
  refine ⟨fun hnone => ?_, fun b hb => ⟨?_, ?_, ?_⟩⟩
  · rw [cmdBranchControl_none hnone] at hquery hdisable henable
    exact ⟨⟨_, hquery, hu.answeredOnly 0x28#8 seq .badArgument (by simp)⟩,
      ⟨_, hdisable, hv.answeredOnly 0x28#8 seq .badArgument (by simp)⟩,
      ⟨_, henable, hw.answeredOnly 0x28#8 seq .badArgument (by simp)⟩⟩
  · rw [(cmdBranchControl_some hb u).1] at hquery
    refine ⟨_, hquery, ?_⟩
    exact ⟨received_control hu hb seq rfl rfl, (hu.answeredOnly 0x28#8 seq .ok (branchItems_length b u)).2⟩
  · rw [(cmdBranchControl_some hb v).2.2] at hdisable
    refine ⟨_, hdisable, ?_⟩
    have hagreesV := received_agrees hv hagrees
    have hservice : inService v b = inService s b := received_inService hv b
    have hkept := disableBranch_sameBut b v
    have hassembly : heldFrame .trunkAssembly (disableBranch b v) = heldFrame .trunkAssembly v :=
      heldFrame_disableBranch (h := .trunkAssembly) ⟨nofun, nofun, fun _ => nofun, fun _ => nofun⟩ nofun v
    have hanswered := received_control hv hb seq (hkept.2 .params (by decide) (by decide)) hassembly
    have hparts := buildResponse_sameBut 0x28#8 seq (okay (branchItems b (disableBranch b v)) (disableBranch b v))
    have hbranches : (buildResponse 0x28#8 seq
        (okay (branchItems b (disableBranch b v)) (disableBranch b v))).branches =
        (disableBranch b v).branches := buildResponse_branches ..
    have hframes : ∀ h ∈ exchangeHolders,
        heldFrame h (buildResponse 0x28#8 seq (okay (branchItems b (disableBranch b v)) (disableBranch b v))) =
          heldFrame h (disableBranch b v) := fun h hh => by
      obtain ⟨hf, ht⟩ := exchangeHolders_ne hh
      exact heldFrame_buildResponse_other hf ht (by rintro rfl; exact absurd hh (by decide)) 0x28#8 seq _
    dsimp only at hanswered
    generalize buildResponse 0x28#8 seq (okay (branchItems b (disableBranch b v)) (disableBranch b v)) = t at *
    have hrecords : t.records = (disableBranch b v).records := hparts.2 .records (by decide) (by decide)
    have hlist : t.completions = (disableBranch b v).completions := hparts.2 .completions (by decide) (by decide)
    have hslots : t.slots = (disableBranch b v).slots := hparts.2 .slots (by decide) (by decide)
    have hflags : t.flags = (disableBranch b v).flags := hparts.2 .flags (by decide) (by decide)
    obtain ⟨hoff, hrun, hmarker, hrate, hcounters⟩ := disableBranch_disabled (b := b) hagreesV
    rw [hv.branches] at hrun hmarker hrate hcounters
    obtain ⟨-, -, hon, hwindow, hquarantine, hpending, -, -, hsilent⟩ :=
      branchAgrees_iff.mp (disableBranch_agrees b hagreesV b)
    rw [hoff] at hon hwindow hquarantine hpending hsilent
    rw [hbranches]
    refine ⟨hanswered, hoff, ?_, ?_, ?_, ?_, ?_, hrun, hmarker, hrate, hcounters, fun hin => ?_,
      fun hin htable howed => ?_,
      fun hout => ?_, fun d hd => ?_⟩
    · exact hsilent rfl
    · exact hwindow.resolve_right nofun
    · exact hquarantine.resolve_right nofun
    · rw [← Option.not_isSome_iff_eq_none, hon]
      exact nofun
    · exact hpending.resolve_right nofun
    · have hserviceV : inService v b = true := hservice.trans hin
      obtain ⟨hanswer, hdue⟩ := disableBranch_left hserviceV
      rw [hframes _ (branchAnswer_mem b), disableBranch_branch hserviceV]
      refine ⟨rfl, rfl, hanswer, fun k => ?_⟩
      unfold slotDueOn at hdue ⊢
      rw [hslots]
      exact hdue k
    · obtain ⟨hsettled, hanswers⟩ := received_disabled hv (hservice.trans hin) htable
      refine ⟨hsettled.congr hrecords hlist hflags (fun i => hframes _ (request_mem i)) hslots, fun i => ?_, ?_⟩
      · rw [hframes _ (answer_mem i)]
        exact hanswers i
      · rw [flagSet_congr hflags, answerFail_disableBranch]
        exact received_flagSet hv nofun nofun
    · have hsame : (disableBranch b v).records = v.records ∧ (disableBranch b v).slots = v.slots ∧
          (disableBranch b v).completions = v.completions := by
        rcases out_of_service (hservice.trans hout) with h | h
        · rw [disableBranch_off h]
          exact ⟨rfl, rfl, rfl⟩
        · rw [disableBranch_fault h]
          exact ⟨rfl, rfl, rfl⟩
      obtain ⟨h1, h2, h3⟩ := hsame
      rw [hrecords, hslots, hlist, h1, h2, h3]
      exact ⟨hv.records, hv.slots.trans (superseded_slots s), hv.completions⟩
    · have hother := disableBranch_branch_other hd v
      rwa [hv.branches] at hother
  · rw [(cmdBranchControl_some hb w).2.1] at henable
    refine ⟨_, henable, ?_⟩
    cases hservice : inService s b with
    | true =>
      rw [enableBranch_inService ((received_inService hw b).trans hservice)]
      exact ⟨received_control hw hb seq rfl rfl,
        fun _ => (hw.answeredOnly 0x28#8 seq .ok (branchItems_length b w)).2, nofun⟩
    | false =>
      obtain ⟨hsame, hidle, hrun, htimer, hmarker, hcounters, hrate, hsync⟩ :=
        enableBranch_enabled (received_agrees hw hagrees) ((received_inService hw b).trans hservice)
      rw [hw.branches] at hmarker hcounters hrate hsync
      have hanswered := received_control hw hb seq (hsame.2 .params (by decide) (by simp))
        (heldFrame_of_buffers (hsame.2 .buffers (by decide) (by simp)) _)
      have hkept := (hw.effect hsame (by simp) (by simp) 0x28#8 seq .ok (branchItems_length b (enableBranch b w))).2
      have hbranches : (buildResponse 0x28#8 seq
          (okay (branchItems b (enableBranch b w)) (enableBranch b w))).branches =
          (enableBranch b w).branches := buildResponse_branches ..
      refine ⟨hanswered, nofun, fun _ => ?_⟩
      rw [hbranches]
      exact ⟨hidle, hrun, htimer, hmarker, hcounters, hrate, hsync, hkept⟩

end Sys2Proof.Machine
end

section
/-!
What an arbitration leaves alone: the other branches, every record that neither waits in its queue nor is FREE, and
every slot that is not DUE (section 4.2).
-/

namespace Sys2Proof.Machine

-- The gate's memory limit counts every thread's arena, so the declarations are elaborated one after another.
set_option Elab.async false

/-- What an arbitration of branch `b` can change (R78 to R81). -/
structure Arbitrated (b : Branch) (s t : State) : Prop where
  waits : s.branches[b].status ≠ .idle → t = s
  others : ∀ d ≠ b, t.branches[d] = s.branches[d]
  status : s.branches[b].status = .idle → t.branches[b].status = .idle ∨ t.branches[b].status = .lead
  queue : ∀ i ∈ t.branches[b].queue, i ∈ s.branches[b].queue
  assigned : ∀ i, t.branches[b].onLine = some i →
    s.branches[b].onLine = some i ∨ i ∈ s.branches[b].queue ∨ s.records[i].state = .free
  record : ∀ i : RecordIndex, i ∉ s.branches[b].queue → s.records[i].state ≠ .free → t.records[i] = s.records[i]
  slot : ∀ i : RecordIndex, s.records[i].state ≠ .free → t.records[i].slot = s.records[i].slot ∧
    t.records[i].state ≠ .free
  slots : ∀ k : SlotIndex, t.slots[k] = s.slots[k] ∨
    (s.slots[k].state = .due ∧ t.slots[k] = { s.slots[k] with state := .onLine })
  kept : SameBut exchangeParts s t

theorem SameBut.branch_eq {e : List Part} {s t : State} (h : SameBut e s t) {d : Branch} (hd : .branch d ∉ e) :
    t.branches[d] = s.branches[d] := h.2 (.branch d) (by fin_cases d <;> decide) hd

theorem SameBut.slots_eq {e : List Part} {s t : State} (h : SameBut e s t) (hd : .slots ∉ e) : t.slots = s.slots :=
  h.2 .slots (by decide) hd

theorem SameBut.records_eq {e : List Part} {s t : State} (h : SameBut e s t) (hd : .records ∉ e) :
    t.records = s.records := h.2 .records (by decide) hd

theorem branch_mem_branchParts (b : Branch) : .branch b ∈ branchParts := by fin_cases b <;> decide

theorem branch_mem_exchangeParts (b : Branch) : .branch b ∈ exchangeParts :=
  List.mem_append_right _ (branch_mem_branchParts b)

/-- An arbitration that grants nothing (R80). -/
theorem arbitrated_modifyBranch {b : Branch} {f : BranchState → BranchState} {s : State}
    (hidle : s.branches[b].status = .idle) (hstatus : (f s.branches[b]).status = s.branches[b].status)
    (hqueue : (f s.branches[b]).queue = s.branches[b].queue)
    (honLine : (f s.branches[b]).onLine = s.branches[b].onLine) :
    Arbitrated b s (modifyBranch b f s) := by
  have hb := modifyBranch_same b f s
  exact
    { waits := fun h => absurd hidle h
      others := fun d hd => modifyBranch_other hd f s
      status := fun _ => .inl (by rw [hb, hstatus, hidle])
      queue := fun i hi => by rwa [hb, hqueue] at hi
      assigned := fun i hi => .inl (by rwa [hb, honLine] at hi)
      record := fun _ _ _ => rfl
      slot := fun _ h => ⟨rfl, h⟩
      slots := fun _ => .inl rfl
      kept := (modifyBranch_sameBut b f s).mono (by simpa using branch_mem_exchangeParts b) }

/-- A grant of a queued record (R81). -/
theorem arbitrated_queued {b : Branch} {i : RecordIndex} {x : BranchState} {s t : State}
    (hidle : s.branches[b].status = .idle) (hmem : i ∈ s.branches[b].queue) (hb : t.branches[b] = x)
    (hstatus : x.status = .lead) (honLine : x.onLine = some i)
    (hqueue : x.queue = s.branches[b].queue.filter fun j => j != i)
    (hslot : t.records[i].slot = s.records[i].slot)
    (hstate : s.records[i].state ≠ .free → t.records[i].state ≠ .free)
    (hother : ∀ k ≠ i, t.records[k] = s.records[k]) (hsame : SameBut [.branch b, .records, .buffers, .flags] s t) :
    Arbitrated b s t where
  waits h := absurd hidle h
  others d hd := hsame.branch_eq (by simpa using hd)
  status _ := .inr (by rw [hb, hstatus])
  queue j hj := by
    rw [hb, hqueue] at hj
    exact List.mem_of_mem_filter hj
  assigned j hj := by
    rw [hb, honLine] at hj
    obtain rfl := Option.some.inj hj
    exact .inr (.inl hmem)
  record j hj _ := hother j fun h => hj (h ▸ hmem)
  slot j hj := by
    by_cases h : j = i
    · subst h
      exact ⟨hslot, hstate hj⟩
    · rw [hother j h]
      exact ⟨rfl, hj⟩
  slots k := .inl (by rw [hsame.slots_eq (by simp)])
  kept := hsame.mono (by
    intro p hp
    simp only [List.mem_cons, List.not_mem_nil, or_false] at hp
    rcases hp with rfl | rfl | rfl | rfl
    · exact branch_mem_exchangeParts b
    all_goals decide)

/-- The marker is no part of what an arbitration is asked for (R79). -/
theorem Arbitrated.setServed {b : Branch} {s t : State} (h : Arbitrated b s t) (hidle : s.branches[b].status = .idle)
    (m : Served) : Arbitrated b s (setServed b m t) := by
  have hb := setServed_branch b m t
  have hsame := setServed_sameBut b m t
  have hrecords := hsame.records_eq (by simp)
  have hslots := hsame.slots_eq (by simp)
  exact
    { waits := fun h => absurd hidle h
      others := fun d hd => (hsame.branch_eq (by simpa using hd)).trans (h.others d hd)
      status := fun hi => by rw [hb]; exact h.status hi
      queue := fun i hi => h.queue i (by rwa [hb] at hi)
      assigned := fun i hi => h.assigned i (by rwa [hb] at hi)
      record := fun i => by rw [hrecords]; exact h.record i
      slot := fun i => by rw [hrecords]; exact h.slot i
      slots := fun k => by rw [hslots]; exact h.slots k
      kept := h.kept.trans (hsame.mono (by simpa using branch_mem_exchangeParts b)) }

theorem arbitrated_grantRecord {b : Branch} {i : RecordIndex} {s : State} (hidle : s.branches[b].status = .idle)
    (hmem : i ∈ s.branches[b].queue) (hgate : gateOpen s = true) : Arbitrated b s (grantRecord b i s) := by
  obtain ⟨hb, hrecord, hother, -, -, hsame⟩ := grantRecord_granted b i (freeCount_pos_of_gateOpen hgate)
  exact arbitrated_queued hidle hmem hb rfl rfl rfl (by rw [hrecord]) (fun _ => by rw [hrecord]; nofun) hother hsame

theorem arbitrated_grantGroup {b : Branch} {i : RecordIndex} {s : State} (hidle : s.branches[b].status = .idle)
    (hmem : i ∈ s.branches[b].queue) : Arbitrated b s (grantGroup b i s) := by
  obtain ⟨hb, hrecord, hother, hsame⟩ := grantGroup_granted b i s
  exact arbitrated_queued hidle hmem hb rfl rfl rfl (by rw [hrecord]) (fun h => by rw [hrecord]; exact h) hother
    (hsame.mono (by simp))

theorem lowestFreeRecord_state {s : State} {i : RecordIndex} (h : lowestFreeRecord s = some i) :
    s.records[i].state = .free := by
  simpa using List.find?_some h

theorem lowestDueSlot_state {s : State} {b : Branch} {k : SlotIndex} (h : lowestDueSlot s b = some k) :
    s.slots[k].state = .due := by
  have := List.find?_some h
  unfold slotDueOn at this
  simp only [Bool.and_eq_true, beq_iff_eq] at this
  exact this.1

theorem arbitrated_grantSlot {b : Branch} {k : SlotIndex} {s : State} (hidle : s.branches[b].status = .idle)
    (hk : lowestDueSlot s b = some k) (hgate : gateOpen s = true) (hfree : 2 ≤ freeRecords s) :
    Arbitrated b s (grantSlot b k s) := by
  obtain ⟨i, hi⟩ := lowestFreeRecord_of_freeRecords (s := s) (by omega)
  obtain ⟨c, hc⟩ := config_of_lowestDueSlot hk
  obtain ⟨hb, -, hother, hslot, hslots, -, -, hsame⟩ :=
    grantSlot_granted (b := b) (freeCount_pos_of_gateOpen hgate) hi hc
  have hstate := lowestFreeRecord_state hi
  have hne : ∀ j : RecordIndex, s.records[j].state ≠ .free → j ≠ i := fun j hj h => hj (h ▸ hstate)
  exact
    { waits := fun h => absurd hidle h
      others := fun d hd => hsame.branch_eq (by simpa using hd)
      status := fun _ => .inr (by rw [hb]; rfl)
      queue := fun j hj => by rwa [hb] at hj
      assigned := fun j hj => by
        rw [hb] at hj
        obtain rfl : i = j := Option.some.inj hj
        exact .inr (.inr hstate)
      record := fun j _ hj => hother j (hne j hj)
      slot := fun j hj => by
        rw [hother j (hne j hj)]
        exact ⟨rfl, hj⟩
      slots := fun j => by
        by_cases hj : j = k
        · subst hj
          exact .inr ⟨lowestDueSlot_state hk, hslot⟩
        · exact .inl (hslots j hj)
      kept := hsame.mono (by
        intro p hp
        simp only [List.mem_cons, List.not_mem_nil, or_false] at hp
        rcases hp with rfl | rfl | rfl | rfl | rfl
        · exact branch_mem_exchangeParts b
        all_goals decide) }

/-- Every grant that the arbiter chooses (R79). -/
theorem arbitrated_chooseGrant {b : Branch} {s t : State} (hidle : s.branches[b].status = .idle)
    (h : chooseGrant b s = some t) : Arbitrated b s t := by
  rcases chooseGrant_cases h with h | h | h
  · unfold tryTransparent at h
    split at h
    · cases h
    · rename_i i hi
      split at h
      · rename_i hgate
        obtain rfl := Option.some.inj h
        exact arbitrated_grantRecord hidle (List.mem_of_find?_eq_some hi) hgate
      · cases h
  · unfold tryQueueClass at h
    split at h
    · cases h
    · rename_i i hi
      have hmem := List.mem_of_find?_eq_some hi
      split at h
      · obtain rfl := Option.some.inj h
        exact (arbitrated_grantGroup hidle hmem).setServed hidle .queue
      · split at h
        · rename_i hgate
          obtain rfl := Option.some.inj h
          exact (arbitrated_grantRecord hidle hmem hgate).setServed hidle .queue
        · cases h
  · unfold tryPollClass at h
    split at h
    · cases h
    · rename_i k hk
      split at h
      · rename_i hready
        obtain rfl := Option.some.inj h
        exact (arbitrated_grantSlot hidle hk hready.1 hready.2).setServed hidle .poll
      · cases h

theorem arbitrate_waits {b : Branch} {s : State} (h : s.branches[b].status ≠ .idle) : arbitrate b s = s := by
  unfold arbitrate
  exact if_neg h

theorem arbitrate_arbitrated (b : Branch) (s : State) : Arbitrated b s (arbitrate b s) := by
  by_cases hidle : s.branches[b].status = .idle
  · unfold arbitrate
    rw [if_pos hidle]
    split
    · split
      · rename_i t ht
        exact arbitrated_chooseGrant hidle ht
      · unfold stallBranch
        split
        · have hself := arbitrated_modifyBranch (f := id) hidle rfl rfl rfl
          rwa [modifyBranch_self (b := b) (f := id) (s := s) rfl] at hself
        · exact arbitrated_modifyBranch hidle rfl rfl rfl
    · exact arbitrated_modifyBranch hidle rfl rfl rfl
  · rw [arbitrate_waits hidle]
    exact
      { waits := fun _ => rfl
        others := fun _ _ => rfl
        status := fun h => absurd h hidle
        queue := fun _ h => h
        assigned := fun _ h => .inl h
        record := fun _ _ _ => rfl
        slot := fun _ h => ⟨rfl, h⟩
        slots := fun _ => .inl rfl
        kept := ⟨rfl, fun p _ _ => by cases p <;> simp [samePart]⟩ }

end Sys2Proof.Machine
end

section
/-!
What the expiry of each timer can change when the timebase finds it done (log entry 5): the timers of a branch, the HOLD
timer of a record, the countdown of a slot.
-/

namespace Sys2Proof.Machine

-- The gate's memory limit counts every thread's arena, so the declarations are elaborated one after another.
set_option Elab.async false

/-! ### The timers of a branch -/

/-- The state of a branch with its two timers and its contention run. -/
def branchTimes (x : BranchState) : BranchStatus × Option Timer × Option Timer × Nat :=
  (x.status, x.windowTimer, x.quarantineTimer, x.contentionRun)

theorem otherBranchKept.times {x y : BranchState} (h : otherBranchKept x y) : branchTimes y = branchTimes x := by
  rw [h.eq]
  rfl

theorem otherBranchKept.onLine {x y : BranchState} (h : otherBranchKept x y) : y.onLine = x.onLine := by
  rw [h.eq]

/-- The window of a branch expires in AWAIT alone, its quarantine in FAULT alone (R86, R95). -/
theorem branchExpiries_eq (s : State) (b : Branch) : branchExpiries s b =
    if s.branches[b].status = .await ∧ timerDone s.branches[b].windowTimer = true then attemptEnds b .noAnswer s
    else if s.branches[b].status = .fault ∧ timerDone s.branches[b].quarantineTimer = true then
      enterIdle b (modifyBranch b (fun x => { x with contentionRun := 0, quarantineTimer := none }) s)
    else s := by
  have hwindow : (if timerDone s.branches[b].windowTimer then windowExpire b s else s) =
      if s.branches[b].status = .await ∧ timerDone s.branches[b].windowTimer = true then attemptEnds b .noAnswer s
      else s := by
    unfold windowExpire
    split
    · rename_i hdone
      simp only [hdone, and_true]
    · rename_i hdone
      rw [if_neg fun h => hdone h.2]
  have hquarantine : ∀ u : State, (if timerDone u.branches[b].quarantineTimer then quarantineExpire b u else u) =
      if u.branches[b].status = .fault ∧ timerDone u.branches[b].quarantineTimer = true then
        enterIdle b (modifyBranch b (fun x => { x with contentionRun := 0, quarantineTimer := none }) u)
      else u := by
    intro u
    by_cases hdone : timerDone u.branches[b].quarantineTimer = true
    · have hsome : u.branches[b].quarantineTimer.isSome = true := by
        cases h : u.branches[b].quarantineTimer with
        | none =>
          rw [h] at hdone
          cases hdone
        | some _ => rfl
      unfold quarantineExpire
      rw [if_pos hdone]
      simp only [hdone, hsome]
    · rw [if_neg hdone, if_neg fun h => hdone h.2]
  unfold branchExpiries
  rw [hwindow]
  dsimp only
  rw [hquarantine]
  by_cases hexpired : s.branches[b].status = .await ∧ timerDone s.branches[b].windowTimer = true
  · obtain ⟨x, hx, -⟩ := attemptEnds_branch b .noAnswer s
    rw [if_pos hexpired, if_pos hexpired]
    refine if_neg ?_
    rw [hx]
    exact fun h => nomatch h.1
  · rw [if_neg hexpired, if_neg hexpired]

/-- What the expiry of the timers of branch `b` can change: its own assignment's record and the slot of that record. -/
structure BranchExpired (b : Branch) (s t : State) : Prop where
  others : ∀ d ≠ b, otherBranchKept s.branches[d] t.branches[d]
  onLine : ∀ i, t.branches[b].onLine = some i → s.branches[b].onLine = some i
  service : inService s b = true → inService t b = true
  record : ∀ i : RecordIndex, s.branches[b].onLine ≠ some i → t.records[i] = s.records[i]
  slot : ∀ i : RecordIndex, t.records[i].slot = s.records[i].slot ∨ t.records[i].slot = none
  slots : ∀ k : SlotIndex, t.slots[k] = s.slots[k] ∨
    ((∃ i : RecordIndex, s.branches[b].status = .await ∧ s.branches[b].onLine = some i ∧
      s.records[i].slot = some k) ∧ t.slots[k] = missedSlot s.slots[k])
  kept : SameBut exchangeParts s t

theorem settledRecord_slot (b : Branch) (o : ExchangeOutcome) (n : Nat) (r : Record) :
    (settledRecord b o n r).slot = r.slot ∨ (settledRecord b o n r).slot = none := by
  unfold settledRecord
  split
  · exact .inr rfl
  · exact .inr rfl
  · split
    · exact .inr rfl
    · exact .inl rfl
  · dsimp only
    split
    · exact .inr rfl
    · exact .inl rfl
  · exact .inl rfl

/-- A record whose outcome is fixed or that is retried on a failed attempt: it is the one that changes, and its slot's
poll has ended with a miss when it is no longer on line (R54, R61). -/
theorem settleAttempt_touches {b : Branch} {i : RecordIndex} {o : ExchangeOutcome} {v : State} (ho : o ≠ .answered) :
    let w := settleAttempt i b o v
    (∀ j ≠ i, w.records[j] = v.records[j]) ∧
      (w.records[i].slot = v.records[i].slot ∨ w.records[i].slot = none) ∧
      ∀ k : SlotIndex, w.slots[k] = v.slots[k] ∨ (v.records[i].slot = some k ∧ w.slots[k] = missedSlot v.slots[k]) := by
  dsimp only
  have hfixed : let w := fixOutcome i b o v
      (∀ j ≠ i, w.records[j] = v.records[j]) ∧
      (w.records[i].slot = v.records[i].slot ∨ w.records[i].slot = none) ∧
      ∀ k : SlotIndex, w.slots[k] = v.slots[k] ∨ (v.records[i].slot = some k ∧ w.slots[k] = missedSlot v.slots[k]) := by
    by_cases hkind : isStationKind v.records[i] = true
    · have h := recordSettled_fixOutcome (b := b) ho hkind
      refine ⟨h.others, ?_, fun k => ?_⟩
      · rw [h.record]
        exact settledRecord_slot ..
      · rw [h.slots]
        split
        · rename_i hk
          exact .inr ⟨hk.2, rfl⟩
        · exact .inl rfl
    · have hsame : fixOutcome i b o v = v := by
        have hnot : ∀ kind, v.records[i].kind = some kind → kind = .transparent ∨ kind = .deferred ∨ kind = .cyclic →
            False := fun kind hk h => hkind (by
            unfold isStationKind
            rw [hk]
            rcases h with rfl | rfl | rfl <;> rfl)
        unfold fixOutcome
        split
        · rename_i hk
          exact (hnot _ hk (.inl rfl)).elim
        · rename_i hk
          exact (hnot _ hk (.inr (.inl rfl))).elim
        · rename_i hk
          exact (hnot _ hk (.inr (.inr rfl))).elim
        · rfl
        · rfl
      rw [hsame]
      exact ⟨fun _ _ => rfl, .inl rfl, fun _ => .inl rfl⟩
  unfold settleAttempt
  dsimp only
  split
  · exact hfixed
  · refine ⟨fun j hj => modifyRecord_other i hj _ v, .inl ?_, fun _ => .inl rfl⟩
    show (updateAt v.records i _)[i].slot = _
    rw [updateAt_same]

theorem resultReported_same (b : Branch) (i : RecordIndex) (o : ExchangeOutcome) (u : State) :
    (resultReported b i o u).records = u.records ∧ (resultReported b i o u).slots = u.slots := by
  unfold resultReported
  split <;> exact ⟨rfl, rfl⟩

theorem inService_of_status {b : Branch} {s : State} {x : BranchStatus} (h : s.branches[b].status = x)
    (hx : x ≠ .off ∧ x ≠ .fault) : inService s b = true := by
  rw [inService_iff, h]
  exact hx

/-- The window expires (R86). -/
theorem branchExpired_window {b : Branch} {s : State} (hst : s.branches[b].status = .await) :
    BranchExpired b s (attemptEnds b .noAnswer s) := by
  obtain ⟨x, hx, -, honLine, -⟩ := attemptEnds_branch b .noAnswer s
  have hnone : (attemptEnds b .noAnswer s).branches[b].onLine = none := by
    rw [hx]
    exact (congrArg BranchState.onLine x.rated_kept).trans honLine
  have htouched : (∀ i : RecordIndex, s.branches[b].onLine ≠ some i →
        (attemptEnds b .noAnswer s).records[i] = s.records[i]) ∧
      (∀ i : RecordIndex, (attemptEnds b .noAnswer s).records[i].slot = s.records[i].slot ∨
        (attemptEnds b .noAnswer s).records[i].slot = none) ∧
      ∀ k : SlotIndex, (attemptEnds b .noAnswer s).slots[k] = s.slots[k] ∨
        ((∃ i : RecordIndex, s.branches[b].status = .await ∧ s.branches[b].onLine = some i ∧
          s.records[i].slot = some k) ∧ (attemptEnds b .noAnswer s).slots[k] = missedSlot s.slots[k]) := by
    cases hon : s.branches[b].onLine with
    | none =>
      have heq : attemptEnds b .noAnswer s =
          enterIdle b (modifyBranch b (fun x => { x with windowTimer := none }) s) := by
        unfold attemptEnds
        dsimp only
        rw [modifyBranch_same]
        dsimp only
        rw [hon]
      rw [heq, enterIdle_records, enterIdle_slots]
      exact ⟨fun _ _ => rfl, fun _ => .inl rfl, fun _ => .inl rfl⟩
    | some i =>
      rw [attemptEnds_eq .noAnswer hon]
      obtain ⟨hrecords, hslots⟩ := resultReported_same b i .noAnswer s
      obtain ⟨hother, hslot, hpoll⟩ := settleAttempt_touches (b := b) (i := i) (o := .noAnswer)
        (v := resultReported b i .noAnswer s) nofun
      rw [hrecords] at hother hslot hpoll
      rw [hslots] at hpoll
      rw [enterIdle_records, enterIdle_slots]
      refine ⟨fun j hj => hother j fun h => hj (h ▸ rfl), fun j => ?_, fun k => ?_⟩
      · by_cases hj : j = i
        · subst hj
          exact hslot
        · exact .inl (congrArg Record.slot (hother j hj))
      · exact (hpoll k).imp_right fun ⟨h, hk⟩ => ⟨⟨i, hst, rfl, h⟩, hk⟩
  obtain ⟨hrecord, hslot, hslots⟩ := htouched
  exact
    { others := fun d hd => attemptEnds_branch_other hd .noAnswer s
      onLine := fun i hi => absurd (hnone.symm.trans hi) nofun
      service := fun _ => inService_of_status (x := .idle) (by rw [hx]) ⟨nofun, nofun⟩
      record := hrecord
      slot := hslot
      slots := hslots
      kept := (attemptEnds_kept b .noAnswer s).sameBut }

/-- The quarantine expires (R95). -/
theorem branchExpired_quarantine (b : Branch) (s : State) : BranchExpired b s
    (enterIdle b (modifyBranch b (fun x => { x with contentionRun := 0, quarantineTimer := none }) s)) where
  others d hd := by
    rw [enterIdle_branch_other hd, modifyBranch_other hd]
    rfl
  onLine i hi := by
    rw [enterIdle_branch, modifyBranch_same] at hi
    have hkept := congrArg BranchState.onLine
      (BranchState.rated_kept { s.branches[b] with contentionRun := 0, quarantineTimer := none })
    exact hkept.symm.trans hi
  service _ := inService_of_status (x := .idle) (by rw [enterIdle_branch]) ⟨nofun, nofun⟩
  record i _ := by
    rw [enterIdle_records]
    rfl
  slot i := .inl (by rw [enterIdle_records]; rfl)
  slots k := .inl (by rw [enterIdle_slots]; rfl)
  kept := ((modifyBranch_sameBut b _ s).mono (by simpa using branch_mem_exchangeParts b)).trans
    (enterIdle_kept b _).sameBut

theorem BranchExpired.refl (b : Branch) (s : State) : BranchExpired b s s where
  others _ _ := rfl
  onLine _ h := h
  service h := h
  record _ _ := rfl
  slot _ := .inl rfl
  slots _ := .inl rfl
  kept := (ExchangeKept.refl s).sameBut

theorem branchExpiries_expired (b : Branch) (s : State) : BranchExpired b s (branchExpiries s b) := by
  rw [branchExpiries_eq]
  split
  · rename_i h
    exact branchExpired_window h.1
  · split
    · exact branchExpired_quarantine b s
    · exact .refl b s

/-! ### The HOLD timer of a record -/

/-- What the expiry of the HOLD timer of record `i` can change (R67). -/
structure HoldExpired (i : RecordIndex) (s t : State) : Prop where
  times : ∀ d : Branch, branchTimes t.branches[d] = branchTimes s.branches[d]
  record : ∀ j ≠ i, t.records[j] = s.records[j]
  completions : ∀ j ∈ t.completions, j ∈ s.completions
  slots : t.slots = s.slots
  kept : SameBut exchangeParts s t

theorem modifyBranchCounters_times (b : Branch) (f : BranchCounters → BranchCounters) (s : State) (d : Branch) :
    branchTimes (modifyBranchCounters b f s).branches[d] = branchTimes s.branches[d] := by
  by_cases hd : d = b
  · subst hd
    exact (congrArg branchTimes (modifyBranch_same d _ s)).trans rfl
  · exact congrArg branchTimes (modifyBranch_other hd _ s)

theorem holdExpire_expired (i : RecordIndex) (s : State) : HoldExpired i s (holdExpire i s) := by
  have hfreed : ∀ u : State, (∀ d : Branch, branchTimes u.branches[d] = branchTimes s.branches[d]) →
      u.records = s.records → u.completions = s.completions → u.slots = s.slots → ExchangeKept s u →
      HoldExpired i s (freeRecord i (raise .uncollected u)) := by
    intro u hbranches hrecords hcompletions hslots hkept
    exact
      { times := fun d => (freeRecord_queuesOnly i (raise .uncollected u) d).times.trans (hbranches d)
        record := fun j hj => by
          rw [freeRecord_records, if_neg hj]
          exact congrArg (·[j]) hrecords
        completions := fun j hj => by
          rw [freeRecord_completions] at hj
          have hmem := List.mem_of_mem_filter hj
          rwa [raise_completions, hcompletions] at hmem
        slots := (freeRecord_slots ..).trans hslots
        kept := (hkept.trans (ExchangeKept.trans (t := raise .uncollected u) rfl (freeRecord_kept i _))).sameBut }
  unfold holdExpire
  split
  · dsimp only
    split
    · exact hfreed _ (modifyBranchCounters_times _ _ s) rfl rfl rfl rfl
    · exact hfreed s (fun _ => rfl) rfl rfl rfl rfl
  · exact
      { times := fun _ => rfl
        record := fun _ _ => rfl
        completions := fun _ h => h
        slots := rfl
        kept := (ExchangeKept.refl s).sameBut }

theorem recordExpiry_expired (i : RecordIndex) (s : State) : HoldExpired i s (recordExpiry s i) := by
  unfold recordExpiry
  split
  · exact holdExpire_expired i s
  · exact
      { times := fun _ => rfl
        record := fun _ _ => rfl
        completions := fun _ h => h
        slots := rfl
        kept := (ExchangeKept.refl s).sameBut }

/-! ### The countdown of a slot -/

/-- What the expiry of slot `k` can change (R132, R133). -/
structure SlotExpired (k : SlotIndex) (s t : State) : Prop where
  times : ∀ d : Branch, branchTimes t.branches[d] = branchTimes s.branches[d]
  records : t.records = s.records
  completions : t.completions = s.completions
  others : ∀ j ≠ k, t.slots[j] = s.slots[j]
  same : t.slots[k].config = s.slots[k].config ∧ t.slots[k].seq = s.slots[k].seq ∧ t.slots[k].age = s.slots[k].age
  kept : SameBut exchangeParts s t

theorem SlotExpired.refl (k : SlotIndex) (s : State) : SlotExpired k s s where
  times _ := rfl
  records := rfl
  completions := rfl
  others _ _ := rfl
  same := ⟨rfl, rfl, rfl⟩
  kept := (ExchangeKept.refl s).sameBut

/-- A change of the slot that keeps its configuration and its snapshot's SEQ and AGE. -/
theorem slotExpired_modifySlot {k : SlotIndex} {f : Slot → Slot} {s : State}
    (hf : (f s.slots[k]).config = s.slots[k].config ∧ (f s.slots[k]).seq = s.slots[k].seq ∧
      (f s.slots[k]).age = s.slots[k].age) : SlotExpired k s (modifySlot k f s) where
  times _ := rfl
  records := rfl
  completions := rfl
  others j hj := modifySlot_other hj f s
  same := by
    rw [modifySlot_same]
    exact hf
  kept := ExchangeKept.sameBut rfl

theorem SlotExpired.then_same {k : SlotIndex} {s t u : State} (h : SlotExpired k s t)
    (ht : ∀ d : Branch, branchTimes u.branches[d] = branchTimes t.branches[d]) (hr : u.records = t.records)
    (hc : u.completions = t.completions) (hs : u.slots = t.slots) (hk : ExchangeKept t u) : SlotExpired k s u where
  times d := (ht d).trans (h.times d)
  records := hr.trans h.records
  completions := hc.trans h.completions
  others j hj := by rw [hs]; exact h.others j hj
  same := by rw [hs]; exact h.same
  kept := h.kept.trans hk.sameBut

/-- A slot that is ARMED becomes DUE in service and misses its poll out of service; any other that runs is overrun
(R133). -/
theorem slotExpire_expired (k : SlotIndex) (s : State) : SlotExpired k s (slotExpire k s) := by
  cases hc : s.slots[k].config with
  | none =>
    rw [slotExpire_idle (.inl hc)]
    exact .refl k s
  | some c =>
    by_cases hr : s.slots[k].state.running = true
    · by_cases ha : s.slots[k].state = .armed
      · rw [slotExpire_of_armed hc ha]
        split
        · exact slotExpired_modifySlot ⟨rfl, rfl, rfl⟩
        · exact (slotExpired_modifySlot (f := fun x => { x with countdown := c.period, misses := missUp x.misses })
            ⟨rfl, rfl, rfl⟩).then_same (modifyBranchCounters_times _ _ _) rfl rfl rfl rfl
      · rw [slotExpire_of_busy hc hr ha]
        exact (slotExpired_modifySlot ⟨rfl, rfl, rfl⟩).then_same (fun _ => rfl) rfl rfl rfl rfl
    · rw [slotExpire_idle (.inr (Bool.eq_false_iff.mpr hr))]
      exact .refl k s

theorem slotExpiry_expired (k : SlotIndex) (s : State) : SlotExpired k s (slotExpiry s k) := by
  unfold slotExpiry
  split
  · exact slotExpire_expired k s
  · exact .refl k s

end Sys2Proof.Machine
end

section
/-!
A step with no command waiting, cut into its five stages: the arbitrations, the count of one millisecond, and the
expiries of the branches, of the records and of the slots (log entry 5).
-/

namespace Sys2Proof.Machine

-- The gate's memory limit counts every thread's arena, so the declarations are elaborated one after another.
set_option Elab.async false

/-! ### The stages -/

/-- What is kept by every element's turn is kept by the fold. -/
theorem foldl_keeps_of_mem {α : Type} {P : State → Prop} {f : State → α → State} :
    ∀ (l : List α) {s : State}, (∀ a ∈ l, ∀ s, P s → P (f s a)) → P s → P (l.foldl f s)
  | [], _, _, h => h
  | a :: l, s, hf, h =>
    foldl_keeps_of_mem l (fun x hx => hf x (List.mem_cons_of_mem a hx)) (hf a List.mem_cons_self s h)

theorem foldl_keeps {α : Type} {P : State → Prop} {f : State → α → State} (hf : ∀ a s, P s → P (f s a)) (l : List α)
    {s : State} (h : P s) : P (l.foldl f s) := foldl_keeps_of_mem l (fun a _ => hf a) h

/-- Each number has one turn: what holds until the turn of `k`, what its turn makes of that, and what holds from then
on. -/
theorem foldl_finRange_at {n : Nat} {P Q : State → Prop} {f : State → Fin n → State} (k : Fin n)
    (hbefore : ∀ a ≠ k, ∀ s, P s → P (f s a)) (hat : ∀ s, P s → Q (f s k)) (hafter : ∀ a ≠ k, ∀ s, Q s → Q (f s a))
    {s : State} (h : P s) : Q ((List.finRange n).foldl f s) := by
  obtain ⟨before, after, hl⟩ := List.append_of_mem (List.mem_finRange k)
  have hnodup := List.nodup_finRange n
  rw [hl] at hnodup ⊢
  obtain ⟨hk, -⟩ := List.nodup_cons.mp ((List.nodup_middle).mp hnodup)
  rw [List.foldl_append, List.foldl_cons]
  refine foldl_keeps_of_mem after (fun a ha => hafter a fun h => hk (h ▸ List.mem_append_right _ ha)) (hat _ ?_)
  exact foldl_keeps_of_mem before (fun a ha => hbefore a fun h => hk (h ▸ List.mem_append_left _ ha)) h

/-- The expiries of the four branches, of the sixteen records and of the eight slots. -/
def branchesExpired (s : State) : State := (List.finRange Config.branchCount).foldl branchExpiries s
def recordsExpired (s : State) : State := (List.finRange Config.recordCount).foldl recordExpiry s
def slotsExpired (s : State) : State := (List.finRange Config.slotCount).foldl slotExpiry s

theorem idleStep_eq {s : State} (h : s.inReset = false) :
    idleStep s = slotsExpired (recordsExpired (branchesExpired (countMillisecond (arbitrateAll s)))) := by
  unfold idleStep
  rw [h]
  rfl

theorem step_idle {s : State} (h : s.pending = []) : step s = .next (idleStep s) := by
  unfold step
  rw [h]

theorem sameBut_foldl {α : Type} {f : State → α → State} (hf : ∀ a s, SameBut exchangeParts s (f s a)) (l : List α)
    (s : State) : SameBut exchangeParts s (l.foldl f s) :=
  foldl_keeps (P := fun t => SameBut exchangeParts s t) (fun a t h => h.trans (hf a t)) l (ExchangeKept.refl s).sameBut

theorem countMillisecond_kept (s : State) : ExchangeKept s (countMillisecond s) := rfl

theorem arbitrateAll_sameBut (s : State) : SameBut exchangeParts s (arbitrateAll s) :=
  sameBut_foldl (fun b s => (arbitrate_arbitrated b s).kept) _ s

theorem branchesExpired_sameBut (s : State) : SameBut exchangeParts s (branchesExpired s) :=
  sameBut_foldl (fun b s => (branchExpiries_expired b s).kept) _ s

theorem recordsExpired_sameBut (s : State) : SameBut exchangeParts s (recordsExpired s) :=
  sameBut_foldl (fun i s => (recordExpiry_expired i s).kept) _ s

theorem slotsExpired_sameBut (s : State) : SameBut exchangeParts s (slotsExpired s) :=
  sameBut_foldl (fun k s => (slotExpiry_expired k s).kept) _ s

theorem idleStep_sameBut {s : State} (h : s.inReset = false) : SameBut exchangeParts s (idleStep s) := by
  rw [idleStep_eq h]
  exact (((((arbitrateAll_sameBut s).trans (countMillisecond_kept _).sameBut).trans (branchesExpired_sameBut _)).trans
    (recordsExpired_sameBut _)).trans (slotsExpired_sameBut _))

theorem countMillisecond_branch (s : State) (b : Branch) :
    (countMillisecond s).branches[b] = branchMillisecond s.branches[b] := mapTable_get ..

theorem countMillisecond_record (s : State) (i : RecordIndex) :
    (countMillisecond s).records[i] = recordMillisecond s.records[i] := mapTable_get ..

theorem countMillisecond_slot (s : State) (k : SlotIndex) :
    (countMillisecond s).slots[k] = slotMillisecond s.slots[k] := mapTable_get ..

/-! ### The slots through the stages -/

/-- A slot after the arbitrations: as it was, or ON_LINE from DUE. -/
def slotGranted (x y : Slot) : Prop := y = x ∨ (x.state = .due ∧ y = { x with state := .onLine })

theorem arbitrateAll_slot (s : State) (k : SlotIndex) : slotGranted s.slots[k] (arbitrateAll s).slots[k] := by
  refine foldl_keeps (P := fun t => slotGranted s.slots[k] t.slots[k]) (fun b t h => ?_) _ (.inl rfl)
  rcases (arbitrate_arbitrated b t).slots k with hsame | ⟨hdue, hline⟩
  · rwa [hsame]
  · rcases h with h | ⟨-, h⟩
    · rw [h] at hdue hline
      exact .inr ⟨hdue, hline⟩
    · rw [h] at hdue
      cases hdue

/-- A slot after the expiries of the branches: its poll may have ended, with a miss (R135). -/
def slotPolled (x y : Slot) : Prop :=
  y.config = x.config ∧ y.seq = x.seq ∧ y.age = x.age ∧ y.overruns = x.overruns ∧
    ((y.state = x.state ∧ y.countdown = x.countdown) ∨
      (x.state = .onLine ∧ y.state = .armed ∧ y.countdown = x.countdown) ∨
      (x.state = .stopping ∧ y.state = .stopped ∧ y.countdown = 0))

theorem slotPolled.missed {x y : Slot} (h : slotPolled x y) : slotPolled x (missedSlot y) := by
  obtain ⟨hconfig, hseq, hage, hoverruns, hstate⟩ := h
  unfold missedSlot
  cases hy : y.state with
  | onLine =>
    refine ⟨hconfig, hseq, hage, hoverruns, ?_⟩
    rcases hstate with ⟨h, hcount⟩ | ⟨-, h, -⟩ | ⟨-, h, -⟩
    · exact .inr (.inl ⟨h.symm.trans hy, rfl, hcount⟩)
    · cases hy.symm.trans h
    · cases hy.symm.trans h
  | stopping =>
    refine ⟨hconfig, hseq, hage, hoverruns, ?_⟩
    rcases hstate with ⟨h, -⟩ | ⟨-, h, -⟩ | ⟨-, h, -⟩
    · exact .inr (.inr ⟨h.symm.trans hy, rfl, rfl⟩)
    · cases hy.symm.trans h
    · cases hy.symm.trans h
  | unset | stopped | armed | due =>
    refine ⟨hconfig, hseq, hage, hoverruns, ?_⟩
    dsimp only
    rw [hy] at hstate
    exact hstate

theorem branchesExpired_slot (s : State) (k : SlotIndex) : slotPolled s.slots[k] (branchesExpired s).slots[k] := by
  refine foldl_keeps (P := fun t => slotPolled s.slots[k] t.slots[k]) (fun b t h => ?_) _
    ⟨rfl, rfl, rfl, rfl, .inl ⟨rfl, rfl⟩⟩
  rcases (branchExpiries_expired b t).slots k with hsame | ⟨-, hmissed⟩
  · rwa [hsame]
  · rw [hmissed]
    exact h.missed

theorem recordsExpired_slots (s : State) : (recordsExpired s).slots = s.slots :=
  foldl_keeps (P := fun t => t.slots = s.slots) (fun i t h => (recordExpiry_expired i t).slots.trans h) _ rfl

theorem slotExpiry_waits {k : SlotIndex} {s : State} (h : s.slots[k].state.running = false ∨ s.slots[k].countdown ≠ 0) :
    slotExpiry s k = s := by
  refine if_neg ?_
  rw [Bool.and_eq_true, beq_iff_eq]
  rintro ⟨hr, hcount⟩
  rcases h with h | h
  · exact absurd (hr.symm.trans h) nofun
  · exact h hcount

theorem slotsExpired_slot (s : State) (k : SlotIndex) : let x := s.slots[k]; let y := (slotsExpired s).slots[k]
    y.config = x.config ∧ y.seq = x.seq ∧ y.age = x.age ∧ (x.state.running = false ∨ x.countdown ≠ 0 → y = x) := by
  refine foldl_finRange_at (P := fun t => t.slots[k] = s.slots[k])
    (Q := fun t => t.slots[k].config = s.slots[k].config ∧ t.slots[k].seq = s.slots[k].seq ∧
      t.slots[k].age = s.slots[k].age ∧ (s.slots[k].state.running = false ∨ s.slots[k].countdown ≠ 0 →
        t.slots[k] = s.slots[k])) k (fun j hj t h => ?_) (fun t h => ?_) (fun j hj t h => ?_) rfl
  · exact ((slotExpiry_expired j t).others k hj.symm).trans h
  · obtain ⟨hconfig, hseq, hage⟩ := (slotExpiry_expired k t).same
    rw [h] at hconfig hseq hage
    refine ⟨hconfig, hseq, hage, fun hw => ?_⟩
    rw [← h] at hw
    rw [slotExpiry_waits hw, h]
  · rw [(slotExpiry_expired j t).others k hj.symm]
    exact h

/-- The slot `k` at the end of the step, by way of what it is when its countdown is examined. -/
theorem idleStep_slot {s : State} (hr : s.inReset = false) (k : SlotIndex) : ∃ y z : Slot,
    slotGranted s.slots[k] y ∧ slotPolled (slotMillisecond y) z ∧
      let t := idleStep s
      t.slots[k].config = z.config ∧ t.slots[k].seq = z.seq ∧ t.slots[k].age = z.age ∧
        (z.state.running = false ∨ z.countdown ≠ 0 → t.slots[k] = z) := by
  have hpolled := branchesExpired_slot (countMillisecond (arbitrateAll s)) k
  have hexpired := slotsExpired_slot (recordsExpired (branchesExpired (countMillisecond (arbitrateAll s)))) k
  rw [countMillisecond_slot] at hpolled
  rw [recordsExpired_slots] at hexpired
  refine ⟨_, _, arbitrateAll_slot s k, hpolled, ?_⟩
  rw [idleStep_eq hr]
  exact hexpired

/-- What an idle step keeps of every slot (R132, R137). -/
theorem idleStep_slot_kept {s : State} (hr : s.inReset = false) (k : SlotIndex) : let t := idleStep s
    t.slots[k].config = s.slots[k].config ∧ t.slots[k].seq = s.slots[k].seq ∧
      t.slots[k].age = s.slots[k].age.map countUp ∧
      (s.slots[k].state.running = false → t.slots[k].state = s.slots[k].state ∧
        t.slots[k].countdown = s.slots[k].countdown ∧ t.slots[k].overruns = s.slots[k].overruns) := by
  obtain ⟨y, z, hy, ⟨hconfig, hseq, hage, hoverruns, hstate⟩, tconfig, tseq, tage, hsame⟩ := idleStep_slot hr k
  dsimp only at tconfig tseq tage hsame ⊢
  rw [tconfig, tseq, tage, hconfig, hseq, hage]
  rcases hy with rfl | ⟨hdue, rfl⟩
  · refine ⟨rfl, rfl, rfl, fun hidle => ?_⟩
    have hcount : (slotMillisecond s.slots[k]).countdown = s.slots[k].countdown := by
      unfold slotMillisecond
      rw [hidle]
      rfl
    rcases hstate with ⟨hst, hc⟩ | ⟨hst, -⟩ | ⟨hst, -⟩
    · have hz : z.state = s.slots[k].state := hst
      rw [hsame (.inl (by rw [hz]; exact hidle))]
      exact ⟨hz, hc.trans hcount, hoverruns⟩
    · rw [show s.slots[k].state = .onLine from hst] at hidle
      cases hidle
    · rw [show s.slots[k].state = .stopping from hst] at hidle
      cases hidle
  · refine ⟨rfl, rfl, rfl, fun hidle => ?_⟩
    rw [hdue] at hidle
    cases hidle

theorem slotMillisecond_countdown {x : Slot} {n : Nat} (hr : x.state.running = true) (h : x.countdown = n + 1) :
    (slotMillisecond x).countdown = n := by
  unfold slotMillisecond
  rw [hr, h]
  rfl

/-- A countdown that is not done falls by one; a poll that ends meanwhile leaves its slot's state (R132, R135). -/
theorem idleStep_slot_counts {s : State} (hr : s.inReset = false) (k : SlotIndex) {n : Nat}
    (hn : s.slots[k].countdown = n + 2) : let t := idleStep s
    (s.slots[k].state = .armed → t.slots[k].state = .armed ∧ t.slots[k].countdown = n + 1) ∧
      (s.slots[k].state = .due ∨ s.slots[k].state = .onLine → t.slots[k].state.running = true ∧
        t.slots[k].state ≠ .stopping ∧ t.slots[k].countdown = n + 1) ∧
      (s.slots[k].state = .stopping → (t.slots[k].state = .stopping ∧ t.slots[k].countdown = n + 1) ∨
        (t.slots[k].state = .stopped ∧ t.slots[k].countdown = 0)) := by
  obtain ⟨y, z, hy, ⟨-, -, -, -, hstate⟩, -, -, -, hsame⟩ := idleStep_slot hr k
  have hcountdown : y.countdown = n + 2 := by rcases hy with rfl | ⟨-, rfl⟩ <;> exact hn
  have hdone : ∀ hrun : y.state.running = true, (slotMillisecond y).countdown = n + 1 := fun hrun =>
    slotMillisecond_countdown hrun hcountdown
  have hkept : ∀ x : SlotState, z.state = x → z.countdown = n + 1 →
      (idleStep s).slots[k].state = x ∧ (idleStep s).slots[k].countdown = n + 1 := fun x hx hc => by
    rw [hsame (.inr (by omega))]
    exact ⟨hx, hc⟩
  change (z.state = y.state ∧ z.countdown = (slotMillisecond y).countdown) ∨
    (y.state = .onLine ∧ z.state = .armed ∧ z.countdown = (slotMillisecond y).countdown) ∨
    (y.state = .stopping ∧ z.state = .stopped ∧ z.countdown = 0) at hstate
  refine ⟨fun harmed => ?_, fun hbusy => ?_, fun hstopping => ?_⟩
  · rcases hy with rfl | ⟨hdue, -⟩
    · rw [hdone (by rw [harmed]; rfl)] at hstate
      rw [harmed] at hstate
      rcases hstate with ⟨hz, hc⟩ | ⟨h, -⟩ | ⟨h, -⟩
      · exact hkept _ hz hc
      · cases h
      · cases h
    · rw [harmed] at hdue
      cases hdue
  · have hbusy' : y.state = .due ∨ y.state = .onLine := by
      rcases hy with rfl | ⟨-, rfl⟩
      · exact hbusy
      · exact .inr rfl
    have hrun : y.state.running = true := by rcases hbusy' with h | h <;> rw [h] <;> rfl
    rw [hdone hrun] at hstate
    rcases hstate with ⟨hz, hc⟩ | ⟨-, hz, hc⟩ | ⟨h, -⟩
    · obtain ⟨ht, hcount⟩ := hkept _ hz hc
      rw [ht]
      exact ⟨hrun, by rcases hbusy' with h | h <;> rw [h] <;> nofun, hcount⟩
    · obtain ⟨ht, hcount⟩ := hkept _ hz hc
      rw [ht]
      exact ⟨rfl, nofun, hcount⟩
    · rw [h] at hbusy'
      rcases hbusy' with h | h <;> cases h
  · rcases hy with rfl | ⟨hdue, -⟩
    · rw [hdone (by rw [hstopping]; rfl)] at hstate
      rw [hstopping] at hstate
      rcases hstate with ⟨hz, hc⟩ | ⟨h, -⟩ | ⟨-, hz, hc⟩
      · exact .inl (hkept _ hz hc)
      · cases h
      · rw [hsame (.inl (by rw [hz]; rfl))]
        exact .inr ⟨hz, hc⟩
    · rw [hstopping] at hdue
      cases hdue

/-! ### The timers of a branch through the stages -/

/-- What the expiries make of the state, timers and contention run of a branch (R86, R95). -/
def expiredTimes : BranchStatus × Option Timer × Option Timer × Nat → BranchStatus × Option Timer × Option Timer × Nat
  | (.await, w, q, n) => if timerDone w then (.idle, none, q, n) else (.await, w, q, n)
  | (.fault, w, q, n) => if timerDone q then (.idle, w, none, 0) else (.fault, w, q, n)
  | x => x

theorem branchExpiries_times (s : State) (b : Branch) :
    branchTimes (branchExpiries s b).branches[b] = expiredTimes (branchTimes s.branches[b]) := by
  rw [branchExpiries_eq]
  unfold branchTimes expiredTimes
  cases hst : s.branches[b].status with
  | await =>
    simp only [reduceCtorEq, false_and, true_and, if_false]
    split
    · obtain ⟨x, hx, -, -, hwindow, hquarantine, hrun, -⟩ := attemptEnds_branch b .noAnswer s
      rw [hx, x.rated_kept]
      dsimp only
      rw [hwindow, hquarantine, hrun]
    · rw [hst]
  | fault =>
    simp only [reduceCtorEq, false_and, true_and, if_false]
    split
    · rw [enterIdle_branch, modifyBranch_same, BranchState.rated_kept]
    · rw [hst]
  | off | idle | lead | send | recv =>
    simp only [reduceCtorEq, false_and, if_false]
    rw [hst]

theorem branchesExpired_times (s : State) (b : Branch) :
    branchTimes (branchesExpired s).branches[b] = expiredTimes (branchTimes s.branches[b]) :=
  foldl_finRange_at (P := fun t => branchTimes t.branches[b] = branchTimes s.branches[b]) b
    (fun d hd t h => (((branchExpiries_expired d t).others b hd.symm).times).trans h)
    (fun t h => by rw [branchExpiries_times, h])
    (fun d hd t h => (((branchExpiries_expired d t).others b hd.symm).times).trans h) rfl

theorem recordsExpired_times (s : State) (b : Branch) :
    branchTimes (recordsExpired s).branches[b] = branchTimes s.branches[b] :=
  foldl_keeps (P := fun t => branchTimes t.branches[b] = branchTimes s.branches[b])
    (fun i t h => ((recordExpiry_expired i t).times b).trans h) _ rfl

theorem slotsExpired_times (s : State) (b : Branch) :
    branchTimes (slotsExpired s).branches[b] = branchTimes s.branches[b] :=
  foldl_keeps (P := fun t => branchTimes t.branches[b] = branchTimes s.branches[b])
    (fun k t h => ((slotExpiry_expired k t).times b).trans h) _ rfl

/-- A branch that is not IDLE has nothing arbitrated (R78). -/
theorem arbitrateAll_waits {s : State} {b : Branch} (h : s.branches[b].status ≠ .idle) :
    (arbitrateAll s).branches[b] = s.branches[b] := by
  refine foldl_keeps (P := fun t => t.branches[b] = s.branches[b]) (fun d t ht => ?_) _ rfl
  by_cases hd : b = d
  · subst hd
    rw [arbitrate_waits (by rw [ht]; exact h)]
    exact ht
  · exact ((arbitrate_arbitrated d t).others b hd).trans ht

theorem idleStep_times {s : State} (hr : s.inReset = false) {b : Branch} (h : s.branches[b].status ≠ .idle) :
    branchTimes (idleStep s).branches[b] = expiredTimes (branchTimes (branchMillisecond s.branches[b])) := by
  rw [idleStep_eq hr, slotsExpired_times, recordsExpired_times, branchesExpired_times, countMillisecond_branch,
    arbitrateAll_waits h]

theorem timerDone_advance (w : Timer) : timerDone ((some w).map Timer.advance) = !decide (w.count + 1 < w.limit) := by
  simp [timerDone, Timer.advance, ← decide_not]

theorem idleStep_window {s : State} (hr : s.inReset = false) {b : Branch} {w : Timer}
    (hst : s.branches[b].status = .await) (hw : s.branches[b].windowTimer = some w) : let t := idleStep s
    if w.count + 1 < w.limit then
      t.branches[b].status = .await ∧ t.branches[b].windowTimer = some { w with count := w.count + 1 }
    else t.branches[b].status = .idle ∧ t.branches[b].windowTimer = none := by
  have htimes := idleStep_times hr (b := b) (by rw [hst]; nofun)
  have hdone := timerDone_advance w
  unfold branchTimes branchMillisecond expiredTimes at htimes
  dsimp only at htimes
  rw [hst, hw] at htimes
  dsimp only at htimes
  rw [hdone] at htimes
  split
  · rename_i hlt
    rw [decide_eq_true hlt, Bool.not_true, if_neg Bool.false_ne_true, Prod.mk.injEq, Prod.mk.injEq] at htimes
    exact ⟨htimes.1, htimes.2.1⟩
  · rename_i hlt
    rw [decide_eq_false hlt, Bool.not_false, if_pos rfl, Prod.mk.injEq, Prod.mk.injEq] at htimes
    exact ⟨htimes.1, htimes.2.1⟩

theorem idleStep_quarantine {s : State} (hr : s.inReset = false) {b : Branch} {w : Timer}
    (hst : s.branches[b].status = .fault) (hw : s.branches[b].quarantineTimer = some w) : let t := idleStep s
    if w.count + 1 < w.limit then
      t.branches[b].status = .fault ∧ t.branches[b].quarantineTimer = some { w with count := w.count + 1 }
    else t.branches[b].status = .idle ∧ t.branches[b].quarantineTimer = none ∧ t.branches[b].contentionRun = 0 := by
  have htimes := idleStep_times hr (b := b) (by rw [hst]; nofun)
  have hdone := timerDone_advance w
  unfold branchTimes branchMillisecond expiredTimes at htimes
  dsimp only at htimes
  rw [hst, hw] at htimes
  dsimp only at htimes
  rw [hdone] at htimes
  split
  · rename_i hlt
    rw [decide_eq_true hlt, Bool.not_true, if_neg Bool.false_ne_true, Prod.mk.injEq, Prod.mk.injEq,
      Prod.mk.injEq] at htimes
    exact ⟨htimes.1, htimes.2.2.1⟩
  · rename_i hlt
    rw [decide_eq_false hlt, Bool.not_false, if_pos rfl, Prod.mk.injEq, Prod.mk.injEq, Prod.mk.injEq] at htimes
    exact ⟨htimes.1, htimes.2.2.1, htimes.2.2.2⟩

end Sys2Proof.Machine
end

section
/-!
The countdowns and HOLD timers that are done: what must agree beforehand for the stages of the step to find them
untouched, and the obligation of the idle step.
-/

namespace Sys2Proof.Machine

-- The gate's memory limit counts every thread's arena, so the declarations are elaborated one after another.
set_option Elab.async false

/-! ### Branches in and out of service -/

theorem inService_of_times {s t : State} {b : Branch} (h : branchTimes t.branches[b] = branchTimes s.branches[b]) :
    inService t b = inService s b := by
  have hst : t.branches[b].status = s.branches[b].status := congrArg Prod.fst h
  unfold inService
  rw [hst]

theorem arbitrateAll_inService {s : State} {b : Branch} (h : inService s b = true) :
    inService (arbitrateAll s) b = true := by
  refine foldl_keeps (P := fun t => inService t b = true) (fun d t ht => ?_) _ h
  have harb := arbitrate_arbitrated d t
  by_cases hd : b = d
  · subst hd
    by_cases hidle : t.branches[b].status = .idle
    · rcases harb.status hidle with hst | hst
      · exact inService_of_status hst ⟨nofun, nofun⟩
      · exact inService_of_status hst ⟨nofun, nofun⟩
    · rwa [harb.waits hidle]
  · rw [inService_of_times (congrArg branchTimes (harb.others b hd))]
    exact ht

theorem branchesExpired_inService {s : State} {b : Branch} (h : inService s b = true) :
    inService (branchesExpired s) b = true := by
  refine foldl_keeps (P := fun t => inService t b = true) (fun d t ht => ?_) _ h
  have hexpired := branchExpiries_expired d t
  by_cases hd : b = d
  · subst hd
    exact hexpired.service ht
  · rw [inService_of_times (hexpired.others b hd).times]
    exact ht

/-! ### A slot that no branch polls -/

/-- No branch in AWAIT has a poll of slot `k` on line. -/
def Unpolled (k : SlotIndex) (s : State) : Prop :=
  ∀ (b : Branch) (i : RecordIndex), s.branches[b].status = .await → s.branches[b].onLine = some i →
    s.records[i].state ≠ .free ∧ s.records[i].slot ≠ some k

theorem arbitrateAll_unpolled {k : SlotIndex} {s : State} (h : Unpolled k s) : Unpolled k (arbitrateAll s) := by
  refine foldl_keeps (P := Unpolled k) (fun d t ht b i hst hon => ?_) _ h
  have harb := arbitrate_arbitrated d t
  have hbranch : (arbitrate d t).branches[b] = t.branches[b] := by
    by_cases hd : b = d
    · subst hd
      by_cases hidle : t.branches[b].status = .idle
      · rcases harb.status hidle with hnext | hnext <;> cases hst.symm.trans hnext
      · rw [harb.waits hidle]
    · exact harb.others b hd
  rw [hbranch] at hst hon
  obtain ⟨hlive, hslot⟩ := ht b i hst hon
  obtain ⟨hsame, hlive'⟩ := harb.slot i hlive
  exact ⟨hlive', by rw [hsame]; exact hslot⟩

/-- No branch in AWAIT serves a record of slot `k`, FREE or not: the expiries free records. -/
def UnpolledSlot (k : SlotIndex) (s : State) : Prop :=
  ∀ (b : Branch) (i : RecordIndex), s.branches[b].status = .await → s.branches[b].onLine = some i →
    s.records[i].slot ≠ some k

theorem Unpolled.counted {k : SlotIndex} {s : State} (h : Unpolled k s) : UnpolledSlot k (countMillisecond s) := by
  intro b i hst hon
  rw [countMillisecond_branch] at hst hon
  rw [countMillisecond_record]
  exact (h b i hst hon).2

/-- A branch that is in AWAIT after its timers have been examined has not moved. -/
theorem branchExpiries_await {b : Branch} {s : State} (h : (branchExpiries s b).branches[b].status = .await) :
    s.branches[b].status = .await := by
  have htimes := congrArg Prod.fst (branchExpiries_times s b)
  rw [show (branchTimes (branchExpiries s b).branches[b]).1 = .await from h] at htimes
  unfold expiredTimes branchTimes at htimes
  cases hst : s.branches[b].status with
  | await => rfl
  | fault =>
    rw [hst] at htimes
    dsimp only at htimes
    split at htimes <;> cases htimes
  | off | idle | lead | send | recv =>
    rw [hst] at htimes
    cases htimes

/-- The expiries of the branches leave a slot alone that none of them polls. -/
theorem branchesExpired_unpolled {k : SlotIndex} {s : State} (h : UnpolledSlot k s) :
    (branchesExpired s).slots[k] = s.slots[k] := by
  refine (foldl_keeps (P := fun t => UnpolledSlot k t ∧ t.slots[k] = s.slots[k]) (fun d t ht => ?_) _ ⟨h, rfl⟩).2
  obtain ⟨hun, hsame⟩ := ht
  have hexpired := branchExpiries_expired d t
  refine ⟨fun b i hst hon => ?_, ?_⟩
  · have hbefore : t.branches[b].status = .await ∧ t.branches[b].onLine = some i := by
      by_cases hd : b = d
      · subst hd
        exact ⟨branchExpiries_await hst, hexpired.onLine i hon⟩
      · have hkept := hexpired.others b hd
        exact ⟨(congrArg Prod.fst hkept.times).symm.trans hst, hkept.onLine.symm.trans hon⟩
    rcases hexpired.slot i with hslot | hslot
    · rw [hslot]
      exact hun b i hbefore.1 hbefore.2
    · rw [hslot]
      nofun
  · rcases hexpired.slots k with hslot | ⟨⟨i, hst, hon, hslot⟩, -⟩
    · exact hslot.trans hsame
    · exact absurd hslot (hun d i hst hon)

theorem servedOn_live {b : Branch} {r : Record} (h : servedOn b r = true) : r.state ≠ .free := by
  intro hfree
  unfold servedOn at h
  rw [hfree] at h
  cases h

/-- A slot that is ARMED or DUE has no poll on line, in a part that agrees (R131). -/
theorem TableAgrees.unpolled {s : State} (h : TableAgrees s) {k : SlotIndex}
    (hk : s.slots[k].state = .armed ∨ s.slots[k].state = .due) : Unpolled k s := by
  obtain ⟨-, hqueues, -, ⟨hslots, -⟩, -⟩ := h
  intro b i _ hon
  obtain ⟨-, -, hrecords⟩ := hqueues b
  obtain ⟨-, hserved, -⟩ := hrecords i
  refine ⟨servedOn_live (hserved.mp hon), fun hslot => ?_⟩
  rcases (hslots k).2.mp ⟨i, hslot⟩ with hline | hline
  all_goals
    rw [hline] at hk
    rcases hk with hk | hk <;> cases hk

/-- The part when the countdowns are examined (log entry 5). -/
def examined (s : State) : State := recordsExpired (branchesExpired (countMillisecond (arbitrateAll s)))

theorem idleStep_examined {s : State} (h : s.inReset = false) : idleStep s = slotsExpired (examined s) := idleStep_eq h

/-- The slot whose countdown is examined: as the arbitrations left it, one millisecond later. -/
theorem examined_slot {s : State} (h : TableAgrees s) {k : SlotIndex}
    (hk : s.slots[k].state = .armed ∨ s.slots[k].state = .due) :
    ∃ y, slotGranted s.slots[k] y ∧ (examined s).slots[k] = slotMillisecond y := by
  refine ⟨_, arbitrateAll_slot s k, ?_⟩
  unfold examined
  rw [recordsExpired_slots, branchesExpired_unpolled (arbitrateAll_unpolled (h.unpolled hk)).counted,
    countMillisecond_slot]

theorem examined_slot_armed {s : State} (h : TableAgrees s) {k : SlotIndex} (hk : s.slots[k].state = .armed) :
    (examined s).slots[k] = slotMillisecond s.slots[k] := by
  obtain ⟨y, hy, hv⟩ := examined_slot h (.inl hk)
  rcases hy with rfl | ⟨hdue, -⟩
  · exact hv
  · cases hk.symm.trans hdue

theorem countMillisecond_inService (s : State) (b : Branch) : inService (countMillisecond s) b = inService s b := by
  unfold inService
  rw [countMillisecond_branch]
  rfl

theorem examined_inService {s : State} {b : Branch} (h : inService s b = true) : inService (examined s) b = true := by
  have harbitrated := arbitrateAll_inService h
  unfold examined
  generalize arbitrateAll s = u at *
  rw [inService_of_times (recordsExpired_times _ b)]
  exact branchesExpired_inService ((countMillisecond_inService u b).trans harbitrated)

theorem examined_off {s : State} {b : Branch} (h : s.branches[b].status = .off) : inService (examined s) b = false := by
  have htimes : branchTimes (examined s).branches[b] =
      expiredTimes (branchTimes (branchMillisecond s.branches[b])) := by
    unfold examined
    rw [recordsExpired_times, branchesExpired_times, countMillisecond_branch, arbitrateAll_waits (by rw [h]; nofun)]
  have hstatus := congrArg Prod.fst htimes
  unfold branchTimes branchMillisecond expiredTimes at hstatus
  rw [h] at hstatus
  generalize examined s = v at hstatus
  unfold inService
  rw [show v.branches[b].status = .off from hstatus]
  rfl

/-! ### A countdown that is done -/

theorem slotExpiry_flag {f : Flag} {k : SlotIndex} {s : State} (h : flagSet f s = true) :
    flagSet f (slotExpiry s k) = true := flagSet_of_kept ((slotExpiry_keeps (m := True) s k).flags trivial) h

/-- The slot `k` expires in its turn, its branch standing as before the first of them. -/
theorem slotsExpired_done {k : SlotIndex} {v : State} (hr : v.slots[k].state.running = true)
    (hdone : v.slots[k].countdown = 0) : ∃ u : State, u.slots[k] = v.slots[k] ∧
      (∀ b : Branch, branchTimes u.branches[b] = branchTimes v.branches[b]) ∧
      (slotsExpired v).slots[k] = (slotExpire k u).slots[k] ∧
      ∀ f, flagSet f (slotExpire k u) = true → flagSet f (slotsExpired v) = true := by
  refine foldl_finRange_at
    (P := fun u => u.slots[k] = v.slots[k] ∧ ∀ b : Branch, branchTimes u.branches[b] = branchTimes v.branches[b])
    (Q := fun t => ∃ u : State, u.slots[k] = v.slots[k] ∧
      (∀ b : Branch, branchTimes u.branches[b] = branchTimes v.branches[b]) ∧
      t.slots[k] = (slotExpire k u).slots[k] ∧ ∀ f, flagSet f (slotExpire k u) = true → flagSet f t = true) k
    (fun j hj t ht => ?_) (fun u hu => ?_) (fun j hj t ht => ?_) ⟨rfl, fun _ => rfl⟩
  · obtain ⟨hslot, htimes⟩ := ht
    have hexpired := slotExpiry_expired j t
    exact ⟨(hexpired.others k hj.symm).trans hslot, fun b => (hexpired.times b).trans (htimes b)⟩
  · obtain ⟨hslot, htimes⟩ := hu
    have heq : slotExpiry u k = slotExpire k u := if_pos (by rw [hslot, hr, hdone]; rfl)
    exact ⟨u, hslot, htimes, by rw [heq], fun f hf => by rw [heq]; exact hf⟩
  · obtain ⟨u, hslot, htimes, hsame, hflags⟩ := ht
    exact ⟨u, hslot, htimes, ((slotExpiry_expired j t).others k hj.symm).trans hsame,
      fun f hf => slotExpiry_flag (hflags f hf)⟩

theorem slotsExpired_armed {k : SlotIndex} {c : SlotConfig} {v : State} (hc : v.slots[k].config = some c)
    (ha : v.slots[k].state = .armed) (hdone : v.slots[k].countdown = 0) : (slotsExpired v).slots[k] =
      if inService v c.branch then { v.slots[k] with state := .due, countdown := c.period }
      else { v.slots[k] with countdown := c.period, misses := missUp v.slots[k].misses } := by
  obtain ⟨u, hslot, htimes, hexpired, -⟩ := slotsExpired_done (by rw [ha]; rfl) hdone
  rw [hexpired, slotExpire_of_armed (by rw [hslot]; exact hc) (by rw [hslot]; exact ha), inService_of_times (htimes _)]
  split
  · rw [modifySlot_same, hslot]
  · refine (modifySlot_same k _ u).trans ?_
    rw [hslot]

theorem slotsExpired_busy {k : SlotIndex} {c : SlotConfig} {v : State} (hc : v.slots[k].config = some c)
    (hr : v.slots[k].state.running = true) (ha : v.slots[k].state ≠ .armed) (hdone : v.slots[k].countdown = 0) :
    (slotsExpired v).slots[k] = { v.slots[k] with
        countdown := c.period, overruns := countUp v.slots[k].overruns } ∧
      flagSet .pollOverrun (slotsExpired v) = true := by
  obtain ⟨u, hslot, -, hexpired, hflags⟩ := slotsExpired_done hr hdone
  rw [slotExpire_of_busy (by rw [hslot]; exact hc) (by rw [hslot]; exact hr) (by rw [hslot]; exact ha)]
    at hexpired hflags
  refine ⟨?_, hflags .pollOverrun ?_⟩
  · rw [hexpired]
    refine (modifySlot_same k _ u).trans ?_
    rw [hslot]
  · rw [flagSet_raise]
    exact Bool.or_true _

/-- A countdown that is done reloads: its slot is DUE, missed or overrun (R132, R133). -/
theorem idleStep_slot_done {s : State} (hr : s.inReset = false) (h : TableAgrees s) {k : SlotIndex} {c : SlotConfig}
    (hc : s.slots[k].config = some c) (hone : s.slots[k].countdown = 1) : let t := idleStep s
    (s.slots[k].state = .armed → inService s c.branch = true →
      t.slots[k].state = .due ∧ t.slots[k].countdown = c.period) ∧
    (s.slots[k].state = .armed → s.branches[c.branch].status = .off →
      t.slots[k].state = .armed ∧ t.slots[k].countdown = c.period ∧
      t.slots[k].misses = missUp s.slots[k].misses) ∧
    (s.slots[k].state = .due → t.slots[k].countdown = c.period ∧
      t.slots[k].overruns = countUp s.slots[k].overruns ∧ flagSet .pollOverrun t = true) := by
  have harmed := fun ha => examined_slot_armed h (k := k) ha
  have hdue := fun hd => examined_slot h (k := k) (.inr hd)
  have hin := examined_inService (s := s) (b := c.branch)
  have hout := examined_off (s := s) (b := c.branch)
  have hcount : s.slots[k].state = .armed → (slotMillisecond s.slots[k]).countdown = 0 := fun ha =>
    slotMillisecond_countdown (by rw [ha]; rfl) hone
  rw [idleStep_examined hr]
  generalize examined s = v at *
  refine ⟨fun ha hservice => ?_, fun ha hoff => ?_, fun hd => ?_⟩
  · have hv := harmed ha
    rw [slotsExpired_armed (by rw [hv]; exact hc) (by rw [hv]; exact ha) (by rw [hv]; exact hcount ha),
      if_pos (hin hservice)]
    exact ⟨rfl, rfl⟩
  · have hv := harmed ha
    rw [slotsExpired_armed (by rw [hv]; exact hc) (by rw [hv]; exact ha) (by rw [hv]; exact hcount ha), hout hoff,
      if_neg Bool.false_ne_true, hv]
    exact ⟨ha, rfl, rfl⟩
  · obtain ⟨y, hy, hv⟩ := hdue hd
    have hline : y.config = some c ∧ y.countdown = 1 ∧ y.overruns = s.slots[k].overruns ∧
        (y.state = .due ∨ y.state = .onLine) := by
      rcases hy with rfl | ⟨-, rfl⟩
      · exact ⟨hc, hone, rfl, .inl hd⟩
      · exact ⟨hc, hone, rfl, .inr rfl⟩
    obtain ⟨hyc, hy1, hyo, hst⟩ := hline
    have hrun : y.state.running = true := by rcases hst with h | h <;> rw [h] <;> rfl
    have hne : y.state ≠ .armed := by rcases hst with h | h <;> rw [h] <;> nofun
    obtain ⟨hslot, hflag⟩ := slotsExpired_busy (by rw [hv]; exact hyc) (by rw [hv]; exact hrun) (by rw [hv]; exact hne)
      (by rw [hv]; exact slotMillisecond_countdown hrun hy1)
    refine ⟨?_, ?_, hflag⟩
    · rw [hslot]
    · rw [hslot, hv]
      exact congrArg countUp hyo

/-! ### A HOLD timer -/

/-- The record `i` stands as `r`, and no branch waits for it or serves it. -/
def Settled (i : RecordIndex) (r : Record) (s : State) : Prop :=
  s.records[i] = r ∧ ∀ b : Branch, i ∉ s.branches[b].queue ∧ s.branches[b].onLine ≠ some i

/-- An ENDED record is in no queue and on no line, in a part that agrees (R50, R76). -/
theorem TableAgrees.settled {s : State} (h : TableAgrees s) {i : RecordIndex} (he : s.records[i].state = .ended) :
    Settled i s.records[i] s := by
  obtain ⟨-, hqueues, -⟩ := h
  refine ⟨rfl, fun b => ?_⟩
  obtain ⟨-, -, hrecords⟩ := hqueues b
  obtain ⟨hwaits, hserved, -⟩ := hrecords i
  refine ⟨fun hmem => ?_, fun hon => ?_⟩
  · have := hwaits.mp hmem
    unfold waitsOn at this
    rw [he] at this
    cases this
  · have := hserved.mp hon
    unfold servedOn at this
    rw [he] at this
    cases this

/-- Only an ENDED record has a HOLD timer, in a part that agrees (R66). -/
theorem recordAgrees_hold {r : Record} {w : Timer} (h : recordAgrees r = true) (hw : r.hold = some w) :
    r.state = .ended := by
  unfold recordAgrees at h
  dsimp only at h
  cases hk : r.kind with
  | none =>
    rw [hk] at h
    rw [eq_of_beq h] at hw
    cases hw
  | some kind => cases kind <;> simp [hk, hw] at h; exact h.2

theorem arbitrateAll_settled {i : RecordIndex} {r : Record} {s : State} (hr : r.state ≠ .free) (h : Settled i r s) :
    Settled i r (arbitrateAll s) := by
  refine foldl_keeps (P := Settled i r) (fun d t ht => ?_) _ h
  obtain ⟨hrecord, hwork⟩ := ht
  have harb := arbitrate_arbitrated d t
  have hlive : t.records[i].state ≠ .free := by rw [hrecord]; exact hr
  refine ⟨(harb.record i (hwork d).1 hlive).trans hrecord, fun b => ?_⟩
  by_cases hd : b = d
  · subst hd
    refine ⟨fun hmem => (hwork b).1 (harb.queue i hmem), fun hon => ?_⟩
    rcases harb.assigned i hon with h | h | h
    · exact (hwork b).2 h
    · exact (hwork b).1 h
    · exact hlive h
  · rw [harb.others b hd]
    exact hwork b

theorem branchesExpired_record {i : RecordIndex} {s : State} (h : ∀ b : Branch, s.branches[b].onLine ≠ some i) :
    (branchesExpired s).records[i] = s.records[i] := by
  refine (foldl_keeps (P := fun t => (∀ b : Branch, t.branches[b].onLine ≠ some i) ∧ t.records[i] = s.records[i])
    (fun d t ht => ?_) _ ⟨h, rfl⟩).2
  obtain ⟨hline, hrecord⟩ := ht
  have hexpired := branchExpiries_expired d t
  refine ⟨fun b hon => ?_, (hexpired.record i (hline d)).trans hrecord⟩
  by_cases hd : b = d
  · subst hd
    exact hline b (hexpired.onLine i hon)
  · exact hline b ((hexpired.others b hd).onLine.symm.trans hon)

theorem recordsExpired_waits {i : RecordIndex} {s : State} (h : timerDone s.records[i].hold = false) :
    (recordsExpired s).records[i] = s.records[i] := by
  refine foldl_keeps (P := fun t => t.records[i] = s.records[i]) (fun j t ht => ?_) _ rfl
  by_cases hj : i = j
  · subst hj
    have hsame : recordExpiry t i = t := if_neg (by rw [ht, h]; nofun)
    rw [hsame, ht]
  · exact ((recordExpiry_expired j t).record i hj).trans ht

/-- An ENDED record whose HOLD timer is done is freed in its turn, and the flag of its loss is set (R67). -/
theorem recordsExpired_done {i : RecordIndex} {s : State} (h : timerDone s.records[i].hold = true)
    (he : s.records[i].state = .ended) : let t := recordsExpired s
    t.records[i] = .free ∧ i ∉ t.completions ∧ flagSet .uncollected t = true := by
  refine foldl_finRange_at (P := fun t => t.records[i] = s.records[i])
    (Q := fun t => t.records[i] = .free ∧ i ∉ t.completions ∧ flagSet .uncollected t = true) i
    (fun j hj t ht => ((recordExpiry_expired j t).record i hj.symm).trans ht) (fun t ht => ?_) (fun j hj t ht => ?_) rfl
  · have heq : ∃ u, recordExpiry t i = freeRecord i (raise .uncollected u) := by
      unfold recordExpiry holdExpire
      rw [ht, if_pos h, if_pos he]
      exact ⟨_, rfl⟩
    obtain ⟨u, heq⟩ := heq
    rw [heq, freeRecord_records, if_pos rfl, freeRecord_completions, flagSet_congr (freeRecord_flags i _),
      flagSet_raise]
    exact ⟨rfl, fun hmem => by simp at hmem, Bool.or_true _⟩
  · obtain ⟨hfree, hlist, hflag⟩ := ht
    have hexpired := recordExpiry_expired j t
    exact ⟨(hexpired.record i hj.symm).trans hfree, fun hmem => hlist (hexpired.completions i hmem),
      flagSet_of_kept ((recordExpiry_keeps (m := True) t j).flags trivial) hflag⟩

theorem slotsExpired_records (s : State) :
    (slotsExpired s).records = s.records ∧ (slotsExpired s).completions = s.completions :=
  foldl_keeps (P := fun t => t.records = s.records ∧ t.completions = s.completions)
    (fun k t h => ⟨(slotExpiry_expired k t).records.trans h.1, (slotExpiry_expired k t).completions.trans h.2⟩) _
    ⟨rfl, rfl⟩

theorem slotsExpired_flag {f : Flag} {s : State} (h : flagSet f s = true) : flagSet f (slotsExpired s) = true :=
  foldl_keeps (P := fun t => flagSet f t = true) (fun _ _ ht => slotExpiry_flag ht) _ h

/-- The record as the HOLD timers are examined: one millisecond older (R66). -/
theorem held_record {s : State} (h : TableAgrees s) {i : RecordIndex} (he : s.records[i].state = .ended) :
    (branchesExpired (countMillisecond (arbitrateAll s))).records[i] = recordMillisecond s.records[i] := by
  obtain ⟨hrecord, hwork⟩ := arbitrateAll_settled (by rw [he]; nofun) (h.settled he)
  generalize arbitrateAll s = u at *
  rw [branchesExpired_record, countMillisecond_record, hrecord]
  intro b hon
  rw [countMillisecond_branch] at hon
  exact (hwork b).2 hon

theorem idleStep_hold {s : State} (hr : s.inReset = false) (h : TableAgrees s) {i : RecordIndex} {w : Timer}
    (hw : s.records[i].hold = some w) : let t := idleStep s
    if w.count + 1 < w.limit then t.records[i] = { s.records[i] with hold := some { w with count := w.count + 1 } }
    else t.records[i] = .free ∧ i ∉ t.completions ∧ flagSet .uncollected t = true := by
  have hended := recordAgrees_hold (h.1 i) hw
  have hstands := held_record h hended
  have hhold : (recordMillisecond s.records[i]).hold = (some w).map Timer.advance := by
    unfold recordMillisecond
    rw [hw]
  have hdone := timerDone_advance w
  rw [idleStep_eq hr]
  generalize branchesExpired (countMillisecond (arbitrateAll s)) = v at *
  rw [← hhold, ← hstands] at hdone
  obtain ⟨hrecords, hcompletions⟩ := slotsExpired_records (recordsExpired v)
  dsimp only
  rw [hrecords, hcompletions]
  split
  · rename_i hlt
    rw [decide_eq_true hlt] at hdone
    rw [recordsExpired_waits hdone, hstands]
    unfold recordMillisecond
    rw [hw]
    rfl
  · rename_i hlt
    rw [decide_eq_false hlt] at hdone
    obtain ⟨hfree, hlist, hflag⟩ := recordsExpired_done hdone (by rw [hstands]; exact hended)
    exact ⟨hfree, hlist, slotsExpired_flag hflag⟩

/-! ### The obligation -/

/-- Settles O55: the step of an empty queue is followed through its five stages. -/
theorem idleStepIsAMillisecond : Obligations.IdleStepIsAMillisecond := by
  intro s hp
  rw [step_idle hp]
  refine ⟨fun hr => ?_, fun hr => ⟨idleStep s, rfl, idleStep_sameBut hr, (idleStep_keeps (m := True) s).flags trivial,
    idleStep_slot_kept hr, fun k n hn => idleStep_slot_counts hr k hn,
    fun _ htable k c hc hone => idleStep_slot_done hr htable hc hone, fun b w hst hw => idleStep_window hr hst hw,
    fun b w hst hw => idleStep_quarantine hr hst hw, fun _ htable i w hw => idleStep_hold hr htable hw⟩⟩
  unfold idleStep
  rw [hr]
  rfl

end Sys2Proof.Machine
end

section
/-!
What keeps the owed reply in agreement with the records (R101, R102, R111): the operations that leave the trunk, the
buffer of the owed reply and the awaited record alone, and those that settle the awaited record.
-/

namespace Sys2Proof.Machine

-- The gate's memory limit counts every thread's arena, so the declarations are elaborated one after another.
set_option Elab.async false

/-! ### The agreement, restated -/

/-- A FREE record has no other field (R45). -/
def FreeClean (s : State) : Prop := ∀ i : RecordIndex, s.records[i].state = .free → s.records[i] = Record.free

theorem awaitedByTrunk_iff {r : Record} :
    awaitedByTrunk r = true ↔ r.kind = some .transparent ∧ r.abandoned = false := by
  unfold awaitedByTrunk
  simp

theorem heldFrame_isSome {h : Holder} {s : State} : (heldFrame h s).isSome = true ↔ heldCount h s ≠ 0 := by
  rw [Ne, heldCount_eq_zero]
  cases heldFrame h s with
  | none => simp
  | some _ => simp

theorem owedAgrees_iff {s : State} : OwedAgrees s ↔
    (heldCount .owedReply s ≠ 0 → s.trunk.owed = .answer ∨ s.trunk.owed = .proxy) ∧
    (s.trunk.port.tx ≠ .quiet → s.trunk.owed = .answer ∨ s.trunk.owed = .proxy ∨ s.trunk.owed = .response) ∧
    (∀ i : RecordIndex, awaitedByTrunk s.records[i] = true → s.trunk.owed = .pendingAnswer i) ∧ FreeClean s := by
  unfold OwedAgrees
  rw [heldFrame_isSome]
  refine ⟨fun ⟨hreply, htx, hrecords⟩ => ⟨hreply, htx, fun i hi => ?_, fun i => (hrecords i).2⟩,
    fun ⟨hreply, htx, hawaited, hfree⟩ => ⟨hreply, htx, fun i =>
      ⟨fun hkind _ ha => hawaited i (awaitedByTrunk_iff.mpr ⟨hkind, ha⟩), hfree i⟩⟩⟩
  obtain ⟨hkind, ha⟩ := awaitedByTrunk_iff.mp hi
  refine (hrecords i).1 hkind (fun hstate => ?_) ha
  rw [(hrecords i).2 hstate] at hi
  cases hi

/-! ### What a step may do to it -/

/-- An operation that keeps the agreement, and owes nothing where nothing was owed. -/
structure OwedKept (s t : State) : Prop where
  agrees : OwedAgrees s → OwedAgrees t
  nothing : OwedAgrees s → s.trunk.owed = .nothing → t.trunk.owed = .nothing

theorem OwedKept.refl (s : State) : OwedKept s s := ⟨id, fun _ => id⟩

theorem OwedKept.trans {s t u : State} (h1 : OwedKept s t) (h2 : OwedKept t u) : OwedKept s u :=
  ⟨fun h => h2.agrees (h1.agrees h), fun h hn => h2.nothing (h1.agrees h) (h1.nothing h hn)⟩

theorem OwedKept.foldl {α : Type} {f : State → α → State} (hf : ∀ s a, OwedKept s (f s a)) (l : List α) (s : State) :
    OwedKept s (l.foldl f s) :=
  foldl_keeps (P := fun t => OwedKept s t) (fun a t h => h.trans (hf t a)) l (.refl s)

/-- An operation that leaves the owed reply and its buffer, gives the trunk port nothing to send, and makes no record
one that the trunk awaits. -/
structure OwedSame (s t : State) : Prop where
  owed : t.trunk.owed = s.trunk.owed
  tx : s.trunk.port.tx = .quiet → t.trunk.port.tx = .quiet
  reply : heldCount .owedReply s = 0 → heldCount .owedReply t = 0
  awaited : ∀ i : RecordIndex, awaitedByTrunk t.records[i] = true → awaitedByTrunk s.records[i] = true
  free : FreeClean s → FreeClean t

theorem OwedSame.refl (s : State) : OwedSame s s := ⟨rfl, id, id, fun _ => id, id⟩

theorem OwedSame.trans {s t u : State} (h1 : OwedSame s t) (h2 : OwedSame t u) : OwedSame s u where
  owed := h2.owed.trans h1.owed
  tx h := h2.tx (h1.tx h)
  reply h := h2.reply (h1.reply h)
  awaited i h := h1.awaited i (h2.awaited i h)
  free h := h2.free (h1.free h)

theorem OwedSame.kept {s t : State} (h : OwedSame s t) : OwedKept s t := by
  refine ⟨fun hs => ?_, fun _ hn => h.owed.trans hn⟩
  obtain ⟨hreply, htx, hawaited, hfree⟩ := owedAgrees_iff.mp hs
  rw [owedAgrees_iff, h.owed]
  exact ⟨fun hr => hreply fun h0 => hr (h.reply h0), fun hq => htx fun h0 => hq (h.tx h0),
    fun i hi => hawaited i (h.awaited i hi), h.free hfree⟩

/-- What leaves the owed reply and its buffer, the trunk's frame to send, and the records alone. -/
theorem owedSame_of_trunk {s t : State} (howed : t.trunk.owed = s.trunk.owed)
    (htx : s.trunk.port.tx = .quiet → t.trunk.port.tx = .quiet) (hrecords : t.records = s.records)
    (hreply : heldCount .owedReply s = 0 → heldCount .owedReply t = 0) : OwedSame s t where
  owed := howed
  tx := htx
  reply := hreply
  awaited i h := by rwa [hrecords] at h
  free h i hi := by
    rw [hrecords] at hi ⊢
    exact h i hi

theorem owedSame_of_same {s t : State} (htrunk : t.trunk = s.trunk) (hrecords : t.records = s.records)
    (hreply : heldCount .owedReply t = heldCount .owedReply s) : OwedSame s t :=
  owedSame_of_trunk (by rw [htrunk]) (fun h => by rw [htrunk]; exact h) hrecords hreply.trans

theorem Unmoved.owedSame {s t : State} (h : Unmoved s t) : OwedSame s t where
  owed := h.owed
  tx hq := by
    obtain ⟨hsending, hleading⟩ := h.tx
    rw [hq] at hsending hleading
    cases ht : t.trunk.port.tx with
    | quiet => rfl
    | lead f =>
      rw [ht] at hleading
      cases hleading
    | send f k =>
      rw [ht] at hsending
      cases hsending
  reply h0 := (h.held .owedReply nofun).trans h0
  awaited i hi := by rwa [h.records] at hi
  free hf i hi := by
    rw [h.records] at hi ⊢
    exact hf i hi

theorem modifyBranch_owedSame (b : Branch) (f : BranchState → BranchState) (s : State) :
    OwedSame s (modifyBranch b f s) := owedSame_of_same rfl rfl rfl

theorem modifySlot_owedSame (k : SlotIndex) (f : Slot → Slot) (s : State) : OwedSame s (modifySlot k f s) :=
  owedSame_of_same rfl rfl rfl

theorem raise_owedSame (f : Flag) (s : State) : OwedSame s (raise f s) := owedSame_of_same rfl rfl rfl

theorem writeBuffer_owedSame (h : Holder) (chars : List Byte) (s : State) : OwedSame s (writeBuffer h chars s) :=
  owedSame_of_same rfl rfl (heldCount_writeBuffer ..)

theorem returnBuffer_owedSame (h : Holder) (s : State) : OwedSame s (returnBuffer h s) where
  owed := rfl
  tx := id
  reply h0 := by
    rw [heldCount_returnBuffer (g := .owedReply) nofun]
    split
    · rfl
    · exact h0
  awaited _ := id
  free := id

theorem handOver_owedSame {h g : Holder} (hg : g ≠ .owedReply) (hne : h ≠ g) (s : State) :
    OwedSame s (handOver h g s) where
  owed := rfl
  tx := id
  reply h0 := by
    rw [heldCount_handOver hne, if_neg hg.symm]
    split
    · rfl
    · exact h0
  awaited _ := id
  free := id

theorem claimBuffer_owedSame {h : Holder} (hh : h ≠ .free) (ho : h ≠ .owedReply) (chars : List Byte) {s : State}
    (hfree : 0 < freeCount s) : OwedSame s (claimBuffer h chars s) :=
  owedSame_of_same (claimBuffer_trunk ..) (claimBuffer_records ..)
    (by rw [heldCount_claimBuffer (g := .owedReply) hfree hh nofun, if_neg ho.symm])

/-- One record changes: it stands as it was, is freed, or is live and awaited only if it was. -/
theorem modifyRecord_owedSame {i : RecordIndex} {f : Record → Record} {s : State}
    (hawaited : awaitedByTrunk (f s.records[i]) = true → awaitedByTrunk s.records[i] = true)
    (hfree : (s.records[i].state = .free → s.records[i] = .free) → (f s.records[i]).state = .free →
      f s.records[i] = .free) : OwedSame s (modifyRecord i f s) where
  owed := rfl
  tx := id
  reply := id
  awaited j hj := by
    by_cases h : j = i
    · subst h
      rw [modifyRecord_same] at hj
      exact hawaited hj
    · rwa [modifyRecord_other i h] at hj
  free hs j hj := by
    by_cases h : j = i
    · subst h
      rw [modifyRecord_same] at hj ⊢
      exact hfree (hs j) hj
    · rw [modifyRecord_other i h] at hj ⊢
      exact hs j hj

theorem freeRecord_owedSame (i : RecordIndex) (s : State) : OwedSame s (freeRecord i s) where
  owed := by rw [freeRecord_trunk]
  tx h := by rw [freeRecord_trunk]; exact h
  reply h := by
    rw [heldCount_freeRecord (g := .owedReply) nofun, if_neg (by simp)]
    exact h
  awaited j hj := by
    rw [freeRecord_records] at hj
    split at hj
    · cases hj
    · exact hj
  free hs j hj := by
    rw [freeRecord_records] at hj ⊢
    split
    · rfl
    · rename_i h
      rw [if_neg h] at hj
      exact hs j hj

/-! ### The ends of an exchange -/

theorem groupLeave_owedSame (b : Branch) (i : RecordIndex) (s : State) : OwedSame s (groupLeave b i s) := by
  have hleft : OwedSame s (modifyRecord i (fun r => { r with
      pendingSet := setWithout r.pendingSet b, sendingSet := setWithout r.sendingSet b }) s) := by
    refine modifyRecord_owedSame id fun hclean hstate => ?_
    rw [hclean hstate]
    unfold setWithout
    simp [Record.free]
  unfold groupLeave
  dsimp only
  split
  · exact hleft.trans (freeRecord_owedSame i _)
  · exact hleft

theorem noteOutcome_owedSame (o : ExchangeOutcome) (s : State) : OwedSame s (noteOutcome o s) := by
  cases o with
  | noAnswer | badAnswer => exact raise_owedSame .answerFail s
  | answered | contention | branchOff => exact .refl s

theorem dropLateAnswer_owedSame (b : Branch) (o : ExchangeOutcome) (s : State) : OwedSame s (dropLateAnswer b o s) := by
  unfold dropLateAnswer
  split
  · exact returnBuffer_owedSame _ s
  · exact .refl s

/-- The awaited record is freed with a reply, or with none owed any more (R57, R58, R101). -/
theorem owedKept_told {i : RecordIndex} {s t : State} (ha : awaitedByTrunk s.records[i] = true)
    (hrecords : ∀ j : RecordIndex, t.records[j] = if j = i then .free else s.records[j])
    (howed : (t.trunk.owed = .answer ∨ t.trunk.owed = .proxy) ∨ (t.trunk.owed = .nothing ∧
      t.trunk.port.tx = s.trunk.port.tx ∧ heldCount .owedReply t = heldCount .owedReply s)) : OwedKept s t := by
  refine ⟨fun hs => ?_, fun hs hn => ?_⟩
  all_goals obtain ⟨hreply, htx, hawaited, hfree⟩ := owedAgrees_iff.mp hs
  · have hi := hawaited i ha
    rw [hi] at hreply htx
    refine owedAgrees_iff.mpr ⟨fun hr => ?_, fun hq => ?_, fun j hj => ?_, fun j hj => ?_⟩
    · rcases howed with howed | ⟨-, -, hcount⟩
      · exact howed
      · rw [hcount] at hr
        rcases hreply hr with h | h <;> cases h
    · rcases howed with (howed | howed) | ⟨-, hsame, -⟩
      · exact .inl howed
      · exact .inr (.inl howed)
      · rw [hsame] at hq
        rcases htx hq with h | h | h <;> cases h
    · rw [hrecords] at hj
      split at hj
      · cases hj
      · rename_i hne
        have hboth := hi.symm.trans (hawaited j hj)
        injection hboth with h
        exact absurd h.symm hne
    · rw [hrecords] at hj ⊢
      split
      · rfl
      · rename_i hne
        rw [if_neg hne] at hj
        exact hfree j hj
  · cases hn.symm.trans (hawaited i ha)

theorem settleTransparent_owedKept {i : RecordIndex} (b : Branch) (o : ExchangeOutcome) {s : State}
    (hkind : s.records[i].kind = some .transparent) : OwedKept s (settleTransparent i b o s) := by
  unfold settleTransparent
  split
  · exact ((dropLateAnswer_owedSame b o s).trans (freeRecord_owedSame i _)).kept
  · rename_i habandoned
    have ha : awaitedByTrunk s.records[i] = true := awaitedByTrunk_iff.mpr ⟨hkind, Bool.eq_false_iff.mpr habandoned⟩
    split
    · rw [answerTransparent_eq]
      refine owedKept_told ha (fun j => ?_) (.inl (.inl ?_))
      · rw [freeRecord_records]
        rfl
      · rw [freeRecord_trunk]
        rfl
    · unfold failTransparent
      dsimp only
      split
      · refine owedKept_told ha (fun j => ?_) (.inl (.inr ?_))
        · rw [freeRecord_records]
          rfl
        · rw [freeRecord_trunk]
          rfl
      · refine owedKept_told ha (fun j => ?_) (.inr ⟨?_, ?_, ?_⟩)
        · rw [freeRecord_records]
          rfl
        · rw [freeRecord_trunk]
          rfl
        · rw [freeRecord_trunk]
          rfl
        · rw [heldCount_freeRecord (g := .owedReply) nofun, if_neg (by simp)]
          rfl

theorem endDeferred_owedSame (i : RecordIndex) (b : Branch) (o : ExchangeOutcome) (s : State) :
    OwedSame s (endDeferred i b o s) := by
  unfold endDeferred
  dsimp only
  have hgiven : OwedSame s (if o = .answered then handOver (.branchAnswer b) (.answer i) (returnBuffer (.request i) s)
      else returnBuffer (.request i) s) := by
    split
    · exact (returnBuffer_owedSame _ s).trans (handOver_owedSame (h := .branchAnswer b) (g := .answer i) nofun nofun _)
    · exact returnBuffer_owedSame _ s
  generalize (if o = .answered then handOver (.branchAnswer b) (.answer i) (returnBuffer (.request i) s)
    else returnBuffer (.request i) s) = u at hgiven ⊢
  have hended : OwedSame u (modifyRecord i (fun r => { r with
      state := .ended, outcome := some o, hold := some { count := 0, limit := u.params.holdTime * 100 } }) u) :=
    modifyRecord_owedSame id fun _ h => nomatch h
  refine (hgiven.trans hended).trans ?_
  exact owedSame_of_same rfl rfl rfl

theorem settleDeferred_owedSame (i : RecordIndex) (b : Branch) (o : ExchangeOutcome) (s : State) :
    OwedSame s (settleDeferred i b o s) := by
  unfold settleDeferred
  split
  · exact (dropLateAnswer_owedSame b o s).trans (freeRecord_owedSame i _)
  · exact endDeferred_owedSame i b o s

theorem pollEnds_owedSame (k : SlotIndex) (b : Branch) (answered : Bool) (s : State) :
    OwedSame s (pollEnds k b answered s) := by
  have hleft : ∀ u, OwedSame u (slotLeavePoll k u) := fun u => by
    unfold slotLeavePoll
    split
    · exact modifySlot_owedSame k _ u
    · exact modifySlot_owedSame k _ u
    all_goals exact .refl u
  unfold pollEnds
  split
  · exact (((returnBuffer_owedSame (.snapshot k) s).trans
      (handOver_owedSame (h := .branchAnswer b) (g := .snapshot k) nofun nofun _)).trans
      (modifySlot_owedSame k _ _)).trans (hleft _)
  · exact (modifySlot_owedSame k _ s).trans (hleft _)

theorem settleCyclic_owedSame (i : RecordIndex) (b : Branch) (o : ExchangeOutcome) (s : State) :
    OwedSame s (settleCyclic i b o s) := by
  unfold settleCyclic
  split
  · exact freeRecord_owedSame i s
  · exact (pollEnds_owedSame _ b _ s).trans (freeRecord_owedSame i _)

theorem fixOutcome_owedKept (i : RecordIndex) (b : Branch) (o : ExchangeOutcome) (s : State) :
    OwedKept s (fixOutcome i b o s) := by
  have hnote := noteOutcome_owedSame o s
  have hrecords := (noteOutcome_same o s).1
  unfold fixOutcome
  split
  · rename_i hkind
    exact hnote.kept.trans (settleTransparent_owedKept b o (by rw [hrecords]; exact hkind))
  · exact (hnote.trans (settleDeferred_owedSame i b o _)).kept
  · exact (hnote.trans (settleCyclic_owedSame i b o _)).kept
  · exact .refl s
  · exact .refl s

theorem retryRecord_owedSame (i : RecordIndex) (b : Branch) (s : State) : OwedSame s (retryRecord i b s) :=
  (modifyRecord_owedSame (f := fun r => { r with state := .queued, retriesLeft := r.retriesLeft - 1 }) id
    fun _ h => nomatch h).trans (modifyBranch_owedSame b _ _)

theorem settleAttempt_owedKept (i : RecordIndex) (b : Branch) (o : ExchangeOutcome) (s : State) :
    OwedKept s (settleAttempt i b o s) := by
  unfold settleAttempt
  dsimp only
  split
  · exact fixOutcome_owedKept i b o s
  · exact (retryRecord_owedSame i b s).kept

/-! ### The branches -/

theorem enterIdle_owedSame (b : Branch) (s : State) : OwedSame s (enterIdle b s) := by
  refine owedSame_of_same (enterIdle_trunk ..) (enterIdle_records ..) ?_
  unfold heldCount
  rw [enterIdle_buffers]

theorem applyPendingRate_owedSame (b : Branch) (s : State) : OwedSame s (applyPendingRate b s) := by
  rw [applyPendingRate_eq]
  exact owedSame_of_same rfl rfl rfl

theorem settleBranchOff_owedKept (b : Branch) (s : State) (i : RecordIndex) : OwedKept s (settleBranchOff b s i) := by
  unfold settleBranchOff
  split
  · exact (groupLeave_owedSame b i s).kept
  · exact fixOutcome_owedKept i b .branchOff s

theorem settleBranchWork_owedKept (b : Branch) (s : State) : OwedKept s (settleBranchWork b s) := by
  unfold settleBranchWork
  dsimp only
  refine OwedKept.trans (t := match s.branches[b].onLine with
    | some i => settleBranchOff b s i
    | none => s) ?_ ?_
  · split
    · exact settleBranchOff_owedKept b s _
    · exact .refl s
  · exact (OwedKept.foldl (settleBranchOff_owedKept b) _ _).trans (modifyBranch_owedSame b _ _).kept

theorem leaveService_owedKept (b : Branch) (s : State) : OwedKept s (leaveService b s) := by
  unfold leaveService
  dsimp only
  refine ((settleBranchWork_owedKept b s).trans (applyPendingRate_owedSame b _).kept).trans ?_
  generalize applyPendingRate b (settleBranchWork b s) = u
  exact (owedSame_of_same (s := u) (t := modifyBranch b (fun x => { x with stalled := false }) (abandonDuePolls b u))
    rfl rfl
    rfl).kept

theorem stopReceive_owedSame (b : Branch) (s : State) : OwedSame s (stopReceive b s) := modifyBranch_owedSame b _ s

theorem disableBranch_owedKept (b : Branch) (s : State) : OwedKept s (disableBranch b s) := by
  have hservice : OwedKept s (setStatus b .off (leaveService b (returnBuffer (.branchAnswer b)
      (modifyBranch b (fun x => { x with windowTimer := none }) (stopReceive b s))))) :=
    ((((stopReceive_owedSame b s).trans (modifyBranch_owedSame b _ _)).trans (returnBuffer_owedSame _ _)).kept.trans
      (leaveService_owedKept b _)).trans (modifyBranch_owedSame b _ _).kept
  unfold disableBranch
  split
  · exact .refl s
  · exact ((stopReceive_owedSame b s).trans (modifyBranch_owedSame b _ _)).kept
  all_goals exact hservice

theorem enableBranch_owedSame (b : Branch) (s : State) : OwedSame s (enableBranch b s) := by
  unfold enableBranch
  split
  · exact ((stopReceive_owedSame b s).trans (modifyBranch_owedSame b _ _)).trans (enterIdle_owedSame b _)
  · exact (modifyBranch_owedSame b _ s).trans (enterIdle_owedSame b _)
  all_goals exact .refl s

theorem quarantineExpire_owedSame (b : Branch) (s : State) : OwedSame s (quarantineExpire b s) := by
  unfold quarantineExpire
  split
  · exact (modifyBranch_owedSame b _ s).trans (enterIdle_owedSame b _)
  · exact .refl s

theorem attemptEnds_owedKept (b : Branch) (o : ExchangeOutcome) (s : State) : OwedKept s (attemptEnds b o s) := by
  cases hon : s.branches[b].onLine with
  | none =>
    have heq : attemptEnds b o s = enterIdle b (modifyBranch b (fun x => { x with windowTimer := none }) s) := by
      unfold attemptEnds
      dsimp only
      rw [modifyBranch_same]
      dsimp only
      rw [hon]
    rw [heq]
    exact ((modifyBranch_owedSame b _ s).trans (enterIdle_owedSame b _)).kept
  | some i =>
    rw [attemptEnds_eq o hon]
    have hreported : OwedSame s (resultReported b i o s) := by
      unfold resultReported
      split
      · exact modifyBranch_owedSame b _ s
      · exact (modifyBranch_owedSame b _ s).trans (returnBuffer_owedSame _ _)
    exact (hreported.kept.trans (settleAttempt_owedKept i b o _)).trans
      ((modifyBranch_owedSame b _ _).trans (enterIdle_owedSame b _)).kept

theorem answerGood_owedKept (b : Branch) (a : Byte) (s : State) : OwedKept s (answerGood b a s) := by
  unfold answerGood
  split
  · exact (enterIdle_owedSame b s).kept
  · split
    · exact attemptEnds_owedKept b .answered s
    · exact (modifyBranch_owedSame b _ s).kept.trans (attemptEnds_owedKept b .badAnswer _)

theorem countAttempt_owedSame (i : RecordIndex) (s : State) : OwedSame s (countAttempt i s) := by
  refine modifyRecord_owedSame (fun h => ?_) fun hclean h => ?_
  · split at h
    · exact h
    · exact h
  · split at h
    · rename_i hkind
      rw [hclean h] at hkind
      rcases hkind with hkind | hkind <;> cases hkind
    · rename_i hkind
      rw [if_neg hkind]
      exact hclean h

theorem sendCompleted_owedKept (b : Branch) (s : State) : OwedKept s (sendCompleted b s) := by
  have hsent : OwedSame s (modifyBranch b (fun x => { x with contentionRun := 0 })
      (transmissionComplete (.branch b) s)) :=
    (modifyBranch_owedSame b _ s).trans (modifyBranch_owedSame b _ _)
  unfold sendCompleted
  dsimp only
  generalize modifyBranch b (fun x => { x with contentionRun := 0 }) (transmissionComplete (.branch b) s) = u at hsent ⊢
  split
  · exact (hsent.trans (enterIdle_owedSame b u)).kept
  · rename_i i _
    have hcounted := hsent.trans (countAttempt_owedSame i u)
    split
    · exact (hcounted.trans (modifyBranch_owedSame b _ _)).kept
    · exact (((hcounted.trans (groupLeave_owedSame b i _)).trans (modifyBranch_owedSame b _ _)).trans
        (enterIdle_owedSame b _)).kept

theorem transmissionContended_branch_owedSame (b : Branch) (s : State) :
    OwedSame s (transmissionContended (.branch b) s) :=
  (modifyBranch_owedSame b _ s).trans (raise_owedSame .contention _)

theorem enterFault_owedKept (b : Branch) (s : State) : OwedKept s (enterFault b s) := by
  unfold enterFault
  dsimp only
  exact (leaveService_owedKept b s).trans ((raise_owedSame .branchFault _).trans (modifyBranch_owedSame b _ _)).kept

theorem contendedBranch_owedSame (b : Branch) (s : State) : OwedSame s (contendedBranch b s) :=
  (transmissionContended_branch_owedSame b s).trans (modifyBranch_owedSame b _ _)

theorem contendedWork_owedKept (b : Branch) (s : State) : OwedKept s (contendedWork b s) := by
  unfold contendedWork
  dsimp only
  split
  · exact .refl s
  · rename_i i _
    split
    · exact ((((countAttempt_owedSame i s).trans (returnBuffer_owedSame _ _)).kept.trans
        (settleAttempt_owedKept i b .contention _)).trans (modifyBranch_owedSame b _ _).kept)
    · exact (((countAttempt_owedSame i s).trans (groupLeave_owedSame b i _)).trans (modifyBranch_owedSame b _ _)).kept

theorem sendContended_owedKept (b : Branch) (s : State) : OwedKept s (sendContended b s) := by
  have hwork := (contendedBranch_owedSame b s).kept.trans (contendedWork_owedKept b _)
  rw [sendContended_eq]
  split
  · exact hwork.trans (enterFault_owedKept b _)
  · exact hwork.trans (enterIdle_owedSame b _).kept

end Sys2Proof.Machine
end

section
/-!
The owed reply through every event of a step: the first half of the obligation of the owed reply (R101 to R104).
-/

namespace Sys2Proof.Machine

-- The gate's memory limit counts every thread's arena, so the declarations are elaborated one after another.
set_option Elab.async false

/-! ### The trunk's receive side -/

theorem modifyTrunkCounters_owedSame (f : TrunkCounters → TrunkCounters) (s : State) :
    OwedSame s (modifyTrunkCounters f s) := (modifyTrunkCounters_unmoved f s).owedSame

theorem setRx_trunk_owedSame (x : RxState) (s : State) : OwedSame s (setRx .trunk x s) :=
  owedSame_of_trunk rfl id rfl id

theorem countTruncated_trunk_owedSame (s : State) : OwedSame s (countTruncated .trunk s) :=
  (countTruncated_unmoved .trunk s).owedSame

theorem trunkClaim_owedSame (c : Byte) (s : State) : OwedSame s (trunkClaim c s) := by
  unfold trunkClaim
  split
  · exact ((modifyTrunkCounters_owedSame _ s).trans (raise_owedSame .bufExhausted _)).trans (setRx_trunk_owedSame _ _)
  · rename_i hfree
    exact (claimBuffer_owedSame (h := .trunkAssembly) nofun nofun [c] (Nat.pos_of_ne_zero hfree)).trans
      (setRx_trunk_owedSame _ _)

theorem trunkFrameStarts_owedSame (c : Byte) (s : State) : OwedSame s (trunkFrameStarts c s) := by
  unfold trunkFrameStarts
  split
  · split
    · exact ((countTruncated_trunk_owedSame s).trans (writeBuffer_owedSame _ [c] _)).trans (setRx_trunk_owedSame _ _)
    · exact (countTruncated_trunk_owedSame s).trans (trunkClaim_owedSame c _)
  · exact trunkClaim_owedSame c s
  · exact trunkClaim_owedSame c s

theorem truncateOpen_trunk_owedSame (s : State) : OwedSame s (truncateOpen .trunk s) := by
  unfold truncateOpen
  split
  · exact .refl s
  · exact setRx_trunk_owedSame _ s
  · exact ((setRx_trunk_owedSame .hunt s).trans (countTruncated_trunk_owedSame _)).trans (returnBuffer_owedSame _ _)

theorem settlePending_owedSame (s : State) : OwedSame s (settlePending s) := by
  unfold settlePending
  split
  · exact .refl s
  · refine OwedSame.trans (t := modifyTrunk (fun t => { t with pendingSetting := none }) s)
      (owedSame_of_trunk rfl id rfl id) ?_
    exact (truncateOpen_trunk_owedSame _).trans (owedSame_of_trunk rfl id rfl id)
  · rename_i a _
    let u : State := modifyTrunk (fun t => { t with pendingSetting := none }) s
    have hu : OwedSame s { u with params := { u.params with mgmtAddress := a } } := owedSame_of_trunk rfl id rfl id
    exact hu.trans ((returnBuffer_owedSame .lastResponse _).trans (owedSame_of_same rfl rfl rfl))

/-! ### Nothing owed -/

/-- Nothing is owed, and no record is awaited (R101, R102). -/
theorem owedAgrees_of_nothing {s : State} (howed : s.trunk.owed = .nothing) (htx : s.trunk.port.tx = .quiet)
    (hreply : heldCount .owedReply s = 0) (hawaited : ∀ i : RecordIndex, awaitedByTrunk s.records[i] = false)
    (hfree : FreeClean s) : OwedAgrees s ∧ s.trunk.owed = .nothing :=
  ⟨owedAgrees_iff.mpr ⟨fun h => absurd hreply h, fun h => absurd htx h,
    fun i hi => absurd ((hawaited i).symm.trans hi) nofun, hfree⟩, howed⟩

/-- What nothing owed says of the part. -/
theorem OwedAgrees.of_nothing {s : State} (h : OwedAgrees s) (hn : s.trunk.owed = .nothing) :
    s.trunk.port.tx = .quiet ∧ heldCount .owedReply s = 0 ∧
      (∀ i : RecordIndex, awaitedByTrunk s.records[i] = false) ∧ FreeClean s := by
  obtain ⟨hreply, htx, hawaited, hfree⟩ := owedAgrees_iff.mp h
  rw [hn] at hreply htx hawaited
  refine ⟨not_not.mp fun hq => ?_, not_not.mp fun hr => ?_, fun i => Bool.eq_false_iff.mpr fun hi => ?_, hfree⟩
  · rcases htx hq with h | h | h <;> cases h
  · rcases hreply hr with h | h <;> cases h
  · cases hawaited i hi

/-- A new reply is owed where nothing was (R102). -/
theorem owedAgrees_replies {s t : State} (h : OwedAgrees s) (hn : s.trunk.owed = .nothing)
    (howed : (t.trunk.owed = .answer ∨ t.trunk.owed = .proxy) ∨
      (t.trunk.owed = .response ∧ heldCount .owedReply t = heldCount .owedReply s))
    (hrecords : t.records = s.records) : OwedAgrees t := by
  obtain ⟨-, hreply, hawaited, hfree⟩ := h.of_nothing hn
  refine owedAgrees_iff.mpr ⟨fun hr => ?_, fun _ => ?_, fun i hi => ?_, fun i hi => ?_⟩
  · rcases howed with howed | ⟨-, hcount⟩
    · exact howed
    · exact absurd (hcount.trans hreply) hr
  · rcases howed with (howed | howed) | ⟨howed, -⟩
    · exact .inl howed
    · exact .inr (.inl howed)
    · exact .inr (.inr howed)
  · rw [hrecords, hawaited i] at hi
    cases hi
  · rw [hrecords] at hi ⊢
    exact hfree i hi

theorem supersedeOwed_nothing {s : State} (h : OwedAgrees s) : let t := supersedeOwed s
    t.trunk.owed = .nothing ∧ t.trunk.port.tx = .quiet ∧ heldCount .owedReply t = 0 ∧ t.records = s.records := by
  obtain ⟨hreply, htx, -, -⟩ := owedAgrees_iff.mp h
  have hempty : heldCount .owedReply (returnBuffer .owedReply (abortPort .trunk s)) = 0 := by
    rw [heldCount_returnBuffer (g := .owedReply) nofun, if_pos rfl]
  dsimp only
  unfold supersedeOwed
  cases howed : s.trunk.owed with
  | nothing =>
    obtain ⟨hq, hr, -, -⟩ := h.of_nothing howed
    exact ⟨howed, hq, hr, rfl⟩
  | pendingAnswer i =>
    rw [howed] at hreply htx
    refine ⟨rfl, not_not.mp fun hq => ?_, not_not.mp fun hr => ?_, rfl⟩
    · rcases htx hq with h | h | h <;> cases h
    · rcases hreply hr with h | h <;> cases h
  | answer | proxy | response => exact ⟨rfl, rfl, hempty, rfl⟩

theorem liveTransparent_eq_some {s : State} {i : RecordIndex} (h : liveTransparent s = some i) :
    awaitedByTrunk s.records[i] = true ∧ s.records[i].state ≠ .free := by
  have hfound := List.find?_some h
  simp only [Bool.and_eq_true, beq_iff_eq, bne_iff_ne, Bool.not_eq_true'] at hfound
  exact ⟨awaitedByTrunk_iff.mpr ⟨hfound.1.1, hfound.2⟩, hfound.1.2⟩

theorem liveTransparent_eq_none {s : State} (hfree : FreeClean s) (h : liveTransparent s = none) (i : RecordIndex) :
    awaitedByTrunk s.records[i] = false := by
  have hnot := lowestIndex_eq_none.mp h i
  refine Bool.eq_false_iff.mpr fun hi => ?_
  obtain ⟨hkind, ha⟩ := awaitedByTrunk_iff.mp hi
  have hlive : s.records[i].state ≠ .free := fun hf => by
    rw [hfree i hf] at hkind
    cases hkind
  rw [hkind, ha, beq_self_eq_true, Bool.true_and, Bool.not_false, Bool.and_true] at hnot
  exact hlive (by simpa using hnot)

/-- A supersede leaves nothing owed and no record awaited (R64, R104). -/
theorem supersede_nothing {s : State} (h : OwedAgrees s) :
    OwedAgrees (supersede s) ∧ (supersede s).trunk.owed = .nothing := by
  obtain ⟨-, -, hawaited, hfree⟩ := owedAgrees_iff.mp h
  obtain ⟨howed, htx, hreply, hrecords⟩ := supersedeOwed_nothing h
  unfold supersede
  generalize supersedeOwed s = u at howed htx hreply hrecords ⊢
  rw [← hrecords] at hawaited
  have hclean : FreeClean u := fun i hi => by
    rw [hrecords] at hi ⊢
    exact hfree i hi
  have hsuperseded : OwedAgrees (supersedeRecord u) ∧ (supersedeRecord u).trunk.owed = .nothing := by
    unfold supersedeRecord
    split
    · rename_i hnone
      exact owedAgrees_of_nothing howed htx hreply (liveTransparent_eq_none hclean hnone) hclean
    · rename_i i hsome
      obtain ⟨hi, hlive⟩ := liveTransparent_eq_some hsome
      have honly : ∀ j ≠ i, awaitedByTrunk u.records[j] = false := fun j hj => by
        refine Bool.eq_false_iff.mpr fun hawait => ?_
        have hboth := (hawaited j hawait).symm.trans (hawaited i hi)
        injection hboth with hji
        exact hj hji
      split
      · have hsame := freeRecord_owedSame i u
        refine owedAgrees_of_nothing (hsame.owed.trans howed) (hsame.tx htx) (hsame.reply hreply) (fun j => ?_)
          (hsame.free hclean)
        rw [freeRecord_records]
        split
        · rfl
        · rename_i hj
          exact honly j hj
      · have hsame : OwedSame u (modifyRecord i (fun r => { r with abandoned := true }) u) :=
          modifyRecord_owedSame (fun h => by
            obtain ⟨-, h⟩ := awaitedByTrunk_iff.mp h
            cases h) fun _ hstate => absurd hstate hlive
        refine owedAgrees_of_nothing (hsame.owed.trans howed) (hsame.tx htx) (hsame.reply hreply) (fun j => ?_)
          (hsame.free hclean)
        by_cases hj : j = i
        · subst hj
          rw [modifyRecord_same]
          unfold awaitedByTrunk
          rw [Bool.not_true, Bool.and_false]
        · rw [modifyRecord_other i hj]
          exact honly j hj
  have hsettled := (settlePending_owedSame (supersedeRecord u)).kept
  exact ⟨hsettled.agrees hsuperseded.1, hsettled.nothing hsuperseded.1 hsuperseded.2⟩

/-- A reply that has ended on the line leaves nothing owed (R109, R110). -/
theorem finishOwed_nothing {s u : State} (h : OwedAgrees s) (hsending : s.trunk.port.tx.sending = true)
    (htx : u.trunk.port.tx = .quiet) (hrecords : u.records = s.records) :
    OwedAgrees (settlePending (finishOwed u)) := by
  obtain ⟨-, hsent, hawaited, hfree⟩ := owedAgrees_iff.mp h
  have hne : s.trunk.port.tx ≠ .quiet := fun hq => by
    rw [hq] at hsending
    cases hsending
  refine (settlePending_owedSame _).kept.agrees
    (owedAgrees_of_nothing (s := finishOwed u) rfl htx ?_ (fun i => ?_) fun i hi => ?_).1
  · show heldCount .owedReply (returnBuffer .owedReply u) = 0
    rw [heldCount_returnBuffer (g := .owedReply) nofun, if_pos rfl]
  · rw [show (finishOwed u).records = s.records from hrecords]
    refine Bool.eq_false_iff.mpr fun hi => ?_
    have hpending := hawaited i hi
    rw [hpending] at hsent
    rcases hsent hne with h | h | h <;> cases h
  · rw [show (finishOwed u).records = s.records from hrecords] at hi ⊢
    exact hfree i hi

/-! ### Grants and timers -/

theorem dequeue_owedSame (b : Branch) (i : RecordIndex) (s : State) : OwedSame s (dequeue b i s) :=
  modifyBranch_owedSame b _ s

theorem assign_owedSame (b : Branch) (i : RecordIndex) (f : TxFrame) (s : State) : OwedSame s (assign b i f s) :=
  (modifyBranch_owedSame b _ s).trans (modifyBranch_owedSame b _ _)

theorem grantRecord_owedSame (b : Branch) (i : RecordIndex) {s : State} (hgate : gateOpen s = true) :
    OwedSame s (grantRecord b i s) := by
  have hline : ∀ u, OwedSame u (modifyRecord i (fun r => { r with state := .onLine }) u) := fun u =>
    modifyRecord_owedSame id fun _ h => nomatch h
  exact (((claimBuffer_owedSame (h := .branchAnswer b) nofun nofun [] (freeCount_pos_of_gateOpen hgate)).trans
    (dequeue_owedSame b i _)).trans (hline _)).trans (assign_owedSame b i _ _)

theorem grantGroup_owedSame (b : Branch) {i : RecordIndex} {s : State} (hkind : s.records[i].kind = some .group) :
    OwedSame s (grantGroup b i s) := by
  have hsent : OwedSame (dequeue b i s) (modifyRecord i (fun r => { r with
      pendingSet := setWithout r.pendingSet b, sendingSet := setWith r.sendingSet b }) (dequeue b i s)) := by
    refine modifyRecord_owedSame id fun hclean hstate => ?_
    have hgroup : (dequeue b i s).records[i].kind = some .group := hkind
    rw [hclean hstate] at hgroup
    cases hgroup
  exact ((dequeue_owedSame b i s).trans hsent).trans (assign_owedSame b i _ _)

/-- A new record that the trunk does not wait for. -/
theorem newRecord_owedSame (i : RecordIndex) {r : Record} (ha : awaitedByTrunk r = false) (hr : r.state ≠ .free)
    (s : State) : OwedSame s (modifyRecord i (fun _ => r) s) :=
  modifyRecord_owedSame (fun h => absurd (ha.symm.trans h) nofun) fun _ h => absurd h hr

theorem grantSlot_owedSame (b : Branch) (k : SlotIndex) {s : State} (hgate : gateOpen s = true) :
    OwedSame s (grantSlot b k s) := by
  unfold grantSlot
  split
  · rename_i i c _ _
    exact (((claimBuffer_owedSame (h := .branchAnswer b) nofun nofun [] (freeCount_pos_of_gateOpen hgate)).trans
      (newRecord_owedSame i (r := cyclicRecord b k c.lineAddress) rfl nofun _)).trans (modifySlot_owedSame k _ _)).trans
      (assign_owedSame b i _ _)
  · exact .refl s

theorem setServed_owedSame (b : Branch) (m : Served) (s : State) : OwedSame s (setServed b m s) :=
  modifyBranch_owedSame b _ s

theorem chooseGrant_owedSame {b : Branch} {s t : State} (h : chooseGrant b s = some t) : OwedSame s t := by
  rcases chooseGrant_cases h with h | h | h
  · unfold tryTransparent at h
    split at h
    · cases h
    · split at h
      · rename_i hgate
        obtain rfl := Option.some.inj h
        exact grantRecord_owedSame b _ hgate
      · cases h
  · unfold tryQueueClass at h
    split at h
    · cases h
    · split at h
      · rename_i hkind
        obtain rfl := Option.some.inj h
        exact (grantGroup_owedSame b hkind).trans (setServed_owedSame b _ _)
      · split at h
        · rename_i hgate
          obtain rfl := Option.some.inj h
          exact (grantRecord_owedSame b _ hgate).trans (setServed_owedSame b _ _)
        · cases h
  · unfold tryPollClass at h
    split at h
    · cases h
    · split at h
      · rename_i hready
        obtain rfl := Option.some.inj h
        exact (grantSlot_owedSame b _ hready.1).trans (setServed_owedSame b _ _)
      · cases h

theorem arbitrate_owedSame (b : Branch) (s : State) : OwedSame s (arbitrate b s) := by
  unfold arbitrate
  split
  · split
    · split
      · rename_i t ht
        exact chooseGrant_owedSame ht
      · unfold stallBranch
        split
        · exact .refl s
        · exact modifyBranch_owedSame b _ s
    · exact modifyBranch_owedSame b _ s
  · exact .refl s

theorem countMillisecond_owedSame (s : State) : OwedSame s (countMillisecond s) where
  owed := rfl
  tx := id
  reply := id
  awaited i hi := by
    rw [countMillisecond_record] at hi
    exact hi
  free hs i hi := by
    rw [countMillisecond_record] at hi ⊢
    rw [hs i hi]
    rfl

theorem holdExpire_owedSame (i : RecordIndex) (s : State) : OwedSame s (holdExpire i s) := by
  unfold holdExpire
  split
  · dsimp only
    refine OwedSame.trans ?_ (freeRecord_owedSame i _)
    refine OwedSame.trans ?_ (raise_owedSame .uncollected _)
    split
    · exact modifyBranch_owedSame _ _ s
    · exact .refl s
  · exact .refl s

theorem slotExpire_owedSame (k : SlotIndex) (s : State) : OwedSame s (slotExpire k s) := by
  unfold slotExpire
  split
  · exact .refl s
  · dsimp only
    split
    · exact .refl s
    · exact .refl s
    · split
      · exact (modifySlot_owedSame k _ s).trans (modifySlot_owedSame k _ _)
      · exact ((modifySlot_owedSame k _ s).trans (modifySlot_owedSame k _ _)).trans (modifyBranch_owedSame _ _ _)
    all_goals exact ((modifySlot_owedSame k _ s).trans (modifySlot_owedSame k _ _)).trans (raise_owedSame _ _)

/-! ### Commands -/

theorem createDeferred_owedSame (i : RecordIndex) (a : Byte) (data : List Byte) (e : RouteEntry) {s : State}
    (hgate : gateOpen s = true) : OwedSame s (createDeferred i a data e s) := by
  have hclaimed : OwedSame s (claimBuffer (.request i) (mkFrame a data) s) :=
    claimBuffer_owedSame (h := .request i) nofun nofun _ (freeCount_pos_of_gateOpen hgate)
  have hnew := hclaimed.trans (newRecord_owedSame i
    (r := deferredRecord (issuedTag s) a (outgoing e a) (stationBranch e) e.retries) rfl nofun _)
  exact hnew.trans (owedSame_of_same rfl rfl rfl)

theorem endIdleStalls_owedSame (s : State) : OwedSame s (endIdleStalls s) := owedSame_of_same rfl rfl rfl

theorem stopSlot_owedSame (k : SlotIndex) (s : State) : OwedSame s (stopSlot k s) := by
  unfold stopSlot
  split
  · exact (modifySlot_owedSame k _ s).trans (endIdleStalls_owedSame _)
  · exact (modifySlot_owedSame k _ s).trans (endIdleStalls_owedSame _)
  · exact modifySlot_owedSame k _ s
  all_goals exact .refl s

theorem discardSnapshot_owedSame (k : SlotIndex) (s : State) : OwedSame s (discardSnapshot k s) :=
  (returnBuffer_owedSame (.snapshot k) s).trans (modifySlot_owedSame k _ _)

theorem restartPart_record (s : State) (i : RecordIndex) : (restartPart s).records[i] = .free :=
  Vector.getElem_replicate i.isLt

theorem heldCount_restartPart {h : Holder} (hf : h ≠ .free) (s : State) : heldCount h (restartPart s) =
    if h = .trunkAssembly ∨ h = .lastResponse then heldCount h s else 0 := by
  show heldCount h { s with buffers := mapTable restartBuffer s.buffers } = _
  rw [heldCount_mapTable]
  split
  · rename_i hh
    unfold heldCount
    refine List.countP_congr fun c _ => ?_
    unfold restartBuffer
    split
    · rfl
    · rename_i hc
      have hne : c.holder ≠ h := fun e => hc (by rwa [← e] at hh)
      simp [Buffer.empty, hne, hf.symm]
  · rename_i hh
    rw [List.countP_eq_zero]
    intro c _
    unfold restartBuffer
    split
    · rename_i hc
      have hne : c.holder ≠ h := fun e => hh (by rwa [e] at hc)
      simpa using hne
    · simpa [Buffer.empty] using hf.symm

theorem restartPart_nothing (s : State) : OwedAgrees (restartPart s) ∧ (restartPart s).trunk.owed = .nothing := by
  refine owedAgrees_of_nothing rfl rfl ?_ (fun i => ?_) fun i _ => restartPart_record s i
  · rw [heldCount_restartPart (h := .owedReply) nofun, if_neg (by simp)]
  · rw [restartPart_record]
    rfl

/-! ### The invariant -/

/-- The owed reply agrees, and nothing is owed once a frame has superseded (R104). -/
def OwedIn (ph : Phase) (s : State) : Prop := OwedAgrees s ∧ (ph = .superseding → s.trunk.owed = .nothing)

theorem OwedKept.within {ph : Phase} {s t : State} (h : OwedKept s t) (hs : OwedIn ph s) : OwedIn ph t :=
  ⟨h.agrees hs.1, fun hph => h.nothing hs.1 (hs.2 hph)⟩

theorem OwedSame.within {ph : Phase} {s t : State} (h : OwedSame s t) (hs : OwedIn ph s) : OwedIn ph t :=
  h.kept.within hs

theorem OwedIn.leaves {ph : Phase} {s : State} (h : OwedIn ph s) : OwedIn .clear s := ⟨h.1, nofun⟩

theorem buildResponse_owedAgrees (code seq : Byte) {r : Reply} (h : OwedIn .superseding r.state) :
    OwedAgrees (buildResponse code seq r) := by
  refine owedAgrees_replies h.1 (h.2 rfl) (.inr ⟨rfl, ?_⟩) (buildResponse_records code seq r)
  have htaken : heldCount .owedReply (takeResponseBuffer r.state) = heldCount .owedReply r.state := by
    unfold takeResponseBuffer
    rw [heldCount_handOver (h := .trunkAssembly) (g := .lastResponse) nofun, if_neg nofun, if_neg nofun,
      heldCount_returnBuffer (g := .owedReply) nofun, if_neg nofun]
  rw [← htaken]
  unfold buildResponse
  exact heldCount_writeBuffer .owedReply .lastResponse _ (takeResponseBuffer r.state)

/-- Every event keeps the owed reply in agreement. -/
theorem owedAgrees_invariant : StepInvariant OwedIn where
  unmoved h hs := h.owedSame.within hs
  reset a r held waiting := ⟨(invariants_resetPart a r held waiting).2.2.2.1, nofun⟩
  frameStarts c _ _ hs := (trunkFrameStarts_owedSame c _).within hs
  assemblyEnds x s _ hs := ((setRx_trunk_owedSame x s).trans (returnBuffer_owedSame _ _)).within hs
  frameTaken _ hs := ⟨((setRx_trunk_owedSame .hunt _).within hs).1, nofun⟩
  supersedesFollowed _ _ hs := ⟨(supersede_nothing hs.1).1, nofun⟩
  supersedes _ _ hs := ⟨(supersede_nothing hs.1).1, fun _ => (supersede_nothing hs.1).2⟩
  dropped hs := ((returnBuffer_owedSame _ _).within hs).leaves
  group line x i s _ _ hs := by
    have hrecord := (handOver_owedSame (h := .trunkAssembly) (g := .request i) nofun nofun s).trans
      (newRecord_owedSame i (r := groupRecord line (inServiceSet s x)) rfl nofun _)
    exact ((hrecord.trans (owedSame_of_same rfl rfl rfl)).within hs).leaves
  transparent a line b retries notify i s _ _ hs := by
    obtain ⟨htx, hreply, hawaited, hfree⟩ := hs.1.of_nothing (hs.2 rfl)
    refine ⟨owedAgrees_iff.mpr ⟨fun h => absurd ?_ h, fun h => absurd htx h, fun j hj => ?_, fun j hj => ?_⟩, nofun⟩
    · show heldCount .owedReply (handOver .trunkAssembly (.request i) s) = 0
      rw [heldCount_handOver (h := .trunkAssembly) (g := .request i) nofun, if_neg nofun, if_neg nofun]
      exact hreply
    · by_cases h : j = i
      · subst h
        rfl
      · have hsame : awaitedByTrunk (modifyRecord i (fun _ => transparentRecord a line b retries notify)
          (handOver .trunkAssembly (.request i) s)).records[j] = true := hj
        rw [modifyRecord_other i h] at hsame
        exact absurd ((hawaited j).symm.trans hsame) nofun
    · have hnew : FreeClean (modifyRecord i (fun _ => transparentRecord a line b retries notify)
          (handOver .trunkAssembly (.request i) s)) := by
        intro j hj
        by_cases h : j = i
        · subst h
          rw [modifyRecord_same] at hj
          cases hj
        · rw [modifyRecord_other i h] at hj ⊢
          exact hfree j hj
      exact hnew j hj
  proxy a reason s hs := ⟨owedAgrees_replies hs.1 (hs.2 rfl) (.inl (.inr rfl)) rfl, nofun⟩
  answered code seq r hs := ⟨buildResponse_owedAgrees code seq hs, nofun⟩
  replayed _ hs := by
    refine ⟨owedAgrees_replies hs.1 (hs.2 rfl) (.inr ⟨rfl, ?_⟩) rfl, nofun⟩
    exact (heldCount_returnBuffer (g := .owedReply) nofun .trunkAssembly _).trans (if_neg nofun)
  replyStarts {f s} hlead hs := by
    refine OwedSame.within ⟨?_, fun h => ?_, fun h => ?_, fun i h => ?_, fun h => ?_⟩ hs
    · exact (truncateOpen_trunk_owedSame s).owed
    · rw [hlead] at h
      cases h
    · exact (truncateOpen_trunk_owedSame s).reply h
    · exact (truncateOpen_trunk_owedSame s).awaited i h
    · exact (truncateOpen_trunk_owedSame s).free h
  replySent hq hs := ⟨finishOwed_nothing hs.1 hq rfl rfl, nofun⟩
  replyLost hq hs := ⟨finishOwed_nothing hs.1 hq rfl rfl, nofun⟩
  branchSends {b _ s} _ ha hs := by
    exact ((truncateOpen_branch_unmoved ha).owedSame.trans
      ((modifyBranch_owedSame b _ _).trans (modifyBranch_owedSame b _ _))).within hs
  answerBegins _ hs := (modifyBranch_owedSame _ _ _).within hs
  attemptOver o _ _ hs := (attemptEnds_owedKept _ o _).within hs
  answerJudged a _ _ hs := (answerGood_owedKept _ a _).within hs
  sendDone _ hs := (sendCompleted_owedKept _ _).within hs
  sendLost _ hs := (sendContended_owedKept _ _).within hs
  arbitrated b _ hs := (arbitrate_owedSame b _).within hs
  millisecond hs := (countMillisecond_owedSame _).within hs
  quarantine b _ hs := (quarantineExpire_owedSame b _).within hs
  hold i _ hs := (holdExpire_owedSame i _).within hs
  slotExpired k _ hs := (slotExpire_owedSame k _).within hs
  submitted a _ data e _ _ _ _ hgate hs := (createDeferred_owedSame _ a data e hgate).within hs
  collected _ hs := (freeRecord_owedSame _ _).within hs
  cancelled {i s} hkind hline hs := by
    refine (modifyRecord_owedSame (f := fun r => { r with cancelPending := true }) id fun _ h => ?_).within hs
    exact absurd (hline.symm.trans h) nofun
  pollSet c _ _ hs := ((discardSnapshot_owedSame _ _).trans (modifySlot_owedSame _ _ _)).within hs
  pollUnset _ hs := ((discardSnapshot_owedSame _ _).trans (modifySlot_owedSame _ _ _)).within hs
  pollStarted _ _ _ hs := (modifySlot_owedSame _ _ _).within hs
  pollStopped k _ hs := (stopSlot_owedSame k _).within hs
  enabled b _ hs := (enableBranch_owedSame b _).within hs
  disabled b _ hs := (disableBranch_owedKept b _).within hs
  restarted _ := ⟨(restartPart_nothing _).1, fun _ => (restartPart_nothing _).2⟩

theorem step_owedAgrees {s t : State} (hs : OwedAgrees s) (ht : step s = .next t) : OwedAgrees t :=
  (owedAgrees_invariant.steps (s := s) ⟨hs, nofun⟩ ht).1

end Sys2Proof.Machine
end

section
/-!
The agreement of the records, the queues, the lists, the slots and the buffers, cut by what each part of it speaks of: a
record, a branch, a slot, the trunk (R45, R50, R65, R118, R130).
-/

namespace Sys2Proof.Machine

-- The gate's memory limit counts every thread's arena, so the declarations are elaborated one after another.
set_option Elab.async false

/-! ### What the queues, lists and buffers see of a record and of a slot -/

/-- What the queues, the slots and the pool see of a record. -/
def Record.place (r : Record) :
    Option RecordKind × RecordState × Option Branch × BranchSet × BranchSet × Option SlotIndex × Bool :=
  (r.kind, r.state, r.branch, r.pendingSet, r.sendingSet, r.slot, r.outcome == some .answered)

/-- The record has its REQUEST in a buffer (R118). -/
def wantsRequest (r : Record) : Bool :=
  r.kind != some .cyclic && (r.state == .queued || r.state == .onLine || r.state == .delivering)

theorem place_fields {r q : Record} (h : q.place = r.place) : q.kind = r.kind ∧ q.state = r.state ∧
    q.branch = r.branch ∧ q.pendingSet = r.pendingSet ∧ q.sendingSet = r.sendingSet ∧ q.slot = r.slot ∧
    (q.outcome == some .answered) = (r.outcome == some .answered) := by
  unfold Record.place at h
  simpa only [Prod.mk.injEq] using h

theorem waitsOn_place {r q : Record} (h : q.place = r.place) (b : Branch) : waitsOn b q = waitsOn b r := by
  obtain ⟨-, hstate, hbranch, hpending, -⟩ := place_fields h
  unfold waitsOn
  rw [hstate, hbranch, hpending]

theorem servedOn_place {r q : Record} (h : q.place = r.place) (b : Branch) : servedOn b q = servedOn b r := by
  obtain ⟨-, hstate, hbranch, -, hsending, -⟩ := place_fields h
  unfold servedOn
  rw [hstate, hbranch, hsending]

theorem isStationKind_kind {r q : Record} (h : q.kind = r.kind) : isStationKind q = isStationKind r := by
  unfold isStationKind
  rw [h]

theorem wantsRequest_place {r q : Record} (h : q.place = r.place) : wantsRequest q = wantsRequest r := by
  obtain ⟨hkind, hstate, -⟩ := place_fields h
  unfold wantsRequest
  rw [hkind, hstate]

/-- A poll of the slot is on line, to be kept or not (R131). -/
def SlotState.polling (x : SlotState) : Prop := x = .onLine ∨ x = .stopping

/-! ### The parts of the agreement -/

/-- A record with its own buffers and its place in the completion list. -/
structure RecordFits (i : RecordIndex) (s : State) : Prop where
  agrees : recordAgrees s.records[i] = true
  listed : i ∈ s.completions ↔ s.records[i].state = .ended
  request : heldCount (.request i) s = if wantsRequest s.records[i] then 1 else 0
  answer : heldCount (.answer i) s = if s.records[i].outcome == some .answered then 1 else 0

/-- A branch with its queue, its assignment and its answer buffer. -/
structure BranchFits (b : Branch) (s : State) : Prop where
  nodup : s.branches[b].queue.Nodup
  outOfService : inService s b = false → s.branches[b].queue = []
  waits : ∀ i : RecordIndex, i ∈ s.branches[b].queue ↔ waitsOn b s.records[i] = true
  serves : ∀ i : RecordIndex, s.branches[b].onLine = some i ↔ servedOn b s.records[i] = true
  station : ∀ i : RecordIndex, s.branches[b].onLine = some i →
    s.branches[b].status = .await ∨ s.branches[b].status = .recv → isStationKind s.records[i] = true
  answer : heldCount (.branchAnswer b) s =
    if s.branches[b].onLine.any fun i => isStationKind s.records[i] then 1 else 0

/-- A slot with its poll and its snapshot. -/
structure SlotFits (k : SlotIndex) (s : State) : Prop where
  config : s.slots[k].config.isNone ↔ s.slots[k].state = .unset
  polled : (∃ i : RecordIndex, s.records[i].slot = some k) ↔ s.slots[k].state.polling
  poll : ∀ i : RecordIndex, s.records[i].slot = some k →
    s.records[i].kind = some .cyclic ∧ s.records[i].branch = s.slots[k].config.map (fun c => c.branch)
  once : ∀ i j : RecordIndex, s.records[i].slot = some k → s.records[j].slot = some k → i = j
  snapshot : heldCount (.snapshot k) s = if s.slots[k].age.isSome then 1 else 0

/-- The trunk with its buffers; `taken` while a whole frame is in hand, its assembly closed (R104). -/
structure TrunkFits (taken : Bool) (s : State) : Prop where
  assembly : heldCount .trunkAssembly s = if taken || storing .trunk s then 1 else 0
  reply : heldCount .owedReply s = if s.trunk.owed == .answer || s.trunk.owed == .proxy then 1 else 0
  response : heldCount .lastResponse s = if s.lastCode.isSome then 1 else 0
  hunts : taken = true ∨ s.trunk.port.tx.sending = true → s.trunk.port.rx = .hunt

/-- Every part agrees, but for a branch whose work is being settled, if one is. -/
structure Fits (settling : Option Branch) (taken : Bool) (s : State) : Prop where
  records : ∀ i : RecordIndex, RecordFits i s
  branches : ∀ b : Branch, some b ≠ settling → BranchFits b s
  slots : ∀ k : SlotIndex, SlotFits k s
  nodup : s.completions.Nodup
  trunk : TrunkFits taken s

theorem fits_iff {s : State} : Fits none false s ↔ TableAgrees s := by
  constructor
  · intro h
    refine ⟨fun i => (h.records i).agrees, fun b => ?_, ⟨h.nodup, fun i => (h.records i).listed⟩, ⟨fun k => ?_, ?_⟩,
      fun g hg => ?_, fun hs => h.trunk.hunts (.inr hs)⟩
    · obtain ⟨hnodup, hout, hwaits, hserves, hstation, -⟩ := h.branches b nofun
      exact ⟨hnodup, hout, fun i => ⟨hwaits i, hserves i, hstation i⟩⟩
    · exact ⟨(h.slots k).config, (h.slots k).polled⟩
    · intro i j k hi
      exact ⟨((h.slots k).poll i hi).1, ((h.slots k).poll i hi).2, (h.slots k).once i j hi⟩
    · cases g with
      | free => exact absurd rfl hg
      | trunkAssembly => exact h.trunk.assembly
      | branchAnswer b => exact (h.branches b nofun).answer
      | request i => exact (h.records i).request
      | answer i => exact (h.records i).answer
      | snapshot k => exact (h.slots k).snapshot
      | owedReply => exact h.trunk.reply
      | lastResponse => exact h.trunk.response
  · rintro ⟨hrecords, hqueues, ⟨hnodup, hlist⟩, ⟨hslots, hpolls⟩, hheld, hsends⟩
    refine ⟨fun i => ?_, fun b _ => ?_, fun k => ?_, hnodup, ?_⟩
    · exact ⟨hrecords i, hlist i, hheld (.request i) nofun, hheld (.answer i) nofun⟩
    · obtain ⟨hn, hout, hrest⟩ := hqueues b
      exact ⟨hn, hout, fun i => (hrest i).1, fun i => (hrest i).2.1, fun i => (hrest i).2.2,
        hheld (.branchAnswer b) nofun⟩
    · exact ⟨(hslots k).1, (hslots k).2, fun i hi => ⟨(hpolls i i k hi).1, (hpolls i i k hi).2.1⟩,
        fun i j hi => (hpolls i j k hi).2.2, hheld (.snapshot k) nofun⟩
    · exact ⟨hheld .trunkAssembly nofun, hheld .owedReply nofun, hheld .lastResponse nofun,
        fun h => hsends (h.resolve_left nofun)⟩

/-! ### Parts left as they are -/

/-- What the agreement sees of record `i` is the same. -/
structure RecordSame (i : RecordIndex) (s t : State) : Prop where
  agrees : recordAgrees s.records[i] = true → recordAgrees t.records[i] = true
  place : t.records[i].place = s.records[i].place
  listed : i ∈ t.completions ↔ i ∈ s.completions
  request : heldCount (.request i) t = heldCount (.request i) s
  answer : heldCount (.answer i) t = heldCount (.answer i) s

theorem recordSame_of_eq {i : RecordIndex} {s t : State} (h : t.records[i] = s.records[i])
    (hlist : i ∈ t.completions ↔ i ∈ s.completions) (hrequest : heldCount (.request i) t = heldCount (.request i) s)
    (hanswer : heldCount (.answer i) t = heldCount (.answer i) s) : RecordSame i s t :=
  ⟨fun hs => by rw [h]; exact hs, by rw [h], hlist, hrequest, hanswer⟩

theorem RecordSame.fits {i : RecordIndex} {s t : State} (h : RecordSame i s t) (hs : RecordFits i s) :
    RecordFits i t := by
  obtain ⟨-, hstate, -, -, -, -, hanswered⟩ := place_fields h.place
  refine ⟨h.agrees hs.agrees, ?_, ?_, ?_⟩
  · rw [h.listed, hs.listed, hstate]
  · rw [h.request, hs.request, wantsRequest_place h.place]
  · rw [h.answer, hs.answer, hanswered]

/-- What the agreement sees of branch `b` is the same. -/
structure BranchSame (b : Branch) (s t : State) : Prop where
  queue : t.branches[b].queue = s.branches[b].queue
  onLine : t.branches[b].onLine = s.branches[b].onLine
  service : inService t b = false → inService s b = false
  status : t.branches[b].status = .await ∨ t.branches[b].status = .recv →
    s.branches[b].status = .await ∨ s.branches[b].status = .recv
  waits : ∀ i : RecordIndex, waitsOn b t.records[i] = waitsOn b s.records[i]
  serves : ∀ i : RecordIndex, servedOn b t.records[i] = servedOn b s.records[i]
  station : ∀ i : RecordIndex, s.branches[b].onLine = some i →
    isStationKind t.records[i] = isStationKind s.records[i]
  answer : heldCount (.branchAnswer b) t = heldCount (.branchAnswer b) s

theorem BranchSame.fits {b : Branch} {s t : State} (h : BranchSame b s t) (hs : BranchFits b s) : BranchFits b t where
  nodup := by rw [h.queue]; exact hs.nodup
  outOfService hout := by rw [h.queue]; exact hs.outOfService (h.service hout)
  waits i := by rw [h.queue, h.waits]; exact hs.waits i
  serves i := by rw [h.onLine, h.serves]; exact hs.serves i
  station i hi hst := by
    rw [h.onLine] at hi
    rw [h.station i hi]
    exact hs.station i hi (h.status hst)
  answer := by
    rw [h.answer, hs.answer, h.onLine]
    cases hon : s.branches[b].onLine with
    | none => rfl
    | some i =>
      show (if isStationKind s.records[i] then 1 else 0) = if isStationKind t.records[i] then 1 else 0
      rw [h.station i hon]

/-- What the agreement sees of slot `k` is the same. -/
structure SlotSame (k : SlotIndex) (s t : State) : Prop where
  config : t.slots[k].config = s.slots[k].config
  unset : t.slots[k].state = .unset ↔ s.slots[k].state = .unset
  polling : t.slots[k].state.polling ↔ s.slots[k].state.polling
  age : t.slots[k].age.isSome = s.slots[k].age.isSome
  slot : ∀ i : RecordIndex, t.records[i].slot = some k ↔ s.records[i].slot = some k
  poll : ∀ i : RecordIndex, s.records[i].slot = some k →
    t.records[i].kind = s.records[i].kind ∧ t.records[i].branch = s.records[i].branch
  snapshot : heldCount (.snapshot k) t = heldCount (.snapshot k) s

theorem SlotSame.fits {k : SlotIndex} {s t : State} (h : SlotSame k s t) (hs : SlotFits k s) : SlotFits k t where
  config := by rw [h.config, h.unset]; exact hs.config
  polled := by
    rw [h.polling, ← hs.polled]
    exact exists_congr h.slot
  poll i hi := by
    have hi' := (h.slot i).mp hi
    rw [(h.poll i hi').1, (h.poll i hi').2, h.config]
    exact hs.poll i hi'
  once i j hi hj := hs.once i j ((h.slot i).mp hi) ((h.slot j).mp hj)
  snapshot := by rw [h.snapshot, hs.snapshot, h.age]

theorem slotSame_of_slot {k : SlotIndex} {s t : State} (hslot : t.slots[k] = s.slots[k])
    (hrecords : ∀ i : RecordIndex, t.records[i] = s.records[i] ∨
      (t.records[i].slot ≠ some k ∧ s.records[i].slot ≠ some k) ∨
      (t.records[i].slot = s.records[i].slot ∧ t.records[i].kind = s.records[i].kind ∧
        t.records[i].branch = s.records[i].branch))
    (hcount : heldCount (.snapshot k) t = heldCount (.snapshot k) s) : SlotSame k s t where
  config := by rw [hslot]
  unset := by rw [hslot]
  polling := by rw [hslot]
  age := by rw [hslot]
  slot i := by
    rcases hrecords i with h | ⟨ht, hs⟩ | ⟨h, -⟩
    · rw [h]
    · exact ⟨fun e => absurd e ht, fun e => absurd e hs⟩
    · rw [h]
  poll i hi := by
    rcases hrecords i with h | ⟨-, hs⟩ | ⟨-, hkind, hbranch⟩
    · rw [h]
      exact ⟨rfl, rfl⟩
    · exact absurd hi hs
    · exact ⟨hkind, hbranch⟩
  snapshot := hcount

/-- What the agreement sees of the trunk is the same. -/
theorem TrunkFits.same {taken : Bool} {s t : State} (hs : TrunkFits taken s) (howed : t.trunk.owed = s.trunk.owed)
    (hsending : t.trunk.port.tx.sending = s.trunk.port.tx.sending) (hrx : t.trunk.port.rx = s.trunk.port.rx)
    (hlast : t.lastCode = s.lastCode) (hassembly : heldCount .trunkAssembly t = heldCount .trunkAssembly s)
    (hreply : heldCount .owedReply t = heldCount .owedReply s)
    (hresponse : heldCount .lastResponse t = heldCount .lastResponse s) : TrunkFits taken t where
  assembly := by
    rw [hassembly, hs.assembly]
    unfold storing State.port
    rw [hrx]
  reply := by rw [hreply, hs.reply, howed]
  response := by rw [hresponse, hs.response, hlast]
  hunts h := by
    rw [hrx]
    exact hs.hunts (by rwa [hsending] at h)

/-! ### The agreement from its parts -/

/-- Each part agrees anew, or is left as it was. -/
theorem Fits.touch {x y : Option Branch} {taken after : Bool} {s t : State} (hs : Fits x taken s)
    (records : ∀ i : RecordIndex, RecordFits i t ∨ RecordSame i s t)
    (branches : ∀ b : Branch, some b ≠ y → BranchFits b t ∨ some b ≠ x ∧ BranchSame b s t)
    (slots : ∀ k : SlotIndex, SlotFits k t ∨ SlotSame k s t) (nodup : t.completions.Nodup)
    (trunk : TrunkFits after t) : Fits y after t where
  records i := (records i).elim id fun h => h.fits (hs.records i)
  branches b hb := (branches b hb).elim id fun h => h.2.fits (hs.branches b h.1)
  slots k := (slots k).elim id fun h => h.fits (hs.slots k)
  nodup := nodup
  trunk := trunk

/-- A holder that is a branch, a record or a slot. -/
def Holder.ofBlock : Holder → Prop
  | .branchAnswer _ | .request _ | .answer _ | .snapshot _ => True
  | .free | .trunkAssembly | .owedReply | .lastResponse => False

theorem Holder.ofBlock.ne_free {h : Holder} (hb : h.ofBlock) : h ≠ .free := by
  rintro rfl
  exact hb

/-- What the agreement sees of every record, branch and slot is the same. -/
structure BlocksSame (s t : State) : Prop where
  agrees : ∀ i : RecordIndex, recordAgrees s.records[i] = true → recordAgrees t.records[i] = true
  place : ∀ i : RecordIndex, t.records[i].place = s.records[i].place
  completions : t.completions = s.completions
  work : ∀ b : Branch, t.branches[b].queue = s.branches[b].queue ∧ t.branches[b].onLine = s.branches[b].onLine
  service : ∀ b : Branch, inService t b = false → inService s b = false
  status : ∀ b : Branch, t.branches[b].status = .await ∨ t.branches[b].status = .recv →
    s.branches[b].status = .await ∨ s.branches[b].status = .recv
  slots : ∀ k : SlotIndex, t.slots[k].config = s.slots[k].config ∧
    (t.slots[k].state = .unset ↔ s.slots[k].state = .unset) ∧
    (t.slots[k].state.polling ↔ s.slots[k].state.polling) ∧ t.slots[k].age.isSome = s.slots[k].age.isSome
  held : ∀ h : Holder, h.ofBlock → heldCount h t = heldCount h s

theorem Fits.of_blocks {x : Option Branch} {taken after : Bool} {s t : State} (hs : Fits x taken s)
    (h : BlocksSame s t) (trunk : TrunkFits after t) : Fits x after t := by
  refine hs.touch (fun i => .inr ?_) (fun b hb => .inr ⟨hb, ?_⟩) (fun k => .inr ?_)
    (by rw [h.completions]; exact hs.nodup)
    trunk
  · exact ⟨h.agrees i, h.place i, by rw [h.completions], h.held (.request i) trivial, h.held (.answer i) trivial⟩
  · exact ⟨(h.work b).1, (h.work b).2, h.service b, h.status b, fun i => waitsOn_place (h.place i) b,
      fun i => servedOn_place (h.place i) b, fun i _ => isStationKind_kind (place_fields (h.place i)).1,
      h.held (.branchAnswer b) trivial⟩
  · obtain ⟨hconfig, hunset, hpolling, hage⟩ := h.slots k
    refine ⟨hconfig, hunset, hpolling, hage, fun i => ?_, fun i _ => ?_, h.held (.snapshot k) trivial⟩
    · obtain ⟨-, -, -, -, -, hslot, -⟩ := place_fields (h.place i)
      rw [hslot]
    · obtain ⟨hkind, -, hbranch, -⟩ := place_fields (h.place i)
      exact ⟨hkind, hbranch⟩

/-- What touches only the trunk and the pool. -/
theorem blocksSame_of_same {s t : State} (hb : t.branches = s.branches) (hr : t.records = s.records)
    (hc : t.completions = s.completions) (hs : t.slots = s.slots)
    (held : ∀ h : Holder, h.ofBlock → heldCount h t = heldCount h s) : BlocksSame s t where
  agrees i hi := by rw [hr]; exact hi
  place i := by rw [hr]
  completions := hc
  work b := by rw [hb]; exact ⟨rfl, rfl⟩
  service b h := by
    unfold inService at h ⊢
    rwa [hb] at h
  status b h := by rwa [hb] at h
  slots k := by rw [hs]; exact ⟨rfl, Iff.rfl, Iff.rfl, rfl⟩
  held := held

theorem Unmoved.blocks {s t : State} (h : Unmoved s t) : BlocksSame s t where
  agrees i hi := by rw [h.records]; exact hi
  place i := by rw [h.records]
  completions := h.completions
  work b := (h.work b).2
  service b hb := by
    unfold inService at hb ⊢
    rwa [h.status b] at hb
  status b hb := by rwa [h.status b] at hb
  slots k := by rw [h.slots]; exact ⟨rfl, Iff.rfl, Iff.rfl, rfl⟩
  held g hg := h.held g hg.ne_free

theorem Unmoved.fits {x : Option Branch} {taken : Bool} {s t : State} (h : Unmoved s t) (hs : Fits x taken s) :
    Fits x taken t := by
  refine hs.of_blocks h.blocks ⟨?_, ?_, ?_, fun hh => h.rx.2 (hs.trunk.hunts ?_)⟩
  · rw [h.held .trunkAssembly nofun, hs.trunk.assembly, h.rx.1]
  · rw [h.held .owedReply nofun, hs.trunk.reply, h.owed]
  · rw [h.held .lastResponse nofun, hs.trunk.response, h.lastCode]
  · rwa [h.tx.1] at hh

end Sys2Proof.Machine
end

section
/-!
The events that leave every record, branch and slot as the agreement sees it: the trunk's frames and replies, the port
events, the timers that count (R14, R102, R109, R118).
-/

namespace Sys2Proof.Machine

-- The gate's memory limit counts every thread's arena, so the declarations are elaborated one after another.
set_option Elab.async false

/-! ### Counting a holder's buffers -/

theorem heldCount_of_buffers {s t : State} (hb : t.buffers = s.buffers) (h : Holder) :
    heldCount h t = heldCount h s := by
  unfold heldCount
  rw [hb]

theorem heldCount_returnBuffer_other {h g : Holder} (s : State) (hg : g ≠ .free := by nofun)
    (hne : g ≠ h := by nofun) : heldCount g (returnBuffer h s) = heldCount g s :=
  (heldCount_returnBuffer hg h s).trans (if_neg hne)

theorem heldCount_returnBuffer_same {h : Holder} (s : State) (hh : h ≠ .free := by nofun) :
    heldCount h (returnBuffer h s) = 0 := (heldCount_returnBuffer hh h s).trans (if_pos rfl)

theorem heldCount_handOver_other {h g k : Holder} (s : State) (hne : h ≠ g := by nofun) (hh : k ≠ h := by nofun)
    (hg : k ≠ g := by nofun) : heldCount k (handOver h g s) = heldCount k s :=
  (heldCount_handOver hne k s).trans ((if_neg hh).trans (if_neg hg))

theorem heldCount_handOver_to {h g : Holder} (s : State) (hne : h ≠ g := by nofun) :
    heldCount g (handOver h g s) = heldCount h s + heldCount g s :=
  (heldCount_handOver hne g s).trans ((if_neg hne.symm).trans (if_pos rfl))

theorem heldCount_handOver_from {h g : Holder} (s : State) (hne : h ≠ g := by nofun) :
    heldCount h (handOver h g s) = 0 := (heldCount_handOver hne h s).trans (if_pos rfl)

/-! ### The trunk's frames -/

/-- What touches only the trunk and its buffers. -/
theorem Fits.trunk_only {x : Option Branch} {taken after : Bool} {s : State} (hs : Fits x taken s) {t : State}
    (hb : t.branches = s.branches) (hr : t.records = s.records) (hc : t.completions = s.completions)
    (hsl : t.slots = s.slots) (held : ∀ h : Holder, h.ofBlock → heldCount h t = heldCount h s)
    (trunk : TrunkFits after t) : Fits x after t :=
  hs.of_blocks (blocksSame_of_same hb hr hc hsl held) trunk

theorem storing_of_hunt {s : State} (h : s.trunk.port.rx = .hunt) : storing .trunk s = false := by
  unfold storing State.port
  rw [h]

/-- A frame that begins on the trunk is stored in a buffer that it claims, or is followed (R14, R121). -/
theorem fits_trunkClaim {x : Option Branch} (c : Byte) {s : State} (hq : s.trunk.port.tx.sending = false)
    (hst : storing .trunk s = false) (hs : Fits x false s) : Fits x false (trunkClaim c s) := by
  have hnone : heldCount .trunkAssembly s = 0 := by rw [hs.trunk.assembly, hst]; rfl
  have hsends : ∀ {p : Prop}, false = true ∨ s.trunk.port.tx.sending = true → p := fun h =>
    absurd (h.resolve_left nofun) (by rw [hq]; exact nofun)
  unfold trunkClaim
  split
  · exact hs.trunk_only (t := openFrame .trunk false c (raise .bufExhausted (modifyTrunkCounters (fun k =>
      { k with bufLost := countUp k.bufLost }) s))) rfl rfl rfl rfl (fun _ _ => rfl)
      ⟨hnone, hs.trunk.reply, hs.trunk.response, hsends⟩
  · rename_i hfree
    have hcount : ∀ h, h ≠ .free → heldCount h (claimBuffer .trunkAssembly [c] s) =
        if h = .trunkAssembly then heldCount h s + 1 else heldCount h s := fun h hf =>
      heldCount_claimBuffer (h := .trunkAssembly) (Nat.pos_of_ne_zero hfree) nofun hf [c]
    have htrunk := claimBuffer_trunk .trunkAssembly [c] s
    refine hs.trunk_only (t := openFrame .trunk true c (claimBuffer .trunkAssembly [c] s))
      (claimBuffer_branches ..) (claimBuffer_records ..) (claimBuffer_completions ..) (claimBuffer_slots ..)
      (fun h hb => ?_) ⟨?_, ?_, ?_, fun h => hsends ?_⟩
    · refine (hcount h hb.ne_free).trans (if_neg ?_)
      rintro rfl
      exact hb
    · exact (hcount .trunkAssembly nofun).trans (by rw [if_pos rfl, hnone]; rfl)
    · refine (hcount .owedReply nofun).trans ((if_neg nofun).trans ?_)
      rw [hs.trunk.reply]
      show _ = if (claimBuffer .trunkAssembly [c] s).trunk.owed == .answer ||
        (claimBuffer .trunkAssembly [c] s).trunk.owed == .proxy then 1 else 0
      rw [htrunk]
    · refine (hcount .lastResponse nofun).trans ((if_neg nofun).trans ?_)
      rw [hs.trunk.response]
      show _ = if (claimBuffer .trunkAssembly [c] s).lastCode.isSome then 1 else 0
      rw [claimBuffer_lastCode]
    · have hsending : (openFrame .trunk true c (claimBuffer .trunkAssembly [c] s)).trunk.port.tx = s.trunk.port.tx :=
        congrArg (fun t => t.port.tx) htrunk
      rwa [hsending] at h

theorem fits_trunkFrameStarts {x : Option Branch} (c : Byte) {s : State} (hq : s.trunk.port.tx.sending = false)
    (hs : Fits x false s) : Fits x false (trunkFrameStarts c s) := by
  have hcounted := (countTruncated_unmoved .trunk s).fits hs
  unfold trunkFrameStarts
  split
  · rename_i a ha
    split
    · rename_i hstored
      have hst : storing .trunk s = true := by
        unfold storing State.port
        rw [ha]
        exact hstored
      refine hs.trunk_only (t := openFrame .trunk true c (writeBuffer .trunkAssembly [c]
        (countTruncated .trunk s))) rfl rfl rfl rfl (fun h _ => heldCount_writeBuffer ..) ⟨?_, ?_, ?_, fun h => ?_⟩
      · refine (heldCount_writeBuffer ..).trans (hs.trunk.assembly.trans ?_)
        rw [hst]
        rfl
      · exact (heldCount_writeBuffer ..).trans hs.trunk.reply
      · exact (heldCount_writeBuffer ..).trans hs.trunk.response
      · exact absurd (h.resolve_left nofun) (by
          show ¬ s.trunk.port.tx.sending = true
          rw [hq]
          exact nofun)
    · rename_i hstored
      refine fits_trunkClaim c hq ?_ hcounted
      show storing .trunk s = false
      unfold storing State.port
      rw [ha]
      exact Bool.eq_false_iff.mpr hstored
  · rename_i hrx
    refine fits_trunkClaim c hq ?_ hs
    unfold storing State.port
    rw [hrx]
  · rename_i hrx
    refine fits_trunkClaim c hq ?_ hs
    unfold storing State.port
    rw [hrx]

theorem Holder.ofBlock.ne_trunk {h g : Holder} (hb : h.ofBlock) (hg : ¬ g.ofBlock) : h ≠ g := by
  rintro rfl
  exact hg hb

/-- The trunk's assembly ends without a frame in hand (R11, R13, R14). -/
theorem fits_assemblyEnds {x : Option Branch} (r : RxState) {s : State}
    (hr : r = .hunt ∨ r = .discard ∧ s.trunk.port.tx.sending = false) (hs : Fits x false s) :
    Fits x false (returnBuffer .trunkAssembly (setRx .trunk r s)) := by
  refine hs.trunk_only (t := returnBuffer .trunkAssembly (setRx .trunk r s)) rfl rfl rfl rfl (fun h hb =>
    heldCount_returnBuffer_other _ hb.ne_free (hb.ne_trunk id)) ⟨?_, ?_, ?_, fun h => ?_⟩
  · refine (heldCount_returnBuffer_same _).trans ?_
    have hclosed : storing .trunk (returnBuffer .trunkAssembly (setRx .trunk r s)) = false := by
      rcases hr with rfl | ⟨rfl, -⟩ <;> rfl
    rw [hclosed]
    rfl
  · exact (heldCount_returnBuffer_other _).trans hs.trunk.reply
  · exact (heldCount_returnBuffer_other _).trans hs.trunk.response
  · rcases hr with rfl | ⟨-, hq⟩
    · rfl
    · exact absurd (h.resolve_left nofun) (by
        show ¬ s.trunk.port.tx.sending = true
        rw [hq]
        exact nofun)

/-- A whole stored frame is taken in hand (R8, R12). -/
theorem fits_frameTaken {x : Option Branch} {s : State} (hst : storing .trunk s = true) (hs : Fits x false s) :
    Fits x true (setRx .trunk .hunt s) := by
  refine hs.trunk_only (t := setRx .trunk .hunt s) rfl rfl rfl rfl (fun _ _ => rfl)
    ⟨?_, hs.trunk.reply, hs.trunk.response, fun _ => rfl⟩
  refine hs.trunk.assembly.trans ?_
  rw [hst]
  rfl

/-- The buffer of the frame in hand goes back to the pool (R32 to R34, R37). -/
theorem fits_dropped {x : Option Branch} {s : State} (hs : Fits x true s) :
    Fits x false (returnBuffer .trunkAssembly s) := by
  have hrx := hs.trunk.hunts (.inl rfl)
  refine hs.trunk_only (t := returnBuffer .trunkAssembly s) rfl rfl rfl rfl (fun h hb =>
    heldCount_returnBuffer_other _ hb.ne_free (hb.ne_trunk id)) ⟨?_, ?_, ?_, fun _ => hrx⟩
  · refine (heldCount_returnBuffer_same _).trans ?_
    rw [show storing .trunk (returnBuffer .trunkAssembly s) = false from storing_of_hunt hrx]
    rfl
  · exact (heldCount_returnBuffer_other _).trans hs.trunk.reply
  · exact (heldCount_returnBuffer_other _).trans hs.trunk.response

/-- The frame in hand becomes a proxy status frame, owed (R36). -/
theorem fits_proxy {x : Option Branch} (a reason : Byte) {s : State} (hn : s.trunk.owed = .nothing)
    (hs : Fits x true s) :
    Fits x false (oweProxy .trunkAssembly a reason s) := by
  have hrx := hs.trunk.hunts (.inl rfl)
  have hreply := hs.trunk.reply
  rw [hn] at hreply
  have hwritten : ∀ h, heldCount h (writeBuffer .trunkAssembly (proxyFrame s a reason) s) = heldCount h s := fun h =>
    heldCount_writeBuffer ..
  refine hs.trunk_only (t := oweProxy .trunkAssembly a reason s) rfl rfl rfl rfl (fun h hb =>
    (heldCount_handOver_other (h := .trunkAssembly) (g := .owedReply) _ nofun (hb.ne_trunk id) (hb.ne_trunk id)).trans
      (hwritten h))
    ⟨?_, ?_, ?_, fun _ => hrx⟩
  · refine (heldCount_handOver_from (h := .trunkAssembly) (g := .owedReply) _).trans ?_
    rw [show storing .trunk (oweProxy .trunkAssembly a reason s) = false from storing_of_hunt hrx]
    rfl
  · refine (heldCount_handOver_to (h := .trunkAssembly) (g := .owedReply) _).trans ?_
    rw [hwritten, hwritten, hs.trunk.assembly, hreply]
    rfl
  · exact (heldCount_handOver_other _).trans ((hwritten .lastResponse).trans hs.trunk.response)

/-- The frame in hand becomes the response, owed and remembered (R125, R161). -/
theorem fits_answered {x : Option Branch} (code seq : Byte) {r : Reply} (hn : r.state.trunk.owed = .nothing)
    (hs : Fits x true r.state) : Fits x false (buildResponse code seq r) := by
  have hrx := hs.trunk.hunts (.inl rfl)
  have hreply := hs.trunk.reply
  rw [hn] at hreply
  have hcount : ∀ h, heldCount h (buildResponse code seq r) = heldCount h (takeResponseBuffer r.state) := fun h =>
    heldCount_writeBuffer h .lastResponse _ (takeResponseBuffer r.state)
  refine hs.trunk_only (buildResponse_branches ..) (buildResponse_records ..) (buildResponse_completions ..)
    (buildResponse_slots ..) (fun h hb => ?_) ⟨?_, ?_, ?_, fun _ => hrx⟩
  · rw [hcount]
    exact (heldCount_handOver_other (h := .trunkAssembly) (g := .lastResponse) _ nofun (hb.ne_trunk id)
      (hb.ne_trunk id)).trans (heldCount_returnBuffer_other _ hb.ne_free (hb.ne_trunk id))
  · rw [hcount]
    refine (heldCount_handOver_from (h := .trunkAssembly) (g := .lastResponse) _).trans ?_
    rw [show storing .trunk (buildResponse code seq r) = false from storing_of_hunt hrx]
    rfl
  · rw [hcount]
    exact (heldCount_handOver_other (h := .trunkAssembly) (g := .lastResponse) (k := .owedReply) _).trans
      ((heldCount_returnBuffer_other (h := .lastResponse) (g := .owedReply) _).trans hreply)
  · rw [hcount]
    refine (heldCount_handOver_to (h := .trunkAssembly) (g := .lastResponse) _).trans ?_
    rw [heldCount_returnBuffer_other (h := .lastResponse) (g := .trunkAssembly), hs.trunk.assembly,
      heldCount_returnBuffer_same (h := .lastResponse)]
    rfl

/-- The frame in hand is dropped and the remembered response owed again (R159). -/
theorem fits_replayed {x : Option Branch} {s : State} (hn : s.trunk.owed = .nothing) (hs : Fits x true s) :
    Fits x false (replayLast s) := by
  have hdropped := fits_dropped hs
  have hreply := hdropped.trunk.reply
  rw [show (returnBuffer .trunkAssembly s).trunk.owed = .nothing from hn] at hreply
  exact hdropped.trunk_only (t := replayLast s) rfl rfl rfl rfl (fun _ _ => rfl)
    ⟨hdropped.trunk.assembly, hreply, hdropped.trunk.response, fun _ => hs.trunk.hunts (.inl rfl)⟩

/-! ### The trunk's replies -/

/-- An open frame on the trunk is cut short, its buffer returned (R13, R14). -/
theorem fits_truncateOpen_trunk {x : Option Branch} {s : State} (hs : Fits x false s) :
    Fits x false (truncateOpen .trunk s) ∧ (truncateOpen .trunk s).trunk.port.rx = .hunt := by
  unfold truncateOpen
  split
  · rename_i hrx
    exact ⟨hs, hrx⟩
  · rename_i hrx
    refine ⟨(setRx_hunt_unmoved ?_).fits hs, rfl⟩
    unfold storing
    rw [hrx]
  · refine ⟨?_, rfl⟩
    exact fits_assemblyEnds .hunt (.inl rfl) ((countTruncated_unmoved .trunk _).fits hs)

theorem fits_replyStarts {x : Option Branch} {f : TxFrame} {s : State} (hs : Fits x false s) :
    Fits x false (modifyPort .trunk (fun q => { q with tx := .send f 0, lineRest := 0 }) (truncateOpen .trunk s)) := by
  obtain ⟨hcut, hrx⟩ := fits_truncateOpen_trunk hs
  generalize truncateOpen .trunk s = u at hcut hrx ⊢
  exact hcut.trunk_only (t := modifyPort .trunk (fun q => { q with tx := .send f 0, lineRest := 0 }) u) rfl rfl rfl
    rfl (fun _ _ => rfl) ⟨hcut.trunk.assembly, hcut.trunk.reply, hcut.trunk.response, fun _ => hrx⟩

/-- A pending setting comes into force with the receive side in HUNT (R114). -/
theorem fits_settlePending {x : Option Branch} {taken : Bool} {s : State} (hrx : s.trunk.port.rx = .hunt)
    (hs : Fits x taken s) : Fits x taken (settlePending s) := by
  unfold settlePending
  split
  · exact hs
  · rename_i code _
    have hcut : truncateOpen .trunk (modifyTrunk (fun t => { t with pendingSetting := none }) s) =
        modifyTrunk (fun t => { t with pendingSetting := none }) s := by
      unfold truncateOpen
      rw [show ((modifyTrunk (fun t => { t with pendingSetting := none }) s).port .trunk).rx = .hunt from hrx]
    unfold applyRate
    rw [hcut]
    exact Unmoved.fits (s := s) (unmoved_of_same rfl rfl rfl rfl rfl rfl rfl rfl rfl) hs
  · rename_i a _
    dsimp only
    let u : State := modifyTrunk (fun t => { t with pendingSetting := none }) s
    let v : State := { u with params := { u.params with mgmtAddress := a } }
    have hv : Fits x taken v := Unmoved.fits (s := s) (unmoved_of_same rfl rfl rfl rfl rfl rfl rfl rfl rfl) hs
    show Fits x taken (emptyLastResponse v)
    refine hv.trunk_only (t := emptyLastResponse v) rfl rfl rfl rfl (fun h hb =>
      heldCount_returnBuffer_other (h := .lastResponse) v hb.ne_free (hb.ne_trunk id)) ⟨?_, ?_, ?_, hv.trunk.hunts⟩
    · exact (heldCount_returnBuffer_other v).trans hv.trunk.assembly
    · exact (heldCount_returnBuffer_other v).trans hv.trunk.reply
    · exact heldCount_returnBuffer_same (h := .lastResponse) v

/-- The owed reply is finished, on a port that hunts (R109, R110). -/
theorem fits_finishOwed {x : Option Branch} {taken : Bool} {s : State} (hs : Fits x taken s) :
    Fits x taken (finishOwed s) := by
  refine hs.trunk_only (t := finishOwed s) rfl rfl rfl rfl (fun h hb =>
    heldCount_returnBuffer_other (h := .owedReply) s hb.ne_free (hb.ne_trunk id)) ⟨?_, ?_, ?_, hs.trunk.hunts⟩
  · exact (heldCount_returnBuffer_other s).trans hs.trunk.assembly
  · exact heldCount_returnBuffer_same (h := .owedReply) s
  · exact (heldCount_returnBuffer_other s).trans hs.trunk.response

/-- The port leaves SEND, in which no frame is open (R18, R19, R20). -/
theorem fits_transmissionEnds {x : Option Branch} {f : PortState → PortState} {s u : State}
    (hq : s.trunk.port.tx.sending = true) (hf : (f s.trunk.port).tx = .quiet ∧ (f s.trunk.port).rx = .hunt)
    (hu : Unmoved (modifyPort .trunk f s) u) (hs : Fits x false s) : Fits x false u := by
  have hrx := hs.trunk.hunts (.inr hq)
  refine hu.fits (hs.trunk_only (t := modifyPort .trunk f s) rfl rfl rfl rfl (fun _ _ => rfl)
    ⟨?_, hs.trunk.reply, hs.trunk.response, fun _ => hf.2⟩)
  refine hs.trunk.assembly.trans ?_
  rw [storing_of_hunt hrx, show storing .trunk (modifyPort .trunk f s) = false from storing_of_hunt hf.2]

theorem fits_trunkSent {x : Option Branch} {s : State} (hq : s.trunk.port.tx.sending = true) (hs : Fits x false s) :
    Fits x false (trunkSent s) :=
  fits_settlePending rfl (fits_finishOwed (fits_transmissionEnds hq ⟨rfl, rfl⟩ (.refl _) hs))

theorem fits_trunkContended {x : Option Branch} {s : State} (hq : s.trunk.port.tx.sending = true)
    (hs : Fits x false s) : Fits x false (trunkContended s) :=
  fits_settlePending rfl (fits_finishOwed (fits_transmissionEnds hq ⟨rfl, rfl⟩ (raise_unmoved .contention _) hs))

/-! ### A branch in another state -/

/-- A branch takes another state with the work it has. -/
theorem fits_modifyBranch {x : Option Branch} {taken : Bool} {b : Branch} {f : BranchState → BranchState} {s : State}
    (hqueue : (f s.branches[b]).queue = s.branches[b].queue) (hline : (f s.branches[b]).onLine = s.branches[b].onLine)
    (hservice : (f s.branches[b]).status = .off ∨ (f s.branches[b]).status = .fault →
      s.branches[b].status = .off ∨ s.branches[b].status = .fault)
    (hstatus : (f s.branches[b]).status = .await ∨ (f s.branches[b]).status = .recv →
      s.branches[b].status = .await ∨ s.branches[b].status = .recv) (hs : Fits x taken s) :
    Fits x taken (modifyBranch b f s) := by
  have hb := modifyBranch_same b f s
  have hout : ∀ (d : Branch) (u : State), inService u d = false ↔
      u.branches[d].status = .off ∨ u.branches[d].status = .fault := fun d u => by
    unfold inService
    cases u.branches[d].status <;> simp
  refine hs.of_blocks (t := modifyBranch b f s) ⟨fun _ => id, fun _ => rfl, rfl, fun d => ?_, fun d => ?_, fun d => ?_,
    fun _ => ⟨rfl, Iff.rfl, Iff.rfl, rfl⟩, fun _ _ => rfl⟩
    (hs.trunk.same (s := s) (t := modifyBranch b f s) rfl rfl rfl rfl rfl rfl rfl)
  · by_cases hd : d = b
    · subst hd
      rw [hb]
      exact ⟨hqueue, hline⟩
    · rw [modifyBranch_other hd]
      exact ⟨rfl, rfl⟩
  · rw [hout, hout]
    by_cases hd : d = b
    · subst hd
      rw [hb]
      exact hservice
    · rw [modifyBranch_other hd]
      exact id
  · by_cases hd : d = b
    · subst hd
      rw [hb]
      exact hstatus
    · rw [modifyBranch_other hd]
      exact id

/-- Only the branches change, each keeping its work and its place in or out of service. -/
theorem Fits.branches_only {x : Option Branch} {taken : Bool} {s : State} (hs : Fits x taken s) {t : State}
    (ht : t = { s with branches := t.branches, flags := t.flags })
    (hwork : ∀ b : Branch, t.branches[b].queue = s.branches[b].queue ∧ t.branches[b].onLine = s.branches[b].onLine ∧
      t.branches[b].status = s.branches[b].status) : Fits x taken t := by
  have hrecords : t.records = s.records := by rw [ht]
  have hcompletions : t.completions = s.completions := by rw [ht]
  have hslots : t.slots = s.slots := by rw [ht]
  have htrunk : t.trunk = s.trunk := by rw [ht]
  have hlast : t.lastCode = s.lastCode := by rw [ht]
  have hcount : ∀ h, heldCount h t = heldCount h s := fun h => by
    unfold heldCount
    rw [ht]
  refine hs.of_blocks ⟨fun i h => by rw [hrecords]; exact h, fun i => by rw [hrecords], hcompletions,
    fun d => ⟨(hwork d).1, (hwork d).2.1⟩, fun d h => ?_, fun d h => by rwa [(hwork d).2.2] at h,
    fun k => by rw [hslots]; exact ⟨rfl, Iff.rfl, Iff.rfl, rfl⟩, fun h _ => hcount h⟩
    (hs.trunk.same (by rw [htrunk]) (by rw [htrunk]) (by rw [htrunk]) hlast (hcount _) (hcount _) (hcount _))
  unfold inService at h ⊢
  rwa [(hwork d).2.2] at h

/-- A held rate comes into force (R188). -/
theorem fits_applyPendingRate {x : Option Branch} {taken : Bool} (b : Branch) {s : State} (hs : Fits x taken s) :
    Fits x taken (applyPendingRate b s) := by
  rw [applyPendingRate_eq]
  refine hs.branches_only rfl (fun d => ?_)
  by_cases hd : d = b
  · subst hd
    show (modifyBranch d BranchState.rated s).branches[d].queue = _ ∧
      (modifyBranch d BranchState.rated s).branches[d].onLine = _ ∧
      (modifyBranch d BranchState.rated s).branches[d].status = _
    rw [modifyBranch_same, BranchState.rated_kept]
    exact ⟨rfl, rfl, rfl⟩
  · show (modifyBranch b BranchState.rated s).branches[d].queue = _ ∧
      (modifyBranch b BranchState.rated s).branches[d].onLine = _ ∧
      (modifyBranch b BranchState.rated s).branches[d].status = _
    rw [modifyBranch_other hd]
    exact ⟨rfl, rfl, rfl⟩

/-- A branch enters IDLE with the work it has (R89). -/
theorem fits_enterIdle {x : Option Branch} {taken : Bool} (b : Branch) {s : State} (hs : Fits x taken s) :
    Fits x taken (enterIdle b s) :=
  fits_modifyBranch rfl rfl (by rintro (h | h) <;> cases h) (by rintro (h | h) <;> cases h)
    (fits_applyPendingRate b hs)

theorem fits_quarantineExpire {x : Option Branch} {taken : Bool} (b : Branch) {s : State} (hs : Fits x taken s) :
    Fits x taken (quarantineExpire b s) := by
  unfold quarantineExpire
  split
  · exact fits_enterIdle b (fits_modifyBranch rfl rfl id id hs)
  · exact hs

theorem fits_enableBranch {x : Option Branch} {taken : Bool} (b : Branch) {s : State} (hs : Fits x taken s) :
    Fits x taken (enableBranch b s) := by
  unfold enableBranch
  split
  · exact fits_enterIdle b (fits_modifyBranch rfl rfl id id (fits_modifyBranch rfl rfl id id hs))
  · exact fits_enterIdle b (fits_modifyBranch rfl rfl id id hs)
  all_goals exact hs

theorem fits_branchSends {x : Option Branch} {taken : Bool} {b : Branch} {f : TxFrame} {s : State}
    (ha : awake (.branch b) s) (hs : Fits x taken s) : Fits x taken (setStatus b .send (modifyPort (.branch b)
      (fun q => { q with tx := .send f 0, lineRest := 0 }) (truncateOpen (.branch b) s))) :=
  fits_modifyBranch rfl rfl (by rintro (h | h) <;> cases h) (by rintro (h | h) <;> cases h)
    (fits_modifyBranch rfl rfl id id ((truncateOpen_branch_unmoved ha).fits hs))

theorem fits_answerBegins {x : Option Branch} {taken : Bool} {b : Branch} {s : State}
    (hst : s.branches[b].status = .await ∨ s.branches[b].status = .recv) (hs : Fits x taken s) :
    Fits x taken (modifyBranch b (fun x => { x with status := .recv, windowTimer := none }) s) :=
  fits_modifyBranch rfl rfl (by rintro (h | h) <;> cases h) (fun _ => hst) hs

/-! ### Slots and timers -/

/-- A slot whose configuration, poll and snapshot the agreement sees as they were. -/
theorem fits_modifySlot {x : Option Branch} {taken : Bool} {k : SlotIndex} {f : Slot → Slot} {s : State}
    (hconfig : (f s.slots[k]).config = s.slots[k].config)
    (hunset : (f s.slots[k]).state = .unset ↔ s.slots[k].state = .unset)
    (hpolling : (f s.slots[k]).state.polling ↔ s.slots[k].state.polling)
    (hage : (f s.slots[k]).age.isSome = s.slots[k].age.isSome) (hs : Fits x taken s) :
    Fits x taken (modifySlot k f s) := by
  refine hs.of_blocks (t := modifySlot k f s) ⟨fun _ => id, fun _ => rfl, rfl, fun _ => ⟨rfl, rfl⟩, fun _ => id,
    fun _ => id, fun j => ?_, fun _ _ => rfl⟩
      (hs.trunk.same (s := s) (t := modifySlot k f s) rfl rfl rfl rfl rfl rfl rfl)
  by_cases hj : j = k
  · subst hj
    rw [modifySlot_same]
    exact ⟨hconfig, hunset, hpolling, hage⟩
  · rw [modifySlot_other hj]
    exact ⟨rfl, Iff.rfl, Iff.rfl, rfl⟩

theorem not_polling {x : SlotState} (h : x = .unset ∨ x = .stopped ∨ x = .armed ∨ x = .due) : ¬ x.polling := by
  rintro (rfl | rfl) <;> simp at h

/-- A slot goes from one state without a poll on line to another. -/
theorem fits_slotState {x : Option Branch} {taken : Bool} {k : SlotIndex} {f : Slot → Slot} {s : State}
    (hconfig : (f s.slots[k]).config = s.slots[k].config) (hage : (f s.slots[k]).age.isSome = s.slots[k].age.isSome)
    (hbefore : s.slots[k].state = .stopped ∨ s.slots[k].state = .armed ∨ s.slots[k].state = .due)
    (hafter : (f s.slots[k]).state = .stopped ∨ (f s.slots[k]).state = .armed ∨ (f s.slots[k]).state = .due)
    (hs : Fits x taken s) : Fits x taken (modifySlot k f s) := by
  have hset : ∀ {y : SlotState}, y = .stopped ∨ y = .armed ∨ y = .due → y ≠ .unset := by
    rintro y (rfl | rfl | rfl) <;> nofun
  exact fits_modifySlot hconfig ⟨fun h => absurd h (hset hafter), fun h => absurd h (hset hbefore)⟩
    ⟨fun h => absurd h (not_polling (.inr hafter)), fun h => absurd h (not_polling (.inr hbefore))⟩ hage hs

theorem fits_slotExpire {x : Option Branch} {taken : Bool} (k : SlotIndex) {s : State} (hs : Fits x taken s) :
    Fits x taken (slotExpire k s) := by
  cases hc : s.slots[k].config with
  | none =>
    rw [slotExpire_idle (.inl hc)]
    exact hs
  | some c =>
    by_cases hr : s.slots[k].state.running = true
    · by_cases ha : s.slots[k].state = .armed
      · rw [slotExpire_of_armed hc ha]
        split
        · exact fits_slotState rfl rfl (.inr (.inl ha)) (.inr (.inr rfl)) hs
        · exact (modifyBranchCounters_unmoved _ _ _).fits (fits_modifySlot rfl Iff.rfl Iff.rfl rfl hs)
      · rw [slotExpire_of_busy hc hr ha]
        exact (raise_unmoved _ _).fits (fits_modifySlot rfl Iff.rfl Iff.rfl rfl hs)
    · rw [slotExpire_idle (.inr (Bool.eq_false_iff.mpr hr))]
      exact hs

theorem fits_endIdleStalls {x : Option Branch} {taken : Bool} {s : State} (hs : Fits x taken s) :
    Fits x taken (endIdleStalls s) :=
  hs.branches_only rfl fun b => by
    rw [endIdleStalls_branches]
    split <;> exact ⟨rfl, rfl, rfl⟩

theorem fits_stopSlot {x : Option Branch} {taken : Bool} (k : SlotIndex) {s : State} (hs : Fits x taken s) :
    Fits x taken (stopSlot k s) := by
  unfold stopSlot
  split
  · rename_i hst
    exact fits_endIdleStalls (fits_slotState rfl rfl (.inr (.inl hst)) (.inl rfl) hs)
  · rename_i hst
    exact fits_endIdleStalls (fits_slotState rfl rfl (.inr (.inr hst)) (.inl rfl) hs)
  · rename_i hst
    refine fits_modifySlot rfl ⟨nofun, fun h => ?_⟩ ⟨fun _ => .inl hst, fun _ => .inr rfl⟩ rfl hs
    cases hst.symm.trans h
  all_goals exact hs

theorem recordAgrees_millisecond {r : Record} (h : recordAgrees r = true) :
    recordAgrees (recordMillisecond r) = true := by
  obtain ⟨kind, state, tag, trunkAddress, lineAddress, branch, pendingSet, sendingSet, slot, attempts,
      retriesLeft, notify,
    outcome, cancelPending, abandoned, hold⟩ := r
  cases hold with
  | none => exact h
  | some w =>
    unfold recordAgrees at h ⊢
    cases kind with
    | none => exact absurd (eq_of_beq h) nofun
    | some kind => cases kind <;> exact h

theorem fits_countMillisecond {x : Option Branch} {taken : Bool} {s : State} (hs : Fits x taken s) :
    Fits x taken (countMillisecond s) := by
  refine hs.of_blocks (t := countMillisecond s) ⟨fun i h => ?_, fun i => ?_, rfl, fun b => ?_, fun b h => ?_,
    fun b h => ?_, fun k => ?_, fun _ _ => rfl⟩
      (hs.trunk.same (s := s) (t := countMillisecond s) rfl rfl rfl rfl rfl rfl rfl)
  · rw [countMillisecond_record]
    exact recordAgrees_millisecond h
  · rw [countMillisecond_record]
    rfl
  · rw [countMillisecond_branch]
    exact ⟨rfl, rfl⟩
  · rwa [countMillisecond_inService] at h
  · rwa [countMillisecond_branch] at h
  · rw [countMillisecond_slot]
    refine ⟨rfl, Iff.rfl, Iff.rfl, ?_⟩
    unfold slotMillisecond
    exact Option.isSome_map

theorem recordAgrees_cancelPending {r : Record} (h : recordAgrees r = true) (hkind : r.kind = some .deferred)
    (hline : r.state = .onLine) : recordAgrees { r with cancelPending := true } = true := by
  unfold recordAgrees at h ⊢
  rw [hkind] at h
  dsimp only at h ⊢
  rw [hkind, hline]
  rw [hline] at h
  dsimp only
  simp only [Bool.and_eq_true] at h ⊢
  obtain ⟨⟨⟨⟨⟨⟨h1, h2⟩, h3⟩, h4⟩, -⟩, h6⟩, h7⟩ := h
  exact ⟨⟨⟨⟨⟨⟨h1, h2⟩, h3⟩, h4⟩, rfl⟩, h6⟩, h7⟩

/-- A record is changed in no more than what the queues, the slots and the pool do not see. -/
theorem fits_modifyRecord {x : Option Branch} {taken : Bool} {i : RecordIndex} {f : Record → Record} {s : State}
    (hagrees : recordAgrees s.records[i] = true → recordAgrees (f s.records[i]) = true)
    (hplace : (f s.records[i]).place = s.records[i].place) (hs : Fits x taken s) :
    Fits x taken (modifyRecord i f s) := by
  refine hs.of_blocks (t := modifyRecord i f s) ⟨fun j h => ?_, fun j => ?_, rfl,
    fun b => ⟨rfl, rfl⟩, fun b => id, fun b => id, fun k => ⟨rfl, Iff.rfl, Iff.rfl, rfl⟩, fun _ _ => rfl⟩
    (hs.trunk.same (s := s) (t := modifyRecord i f s) rfl rfl rfl rfl rfl rfl rfl)
  · by_cases hj : j = i
    · subst hj
      rw [modifyRecord_same]
      exact hagrees h
    · rw [modifyRecord_other i hj]
      exact h
  · by_cases hj : j = i
    · subst hj
      rw [modifyRecord_same]
      exact hplace
    · rw [modifyRecord_other i hj]

theorem fits_cancelled {x : Option Branch} {taken : Bool} {i : RecordIndex} {s : State}
    (hkind : s.records[i].kind = some .deferred) (hline : s.records[i].state = .onLine) (hs : Fits x taken s) :
    Fits x taken (modifyRecord i (fun r => { r with cancelPending := true }) s) :=
  fits_modifyRecord (fun h => recordAgrees_cancelPending h hkind hline) rfl hs

end Sys2Proof.Machine
end

section
/-!
The settlement of one record, while the branch whose work it was stands aside: freed, ended, retried, or a group record
that loses the branch (R54 to R62).
-/

namespace Sys2Proof.Machine

-- The gate's memory limit counts every thread's arena, so the declarations are elaborated one after another.
set_option Elab.async false

/-! ### A branch stands aside -/

/-- The agreement without one branch. -/
theorem Fits.aside {taken : Bool} {s : State} (hs : Fits none taken s) (b : Branch) : Fits (some b) taken s :=
  ⟨hs.records, fun d _ => hs.branches d nofun, hs.slots, hs.nodup, hs.trunk⟩

/-- The agreement with the branch that stood aside. -/
theorem Fits.rejoined {taken : Bool} {b : Branch} {s : State} (hs : Fits (some b) taken s) (hb : BranchFits b s) :
    Fits none taken s :=
  ⟨hs.records, fun d _ => if h : d = b then h ▸ hb else hs.branches d fun e => h (Option.some.inj e),
    hs.slots, hs.nodup,
    hs.trunk⟩

/-- Anything may become of the branch that stands aside. -/
theorem fits_modifyBranch_aside {taken : Bool} {b : Branch} {f : BranchState → BranchState} {s : State}
    (hs : Fits (some b) taken s) : Fits (some b) taken (modifyBranch b f s) := by
  refine hs.touch (fun i => .inr (recordSame_of_eq rfl Iff.rfl rfl rfl)) (fun d hd => .inr ⟨hd, ?_⟩)
    (fun k => .inr (slotSame_of_slot rfl (fun _ => .inl rfl) rfl)) hs.nodup
    (hs.trunk.same (s := s) (t := modifyBranch b f s) rfl rfl rfl rfl rfl rfl rfl)
  have hsame : (modifyBranch b f s).branches[d] = s.branches[d] := modifyBranch_other (fun h => hd (by rw [h])) f s
  refine ⟨by rw [hsame], by rw [hsame], fun h => ?_, fun h => by rwa [hsame] at h, fun _ => rfl, fun _ => rfl,
    fun _ _ => rfl, rfl⟩
  unfold inService at h ⊢
  rwa [hsame] at h

theorem fits_returnAnswer_aside {taken : Bool} {b : Branch} {s : State} (hs : Fits (some b) taken s) :
    Fits (some b) taken (returnBuffer (.branchAnswer b) s) := by
  refine hs.touch (t := returnBuffer (.branchAnswer b) s) (fun i => .inr (recordSame_of_eq rfl Iff.rfl
      (heldCount_returnBuffer_other s) (heldCount_returnBuffer_other s)))
    (fun d hd => .inr ⟨hd, ⟨rfl, rfl, id, id, fun _ => rfl, fun _ => rfl, fun _ _ => rfl,
      heldCount_returnBuffer_other s nofun fun h => hd ?_⟩⟩)
    (fun k => .inr (slotSame_of_slot rfl (fun _ => .inl rfl) (heldCount_returnBuffer_other s))) hs.nodup
    (hs.trunk.same (s := s) (t := returnBuffer (.branchAnswer b) s) rfl rfl rfl rfl
      (heldCount_returnBuffer_other s) (heldCount_returnBuffer_other s) (heldCount_returnBuffer_other s))
  injection h with h
  rw [h]

/-! ### One record changed -/

/-- The other branches when record `i` leaves every queue or keeps its places there. -/
theorem branchFits_without {b : Branch} {i : RecordIndex} {s t : State} (hb : BranchFits b s)
    (hothers : ∀ j ≠ i, t.records[j] = s.records[j]) (hserved : servedOn b s.records[i] = false)
    (hkept : otherBranchKept s.branches[b] t.branches[b])
    (hqueue : t.branches[b].queue = s.branches[b].queue.filter fun j => j != i)
    (hwaits : waitsOn b t.records[i] = false) (hserves : servedOn b t.records[i] = false)
    (hcount : heldCount (.branchAnswer b) t = heldCount (.branchAnswer b) s) : BranchFits b t := by
  have hline := hkept.onLine
  have hstatus : t.branches[b].status = s.branches[b].status := by rw [hkept.eq]
  have hne : ∀ j, s.branches[b].onLine = some j → j ≠ i := by
    rintro j hj rfl
    exact absurd ((hb.serves j).mp hj) (by rw [hserved]; exact nofun)
  refine ⟨?_, fun hout => ?_, fun j => ?_, fun j => ?_, fun j hj hst => ?_, ?_⟩
  · rw [hqueue]
    exact hb.nodup.filter _
  · rw [hqueue, hb.outOfService]
    · rfl
    · unfold inService at hout ⊢
      rwa [hstatus] at hout
  · rw [hqueue, List.mem_filter, bne_iff_ne]
    by_cases hj : j = i
    · subst hj
      rw [hwaits]
      simp
    · rw [hothers j hj, hb.waits j]
      exact ⟨fun h => h.1, fun h => ⟨h, hj⟩⟩
  · rw [hline]
    by_cases hj : j = i
    · subst hj
      rw [hserves, hb.serves, hserved]
    · rw [hothers j hj]
      exact hb.serves j
  · rw [hline] at hj
    rw [hstatus] at hst
    rw [hothers j (hne j hj)]
    exact hb.station j hj hst
  · rw [hcount, hb.answer, hline]
    cases hon : s.branches[b].onLine with
    | none => rfl
    | some j =>
      show (if isStationKind s.records[j] then 1 else 0) = if isStationKind t.records[j] then 1 else 0
      rw [hothers j (hne j hon)]

/-- A record that is freed: it stands in no queue, on no line, in no list, and holds no buffer; the slot of which it was
the poll has left its poll state (R45, R47). -/
theorem Fits.freed {x : Option Branch} {taken after : Bool} {i : RecordIndex} {s u : State} (hs : Fits x taken s)
    (hrecords : ∀ j ≠ i, u.records[j] = s.records[j]) (hbranches : u.branches = s.branches)
    (hcompletions : u.completions = s.completions)
    (hslots : ∀ k : SlotIndex, s.records[i].slot ≠ some k → u.slots[k] = s.slots[k])
    (hpoll : ∀ k : SlotIndex, s.records[i].slot = some k → u.slots[k].config = s.slots[k].config ∧
      (u.slots[k].state = .unset ↔ s.slots[k].state = .unset) ∧ ¬ u.slots[k].state.polling ∧
      heldCount (.snapshot k) u = if u.slots[k].age.isSome then 1 else 0)
    (hline : ∀ d : Branch, some d ≠ x → servedOn d s.records[i] = false)
    (hheld : ∀ h : Holder, h.ofBlock → (∀ d, h = .branchAnswer d → some d ≠ x) → h ≠ .request i → h ≠ .answer i →
      (∀ k, s.records[i].slot = some k → h ≠ .snapshot k) → heldCount h u = heldCount h s)
    (trunk : TrunkFits after (freeRecord i u)) : Fits x after (freeRecord i u) := by
  have hfree : ∀ {h : Holder}, h.ofBlock → h ≠ .request i → h ≠ .answer i →
      heldCount h (freeRecord i u) = heldCount h u := fun hb hr ha =>
    (heldCount_freeRecord hb.ne_free i u).trans (if_neg (by rintro (h | h); exacts [hr h, ha h]))
  have hrecord : ∀ j, (freeRecord i u).records[j] = if j = i then Record.free else s.records[j] := fun j => by
    rw [freeRecord_records]
    split
    · rfl
    · rename_i h
      exact hrecords j h
  have hother : ∀ j ≠ i, (freeRecord i u).records[j] = s.records[j] := fun j hj => (hrecord j).trans (if_neg hj)
  have hsame : (freeRecord i u).records[i] = .free := (hrecord i).trans (if_pos rfl)
  refine hs.touch (fun j => ?_) (fun d hd => .inl ?_) (fun k => ?_) ?_ trunk
  · by_cases hj : j = i
    · subst hj
      refine .inl ⟨?_, ?_, ?_, ?_⟩
      · rw [hsame]
        rfl
      · rw [hsame, freeRecord_completions]
        simp [Record.free]
      · rw [hsame, heldCount_freeRecord (g := .request j) nofun, if_pos (.inl rfl)]
        rfl
      · rw [hsame, heldCount_freeRecord (g := .answer j) nofun, if_pos (.inr rfl)]
        rfl
    · have hne : ∀ {a c : RecordIndex}, a ≠ c → Holder.request a ≠ .request c := fun h e => h (Holder.request.inj e)
      have hne' : ∀ {a c : RecordIndex}, a ≠ c → Holder.answer a ≠ .answer c := fun h e => h (Holder.answer.inj e)
      refine .inr (recordSame_of_eq (hother j hj) ?_ ?_ ?_)
      · rw [freeRecord_completions, hcompletions, List.mem_filter, bne_iff_ne]
        exact ⟨fun h => h.1, fun h => ⟨h, hj⟩⟩
      · rw [hfree (h := .request j) trivial (hne hj) nofun]
        exact hheld (.request j) trivial nofun (hne hj) nofun nofun
      · rw [hfree (h := .answer j) trivial nofun (hne' hj)]
        exact hheld (.answer j) trivial nofun nofun (hne' hj) nofun
  · refine branchFits_without (i := i) (hs.branches d hd) hother (hline d hd) ?_ ?_ ?_ ?_ ?_
    · rw [← hbranches]
      exact freeRecord_queuesOnly i u d
    · rw [freeRecord_queue, hbranches]
    · rw [hsame]
      rfl
    · rw [hsame]
      rfl
    · rw [hfree (h := .branchAnswer d) trivial nofun nofun]
      refine hheld (.branchAnswer d) trivial (fun d' h => ?_) nofun nofun nofun
      injection h with h
      exact h ▸ hd
  · by_cases hk : s.records[i].slot = some k
    · obtain ⟨hconfig, hunset, hpolling, hsnapshot⟩ := hpoll k hk
      have hfits := hs.slots k
      have hnone : ∀ j : RecordIndex, (freeRecord i u).records[j].slot ≠ some k := fun j hj => by
        rw [hrecord] at hj
        split at hj
        · cases hj
        · rename_i h
          exact h (hfits.once j i hj hk)
      refine .inl ⟨?_, ⟨fun ⟨j, hj⟩ => absurd hj (hnone j), fun h => ?_⟩, fun j hj => absurd hj (hnone j),
        fun j _ hj => absurd hj (hnone j), ?_⟩
      · rw [freeRecord_slots, hconfig, hunset]
        exact hfits.config
      · rw [freeRecord_slots] at h
        exact absurd h hpolling
      · rw [freeRecord_slots, hfree (h := .snapshot k) trivial nofun nofun]
        exact hsnapshot
    · refine .inr (slotSame_of_slot ?_ (fun j => ?_) ?_)
      · rw [freeRecord_slots]
        exact hslots k hk
      · by_cases hj : j = i
        · subst hj
          exact .inr (.inl ⟨by rw [hsame]; nofun, hk⟩)
        · exact .inl (hother j hj)
      · rw [hfree (h := .snapshot k) trivial nofun nofun]
        refine hheld (.snapshot k) trivial nofun nofun nofun fun k' h e => hk ?_
        injection e with e
        rw [e]
        exact h
  · rw [freeRecord_completions, hcompletions]
    exact hs.nodup.filter _

/-- A record without a slot is freed where it stands. -/
theorem Fits.freeRecord {x : Option Branch} {taken : Bool} {i : RecordIndex} {s : State} (hs : Fits x taken s)
    (hslot : s.records[i].slot = none) (hline : ∀ d : Branch, some d ≠ x → servedOn d s.records[i] = false) :
    Fits x taken (Sys2Proof.Machine.freeRecord i s) := by
  have hnone : ∀ k, s.records[i].slot ≠ some k := fun k h => by rw [hslot] at h; cases h
  have hcount : ∀ {h : Holder}, h ≠ .free → h ≠ .request i → h ≠ .answer i →
      heldCount h (Sys2Proof.Machine.freeRecord i s) = heldCount h s := fun hf hr ha =>
    (heldCount_freeRecord hf i s).trans (if_neg (by rintro (h | h); exacts [hr h, ha h]))
  refine hs.freed (fun _ _ => rfl) rfl rfl (fun _ _ => rfl) (fun k h => absurd h (hnone k)) hline
    (fun _ _ _ _ _ _ => rfl)
    (hs.trunk.same ?_ ?_ ?_ rfl (hcount nofun nofun nofun) (hcount nofun nofun nofun) (hcount nofun nofun nofun))
  all_goals rw [freeRecord_trunk]

end Sys2Proof.Machine
end

section
/-!
The outcome of a station record while its branch stands aside: whatever becomes of the record, it leaves the branch, and
the rest of the agreement holds (R57 to R61).
-/

namespace Sys2Proof.Machine

-- The gate's memory limit counts every thread's arena, so the declarations are elaborated one after another.
set_option Elab.async false

/-! ### A station record at work on a branch -/

/-- A station record that waits on the branch or is served there. -/
structure StationOn (b : Branch) (r : Record) : Prop where
  station : isStationKind r = true
  branch : r.branch = some b
  state : r.state = .queued ∨ r.state = .onLine

theorem stationKind_cases {r : Record} (h : isStationKind r = true) :
    r.kind = some .transparent ∨ r.kind = some .deferred ∨ r.kind = some .cyclic := by
  unfold isStationKind at h
  simpa only [Bool.or_eq_true, beq_iff_eq, or_assoc] using h

theorem station_not_delivering {r : Record} (ha : recordAgrees r = true) (hk : isStationKind r = true) :
    r.state ≠ .delivering := by
  intro h
  unfold recordAgrees at ha
  rcases stationKind_cases hk with hk | hk | hk <;> simp [hk, h] at ha

theorem stationOn_of_work {b : Branch} {r : Record} (ha : recordAgrees r = true) (hk : isStationKind r = true)
    (hw : waitsOn b r = true ∨ servedOn b r = true) : StationOn b r := by
  have hd := station_not_delivering ha hk
  unfold waitsOn servedOn at hw
  simp only [Bool.or_eq_true, Bool.and_eq_true, beq_iff_eq, hd, false_and, or_false] at hw
  rcases hw with ⟨hstate, hbranch⟩ | ⟨hstate, hbranch⟩
  · exact ⟨hk, hbranch, .inl hstate⟩
  · exact ⟨hk, hbranch, .inr hstate⟩

theorem StationOn.elsewhere {b d : Branch} {r : Record} (h : StationOn b r) (hd : d ≠ b) :
    waitsOn d r = false ∧ servedOn d r = false := by
  have hbranch : (r.branch == some d) = false := by
    rw [h.branch, beq_eq_false_iff_ne]
    exact fun e => hd (Option.some.inj e).symm
  unfold waitsOn servedOn
  rw [hbranch]
  rcases h.state with hs | hs <;> rw [hs] <;> exact ⟨rfl, rfl⟩

theorem StationOn.wantsRequest {b : Branch} {r : Record} (h : StationOn b r) (hk : r.kind ≠ some .cyclic) :
    Machine.wantsRequest r = true := by
  unfold Machine.wantsRequest
  rw [show (r.kind != some .cyclic) = true from bne_iff_ne.mpr hk]
  rcases h.state with hs | hs <;> rw [hs] <;> rfl

/-- Only a poll names a slot (R45). -/
theorem Fits.unslotted {x : Option Branch} {taken : Bool} {i : RecordIndex} {s : State} (hs : Fits x taken s)
    (hk : s.records[i].kind ≠ some .cyclic) : s.records[i].slot = none := by
  cases hslot : s.records[i].slot with
  | none => rfl
  | some k => exact absurd ((hs.slots k).poll i hslot).1 hk

theorem Fits.request_held {x : Option Branch} {taken : Bool} {b : Branch} {i : RecordIndex} {s : State}
    (hs : Fits x taken s) (hi : StationOn b s.records[i]) (hk : s.records[i].kind ≠ some .cyclic) :
    heldCount (.request i) s = 1 := by
  rw [(hs.records i).request, hi.wantsRequest hk]
  rfl

/-- A record at work has no outcome yet, so no ANSWER (R45). -/
theorem Fits.answer_none {x : Option Branch} {taken : Bool} {b : Branch} {i : RecordIndex} {s : State}
    (hs : Fits x taken s) (hi : StationOn b s.records[i]) : heldCount (.answer i) s = 0 := by
  have ha := (hs.records i).agrees
  have hnone : s.records[i].outcome = none := by
    have hended : s.records[i].state ≠ .ended := by rcases hi.state with h | h <;> rw [h] <;> exact nofun
    unfold recordAgrees at ha
    rcases stationKind_cases hi.station with hk | hk | hk <;>
      simp only [hk, Bool.and_eq_true, beq_false_of_ne hended, beq_iff_eq, Option.isNone_iff_eq_none,
        Option.isSome_eq_false_iff] at ha
    · exact ha.1.2
    · exact ha.1.2
    · exact ha.1.2
  rw [(hs.records i).answer, hnone]
  rfl

/-! ### The record has left the branch -/

/-- The work of branch `b` on record `i` is settled: the record has left the branch, and nothing else has moved. -/
structure LeftBranch (b : Branch) (taken : Bool) (i : RecordIndex) (s t : State) : Prop where
  fits : Fits (some b) taken t
  others : ∀ j ≠ i, t.records[j] = s.records[j]
  left : waitsOn b t.records[i] = false ∧ servedOn b t.records[i] = false
  queue : i ∉ s.branches[b].queue → t.branches[b].queue = s.branches[b].queue
  answer : heldCount (.branchAnswer b) t = 0

theorem TrunkFits.freed {taken : Bool} {i : RecordIndex} {u : State} (h : TrunkFits taken u) :
    TrunkFits taken (Machine.freeRecord i u) := by
  have hcount : ∀ {h : Holder}, h ≠ .free → h ≠ .request i → h ≠ .answer i →
      heldCount h (Machine.freeRecord i u) = heldCount h u := fun hf hr ha =>
    (heldCount_freeRecord hf i u).trans (if_neg (by rintro (h | h); exacts [hr h, ha h]))
  refine h.same ?_ ?_ ?_ rfl (hcount nofun nofun nofun) (hcount nofun nofun nofun) (hcount nofun nofun nofun)
  all_goals rw [freeRecord_trunk]

/-- A station record that is freed, after a change `u` of no more than its buffers, the answer buffer, its slot and the
trunk. -/
theorem leftBranch_freed {taken : Bool} {b : Branch} {i : RecordIndex} {s u : State} (hs : Fits (some b) taken s)
    (hi : StationOn b s.records[i]) (hrecords : u.records = s.records) (hbranches : u.branches = s.branches)
    (hcompletions : u.completions = s.completions)
    (hslots : ∀ k : SlotIndex, s.records[i].slot ≠ some k → u.slots[k] = s.slots[k])
    (hpoll : ∀ k : SlotIndex, s.records[i].slot = some k → u.slots[k].config = s.slots[k].config ∧
      (u.slots[k].state = .unset ↔ s.slots[k].state = .unset) ∧ ¬ u.slots[k].state.polling ∧
      heldCount (.snapshot k) u = if u.slots[k].age.isSome then 1 else 0)
    (hheld : ∀ h : Holder, h.ofBlock → h ≠ .branchAnswer b → h ≠ .request i → h ≠ .answer i →
      (∀ k, s.records[i].slot = some k → h ≠ .snapshot k) → heldCount h u = heldCount h s)
    (hanswer : heldCount (.branchAnswer b) u = 0) (trunk : TrunkFits taken u) :
    LeftBranch b taken i s (freeRecord i u) where
  fits := hs.freed (fun j _ => by rw [hrecords]) hbranches hcompletions hslots hpoll
    (fun d hd => (hi.elsewhere fun h => hd (by rw [h])).2)
    (fun h hb hne => hheld h hb fun e => hne b e rfl) trunk.freed
  others j hj := by
    rw [freeRecord_records, if_neg hj, hrecords]
  left := by
    rw [freeRecord_records, if_pos rfl]
    exact free_waits_nowhere b
  queue h := by rw [freeRecord_queue, hbranches, filter_eq_self_of_not_mem h]
  answer := (heldCount_freeRecord (g := .branchAnswer b) nofun i u).trans
    ((if_neg (by rintro (h | h) <;> cases h)).trans hanswer)

/-- The same for a record that names no slot. -/
theorem leftBranch_freed_unslotted {taken : Bool} {b : Branch} {i : RecordIndex} {s u : State}
    (hs : Fits (some b) taken s) (hi : StationOn b s.records[i]) (hk : s.records[i].kind ≠ some .cyclic)
    (hrecords : u.records = s.records) (hbranches : u.branches = s.branches)
    (hcompletions : u.completions = s.completions)
    (hslots : u.slots = s.slots)
    (hheld : ∀ h : Holder, h.ofBlock → h ≠ .branchAnswer b → h ≠ .request i → h ≠ .answer i →
      heldCount h u = heldCount h s)
    (hanswer : heldCount (.branchAnswer b) u = 0) (trunk : TrunkFits taken u) :
    LeftBranch b taken i s (freeRecord i u) := by
  have hslot := hs.unslotted hk
  exact leftBranch_freed hs hi hrecords hbranches hcompletions (fun k _ => by rw [hslots])
    (fun k h => absurd (hslot.symm.trans h) nofun) (fun h hb hne hr ha _ => hheld h hb hne hr ha) hanswer trunk

/-- An answer in hand when the outcome is ANSWERED, and none otherwise. -/
def answerInHand (b : Branch) (o : ExchangeOutcome) (s : State) : Prop :=
  heldCount (.branchAnswer b) s = if o = .answered then 1 else 0

theorem leftBranch_dropped {taken : Bool} {b : Branch} {i : RecordIndex} {o : ExchangeOutcome} {s : State}
    (hs : Fits (some b) taken s) (hi : StationOn b s.records[i]) (hk : s.records[i].kind ≠ some .cyclic)
    (hanswer : answerInHand b o s) : LeftBranch b taken i s (freeRecord i (dropLateAnswer b o s)) := by
  unfold answerInHand at hanswer
  unfold dropLateAnswer
  split
  · have hcount : ∀ {h : Holder}, h ≠ .free → h ≠ .branchAnswer b →
        heldCount h (returnBuffer (.branchAnswer b) s) = heldCount h s := fun hf hne =>
      heldCount_returnBuffer_other s hf hne
    exact leftBranch_freed_unslotted (u := returnBuffer (.branchAnswer b) s) hs hi hk rfl rfl rfl rfl
      (fun h hb hne _ _ => hcount hb.ne_free hne) (heldCount_returnBuffer_same s)
      (hs.trunk.same (t := returnBuffer (.branchAnswer b) s) rfl rfl rfl rfl (hcount nofun nofun) (hcount nofun nofun)
        (hcount nofun nofun))
  · rename_i ho
    rw [if_neg ho] at hanswer
    exact leftBranch_freed_unslotted hs hi hk rfl rfl rfl rfl (fun _ _ _ _ _ => rfl) hanswer hs.trunk

/-! ### A TRANSPARENT record -/

/-- A record for which the master waits leaves no other reply (R102). -/
theorem Fits.reply_none {x : Option Branch} {taken : Bool} {i : RecordIndex} {s : State} (hs : Fits x taken s)
    (ho : OwedAgrees s) (ha : awaitedByTrunk s.records[i] = true) : heldCount .owedReply s = 0 := by
  obtain ⟨-, -, hawaited, -⟩ := owedAgrees_iff.mp ho
  rw [hs.trunk.reply, hawaited i ha]
  rfl

/-- What owing a reply leaves outside the buffers, and what it makes of the trunk (R102, R107). -/
theorem oweReply_fields (kind : OwedReply) (h : Holder) (s : State) : let u := oweReply kind h s
    u.records = s.records ∧ u.completions = s.completions ∧ u.slots = s.slots ∧ u.lastCode = s.lastCode ∧
      u.trunk.owed = kind ∧ u.trunk.port.rx = s.trunk.port.rx ∧ u.trunk.port.tx.sending = false := by
  dsimp only
  unfold oweReply
  generalize frameToSend h s = f
  exact ⟨rfl, rfl, rfl, rfl, rfl, rfl, rfl⟩

theorem answeredPart_fields (i : RecordIndex) (b : Branch) (s : State) : let u := answeredPart i b s
    u.records = s.records ∧ u.completions = s.completions ∧ u.slots = s.slots ∧ u.lastCode = s.lastCode ∧
      u.trunk.owed = .answer ∧ u.trunk.port.rx = s.trunk.port.rx ∧ u.trunk.port.tx.sending = false := by
  dsimp only
  unfold answeredPart
  dsimp only
  generalize mkFrame ((handOver (.branchAnswer b) (.answer i) s).records[i].trunkAddress.getD 0)
    (frameData ((heldFrame (.branchAnswer b) s).getD [])) = f
  exact oweReply_fields .answer .owedReply _

theorem heldCount_answeredPart (i : RecordIndex) (b : Branch) (s : State) (h : Holder) :
    heldCount h (answeredPart i b s) =
      heldCount h (handOver (.answer i) .owedReply (handOver (.branchAnswer b) (.answer i) s)) := by
  unfold answeredPart
  dsimp only
  refine (heldCount_handOver (h := .answer i) (g := .owedReply) nofun h
    (writeBuffer (.answer i) _ (handOver (.branchAnswer b) (.answer i) s))).trans ?_
  rw [heldCount_handOver (h := .answer i) (g := .owedReply) nofun h]
  simp only [heldCount_writeBuffer]

theorem leftBranch_answered {taken : Bool} {b : Branch} {i : RecordIndex} {s : State} (hs : Fits (some b) taken s)
    (hi : StationOn b s.records[i]) (hk : s.records[i].kind = some .transparent) (hreply : heldCount .owedReply s = 0)
    (hanswer : heldCount (.branchAnswer b) s = 1) : LeftBranch b taken i s (answerTransparent i b s) := by
  rw [answerTransparent_eq]
  have hcount := heldCount_answeredPart i b s
  have hbranches := answeredPart_branches i b s
  obtain ⟨hrecords, hlist, hslots, hlast, howed, hrx, hquiet⟩ := answeredPart_fields i b s
  generalize answeredPart i b s = u at *
  have hother : ∀ {h : Holder}, h ≠ .answer i → h ≠ .owedReply → h ≠ .branchAnswer b → heldCount h u = heldCount h s :=
    fun ha ho hb => by
      rw [hcount, heldCount_handOver_other _ (by nofun) ha ho, heldCount_handOver_other _ (by nofun) hb ha]
  refine leftBranch_freed_unslotted hs hi (by rw [hk]; exact nofun) hrecords hbranches hlist hslots
    (fun h hblock hb _ ha => hother ha (hblock.ne_trunk id) hb) ?_ ⟨?_, ?_, ?_, ?_⟩
  · rw [hcount, heldCount_handOver_other (k := .branchAnswer b), heldCount_handOver_from]
  · rw [hother (h := .trunkAssembly) nofun nofun nofun, hs.trunk.assembly]
    unfold storing State.port
    dsimp only
    rw [hrx]
  · rw [hcount, heldCount_handOver_to, heldCount_handOver_to, heldCount_handOver_other (k := .owedReply), hreply,
      hanswer, hs.answer_none hi, howed]
    rfl
  · rw [hother (h := .lastResponse) nofun nofun nofun, hs.trunk.response, hlast]
  · rw [hrx, hquiet]
    exact fun h => hs.trunk.hunts (.inl (h.resolve_right nofun))

theorem leftBranch_unanswered {taken : Bool} {b : Branch} {i : RecordIndex} {o : ExchangeOutcome} {s : State}
    (hs : Fits (some b) taken s) (hi : StationOn b s.records[i]) (hk : s.records[i].kind = some .transparent)
    (hreply : heldCount .owedReply s = 0) (hanswer : heldCount (.branchAnswer b) s = 0) :
    LeftBranch b taken i s (failTransparent i o s) := by
  have hk' : s.records[i].kind ≠ some .cyclic := by rw [hk]; exact nofun
  unfold failTransparent
  dsimp only
  split
  · have hwritten : ∀ h, heldCount h (writeBuffer (.request i)
        (proxyFrame s (s.records[i].trunkAddress.getD 0) (outcomeByte o)) s) = heldCount h s := fun h =>
      heldCount_writeBuffer ..
    generalize hu : oweProxy (.request i) (s.records[i].trunkAddress.getD 0) (outcomeByte o) s = u
    have hcount : ∀ h, heldCount h u = heldCount h (handOver (.request i) .owedReply s) := fun h => by
      rw [← hu]
      refine (heldCount_handOver (h := .request i) (g := .owedReply) nofun h _).trans ?_
      rw [heldCount_handOver (h := .request i) (g := .owedReply) nofun h]
      simp only [hwritten]
    have hother : ∀ {h : Holder}, h ≠ .request i → h ≠ .owedReply → heldCount h u = heldCount h s := fun hr ho => by
      rw [hcount, heldCount_handOver_other _ (by nofun) hr ho]
    refine leftBranch_freed_unslotted hs hi hk' (hu ▸ rfl) (hu ▸ rfl) (hu ▸ rfl) (hu ▸ rfl)
      (fun h hblock _ hr _ => hother hr (hblock.ne_trunk id))
      ((hother (h := .branchAnswer b) nofun nofun).trans hanswer) ⟨?_, ?_, ?_, ?_⟩
    · rw [hother (h := .trunkAssembly) nofun nofun, hs.trunk.assembly, ← hu]
      rfl
    · rw [hcount, heldCount_handOver_to, hreply, hs.request_held hi hk', ← hu]
      rfl
    · rw [hother (h := .lastResponse) nofun nofun, ← hu]
      exact hs.trunk.response
    · rw [← hu]
      rintro (h | h)
      · exact hs.trunk.hunts (.inl h)
      · cases h
  · exact leftBranch_freed_unslotted (u := setOwed .nothing s) hs hi hk' rfl rfl rfl rfl (fun _ _ _ _ _ => rfl) hanswer
      ⟨hs.trunk.assembly, hreply, hs.trunk.response, hs.trunk.hunts⟩

theorem leftBranch_transparent {taken : Bool} {b : Branch} {i : RecordIndex} {o : ExchangeOutcome} {s : State}
    (hs : Fits (some b) taken s) (ho : OwedAgrees s) (hi : StationOn b s.records[i])
    (hk : s.records[i].kind = some .transparent) (hanswer : answerInHand b o s) :
    LeftBranch b taken i s (settleTransparent i b o s) := by
  unfold settleTransparent
  split
  · exact leftBranch_dropped hs hi (by rw [hk]; exact nofun) hanswer
  · rename_i habandoned
    have hreply := hs.reply_none ho (awaitedByTrunk_iff.mpr ⟨hk, Bool.eq_false_iff.mpr habandoned⟩)
    unfold answerInHand at hanswer
    split
    · rename_i h
      exact leftBranch_answered hs hi hk hreply (hanswer.trans (if_pos h))
    · rename_i h
      exact leftBranch_unanswered hs hi hk hreply (hanswer.trans (if_neg h))

end Sys2Proof.Machine
end

section
/-!
The other outcomes while the branch stands aside: a DEFERRED record ended, a poll over, a record retried, and a group
record that loses the branch (R55, R60 to R62).
-/

namespace Sys2Proof.Machine

-- The gate's memory limit counts every thread's arena, so the declarations are elaborated one after another.
set_option Elab.async false

/-! ### A record that stays in the table -/

/-- Record `i` is changed in its own row: what the slots see of it stands. -/
theorem Fits.record_changed {x y : Option Branch} {taken : Bool} {i : RecordIndex} {s t : State} (hs : Fits x taken s)
    (hothers : ∀ j ≠ i, t.records[j] = s.records[j]) (hrecord : RecordFits i t)
    (hlist : ∀ j ≠ i, j ∈ t.completions ↔ j ∈ s.completions) (hnodup : t.completions.Nodup) (hslots : t.slots = s.slots)
    (hslot : t.records[i].slot = s.records[i].slot ∧ t.records[i].kind = s.records[i].kind ∧
      t.records[i].branch = s.records[i].branch)
    (hbranches : ∀ d : Branch, some d ≠ y → BranchFits d t)
    (hheld : ∀ h : Holder, h.ofBlock → (∀ d, h ≠ .branchAnswer d) → h ≠ .request i → h ≠ .answer i →
      heldCount h t = heldCount h s) (trunk : TrunkFits taken t) : Fits y taken t := by
  refine hs.touch (fun j => ?_) (fun d hd => .inl (hbranches d hd)) (fun k => .inr (slotSame_of_slot (by rw [hslots])
    (fun j => ?_) (hheld (.snapshot k) trivial nofun nofun nofun))) hnodup trunk
  · by_cases hj : j = i
    · subst hj
      exact .inl hrecord
    · exact .inr (recordSame_of_eq (hothers j hj) (hlist j hj)
        (hheld (.request j) trivial nofun (fun e => hj (Holder.request.inj e)) nofun)
        (hheld (.answer j) trivial nofun nofun fun e => hj (Holder.answer.inj e)))
  · by_cases hj : j = i
    · subst hj
      exact .inr (.inr hslot)
    · exact .inl (hothers j hj)

/-- The branches on which the changed record does not work. -/
theorem branchFits_elsewhere {d : Branch} {i : RecordIndex} {s t : State} (hd : BranchFits d s)
    (hothers : ∀ j ≠ i, t.records[j] = s.records[j])
    (hwaits : waitsOn d t.records[i] = waitsOn d s.records[i])
    (hserves : servedOn d t.records[i] = servedOn d s.records[i])
    (hkind : t.records[i].kind = s.records[i].kind)
    (hbranch : t.branches[d].queue = s.branches[d].queue ∧ t.branches[d].onLine = s.branches[d].onLine ∧
      t.branches[d].status = s.branches[d].status)
    (hcount : heldCount (.branchAnswer d) t = heldCount (.branchAnswer d) s) : BranchFits d t := by
  obtain ⟨hqueue, hline, hstatus⟩ := hbranch
  have hsame : ∀ {α : Type} (f : Record → α), f t.records[i] = f s.records[i] →
      ∀ j : RecordIndex, f t.records[j] = f s.records[j] := fun f hf j => by
    by_cases hj : j = i
    · subst hj
      exact hf
    · rw [hothers j hj]
  have hsame_service : inService t d = inService s d := by
    unfold inService
    rw [hstatus]
  exact BranchSame.fits ⟨hqueue, hline, fun h => hsame_service ▸ h, fun h => hstatus ▸ h, hsame _ hwaits,
    hsame _ hserves,
    fun j _ => hsame isStationKind (isStationKind_kind hkind) j, hcount⟩ hd

/-! ### A DEFERRED record -/

theorem recordAgrees_ended {b : Branch} {r : Record} (o : ExchangeOutcome) (n : Timer) (ha : recordAgrees r = true)
    (hi : StationOn b r) (hk : r.kind = some .deferred) (hc : r.cancelPending = false) :
    recordAgrees { r with state := .ended, outcome := some o, hold := some n } = true := by
  have hended : (r.state == .ended) = false := by rcases hi.state with h | h <;> rw [h] <;> rfl
  unfold recordAgrees at ha ⊢
  simp only [hk, hended, hc, Bool.and_eq_true] at ha ⊢
  simp [hi.branch, ha.1.1.1.1.2, ha.1.1.1.2]

/-- What ending a DEFERRED record does to the buffers. -/
theorem heldCount_endDeferred {i : RecordIndex} {b : Branch} {o : ExchangeOutcome} {s : State} (h : Holder) :
    heldCount h (endDeferred i b o s) = heldCount h (if o = .answered then
      handOver (.branchAnswer b) (.answer i) (returnBuffer (.request i) s) else returnBuffer (.request i) s) := rfl

/-- What ending a DEFERRED record leaves outside the buffers. -/
theorem endDeferred_fields (i : RecordIndex) (b : Branch) (o : ExchangeOutcome) (s : State) :
    let t := endDeferred i b o s
    (∃ n, t.records[i] = { s.records[i] with state := .ended, outcome := some o, hold := some n }) ∧
      (∀ j ≠ i, t.records[j] = s.records[j]) ∧ t.completions = s.completions ++ [i] ∧ t.slots = s.slots ∧
      t.trunk = s.trunk ∧ t.lastCode = s.lastCode ∧
      ∀ d : Branch, t.branches[d] = { s.branches[d] with queue := s.branches[d].queue.filter fun j => j != i } := by
  dsimp only
  unfold endDeferred
  dsimp only
  generalize hu : (if o = .answered then handOver (.branchAnswer b) (.answer i) (returnBuffer (.request i) s)
    else returnBuffer (.request i) s) = u
  have hsame : u = { s with buffers := u.buffers } := by
    rw [← hu]
    split <;> rfl
  rw [hsame]
  exact ⟨⟨_, updateAt_same ..⟩, fun j hj => updateAt_other _ _ hj, rfl, rfl, rfl, rfl,
    fun d => leaveQueues_branches i d _⟩

theorem leftBranch_ended {taken : Bool} {b : Branch} {i : RecordIndex} {o : ExchangeOutcome} {s : State}
    (hs : Fits (some b) taken s) (hi : StationOn b s.records[i]) (hk : s.records[i].kind = some .deferred)
    (hc : s.records[i].cancelPending = false) (hanswer : answerInHand b o s) :
    LeftBranch b taken i s (endDeferred i b o s) := by
  obtain ⟨⟨n, hrecord⟩, hothers, hlist, hslots, htrunk, hlast, hbranches⟩ := endDeferred_fields i b o s
  have hother : ∀ {h : Holder}, h ≠ .free → h ≠ .branchAnswer b → h ≠ .request i → h ≠ .answer i →
      heldCount h (endDeferred i b o s) = heldCount h s := fun hf hb hr ha => by
    rw [heldCount_endDeferred]
    split
    · rw [heldCount_handOver_other _ (by nofun) hb ha, heldCount_returnBuffer_other _ hf hr]
    · exact heldCount_returnBuffer_other _ hf hr
  have hrequest : heldCount (.request i) (endDeferred i b o s) = 0 := by
    rw [heldCount_endDeferred]
    split
    · rw [heldCount_handOver_other (k := .request i), heldCount_returnBuffer_same]
    · exact heldCount_returnBuffer_same s
  have hkept : heldCount (.answer i) (endDeferred i b o s) = if o = .answered then 1 else 0 := by
    have hnone : heldCount (.answer i) (returnBuffer (.request i) s) = 0 :=
      (heldCount_returnBuffer_other s).trans (hs.answer_none hi)
    unfold answerInHand at hanswer
    rw [heldCount_endDeferred]
    split
    · rename_i ho
      rw [if_pos ho] at hanswer
      rw [heldCount_handOver_to, hnone, heldCount_returnBuffer_other (g := .branchAnswer b), hanswer]
    · exact hnone
  have hgone : heldCount (.branchAnswer b) (endDeferred i b o s) = 0 := by
    unfold answerInHand at hanswer
    rw [heldCount_endDeferred]
    split
    · exact heldCount_handOver_from _
    · rename_i ho
      rw [if_neg ho] at hanswer
      exact (heldCount_returnBuffer_other s).trans hanswer
  have hunlisted : i ∉ s.completions := fun h => by
    have hst := (hs.records i).listed.mp h
    rcases hi.state with h | h <;> cases hst.symm.trans h
  have hleft : ∀ d, waitsOn d (endDeferred i b o s).records[i] = false ∧
      servedOn d (endDeferred i b o s).records[i] = false := fun d => by
    rw [hrecord]
    exact ⟨rfl, rfl⟩
  generalize endDeferred i b o s = t at *
  refine ⟨hs.record_changed hothers ⟨?_, ?_, ?_, ?_⟩ (fun j hj => ?_) ?_ hslots ?_ (fun d hd => ?_)
    (fun h hb hd hr ha => hother hb.ne_free (hd b) hr ha) ?_, hothers, hleft b, fun h => ?_, hgone⟩
  · rw [hrecord]
    exact recordAgrees_ended o n (hs.records i).agrees hi hk hc
  · rw [hrecord, hlist]
    simp
  · rw [hrecord, hrequest]
    unfold wantsRequest
    simp
  · rw [hrecord, hkept]
    cases o <;> rfl
  · rw [hlist]
    simp [hj]
  · rw [hlist, ← List.concat_eq_append]
    exact hs.nodup.concat hunlisted
  · rw [hrecord]
    exact ⟨rfl, rfl, rfl⟩
  · have hne : d ≠ b := fun h => hd (by rw [h])
    refine branchFits_without (i := i) (hs.branches d hd) hothers (hi.elsewhere hne).2 ?_ ?_ (hleft d).1 (hleft d).2
      (hother nofun (fun h => hne (Holder.branchAnswer.inj h)) nofun nofun)
    · rw [hbranches]
      rfl
    · rw [hbranches]
  · exact hs.trunk.same (by rw [htrunk]) (by rw [htrunk]) (by rw [htrunk]) hlast (hother nofun nofun nofun nofun)
      (hother nofun nofun nofun nofun) (hother nofun nofun nofun nofun)
  · rw [hbranches]
    exact filter_eq_self_of_not_mem h

theorem leftBranch_deferred {taken : Bool} {b : Branch} {i : RecordIndex} {o : ExchangeOutcome} {s : State}
    (hs : Fits (some b) taken s) (hi : StationOn b s.records[i]) (hk : s.records[i].kind = some .deferred)
    (hanswer : answerInHand b o s) : LeftBranch b taken i s (settleDeferred i b o s) := by
  unfold settleDeferred
  split
  · exact leftBranch_dropped hs hi (by rw [hk]; exact nofun) hanswer
  · rename_i hc
    exact leftBranch_ended hs hi hk (Bool.eq_false_iff.mpr hc) hanswer

/-! ### A CYCLIC record -/

theorem missedSlot_left {x : Slot} (h : x.state.polling) : (missedSlot x).config = x.config ∧
    (missedSlot x).state ≠ .unset ∧ ¬ (missedSlot x).state.polling ∧ (missedSlot x).age = x.age := by
  unfold missedSlot
  rcases h with h | h <;> rw [h] <;> exact ⟨rfl, nofun, not_polling (by simp), rfl⟩

/-- What the end of a poll does to its slot, the buffers and the rest. -/
theorem pollEnds_fields (k : SlotIndex) (b : Branch) (o : ExchangeOutcome) (s : State) :
    let u := pollEnds k b (o == .answered) s
    u = { s with slots := u.slots, buffers := u.buffers } ∧ (∀ j ≠ k, u.slots[j] = s.slots[j]) ∧
      (∃ q a m, u.slots[k] = { missedSlot s.slots[k] with seq := q, age := a, misses := m } ∧
        a = if o = .answered then some 0 else (missedSlot s.slots[k]).age) ∧
      ∀ h, heldCount h u = heldCount h
        (if o = .answered then handOver (.branchAnswer b) (.snapshot k) (returnBuffer (.snapshot k) s) else s) := by
  by_cases ho : o = .answered
  · obtain ⟨hsame, hother, hslot, -⟩ := pollEnds_answered k b s
    subst ho
    refine ⟨hsame, hother, ⟨_, _, _, hslot, rfl⟩, fun h => ?_⟩
    show heldCount h (slotLeavePoll k (replaceSnapshot k b s)) = _
    rw [if_pos rfl]
    unfold slotLeavePoll
    split <;> rfl
  · obtain ⟨hsame, hslot⟩ := pollEnds_missed k b s
    rw [show (o == .answered) = false from beq_false_of_ne ho]
    refine ⟨by rw [hsame], fun j hj => by rw [hslot, if_neg hj], ⟨_, _, _, by rw [hslot, if_pos rfl], ?_⟩, fun h => ?_⟩
    · rw [if_neg ho]
    · rw [if_neg ho, hsame]
      rfl

theorem leftBranch_cyclic {taken : Bool} {b : Branch} {i : RecordIndex} {o : ExchangeOutcome} {s : State}
    (hs : Fits (some b) taken s) (hi : StationOn b s.records[i]) (hk : s.records[i].kind = some .cyclic)
    (hanswer : answerInHand b o s) : LeftBranch b taken i s (settleCyclic i b o s) := by
  have hslot : s.records[i].slot.isSome = true := by
    have ha := (hs.records i).agrees
    unfold recordAgrees at ha
    simp only [hk, Bool.and_eq_true] at ha
    exact ha.1.1.1.1.1.2
  unfold answerInHand at hanswer
  unfold settleCyclic
  split
  · rename_i hnone
    rw [hnone] at hslot
    cases hslot
  · rename_i k hk'
    obtain ⟨hsame, hothers, ⟨q, a, m, hended, ha⟩, hcount⟩ := pollEnds_fields k b o s
    have hpolling := (hs.slots k).polled.mp ⟨i, hk'⟩
    obtain ⟨hconfig, hunset, hnot, hage⟩ := missedSlot_left hpolling
    generalize pollEnds k b (o == .answered) s = u at *
    have hother : ∀ {h : Holder}, h ≠ .free → h ≠ .branchAnswer b → h ≠ .snapshot k →
        heldCount h u = heldCount h s := by
      intro h hf hb hsn
      rw [hcount]
      split
      · rw [heldCount_handOver_other _ (by nofun) hb hsn, heldCount_returnBuffer_other _ hf hsn]
      · rfl
    refine leftBranch_freed hs hi (by rw [hsame]) (by rw [hsame]) (by rw [hsame])
      (fun j hj => hothers j fun h => hj (h ▸ hk')) (fun j hj => ?_)
      (fun h hb hne _ _ hsn => hother hb.ne_free hne (hsn k hk')) ?_
      (hs.trunk.same (by rw [hsame]) (by rw [hsame]) (by rw [hsame]) (by rw [hsame]) (hother nofun nofun nofun)
        (hother nofun nofun nofun) (hother nofun nofun nofun))
    · obtain rfl : k = j := Option.some.inj (hk'.symm.trans hj)
      rw [hended]
      refine ⟨hconfig, ⟨fun h => absurd h hunset, fun h => ?_⟩, hnot, ?_⟩
      · rcases hpolling with hp | hp <;> cases h.symm.trans hp
      · dsimp only
        rw [hcount, ha]
        split
        · rename_i ho
          rw [if_pos ho] at hanswer
          rw [heldCount_handOver_to, heldCount_returnBuffer_same,
            heldCount_returnBuffer_other (g := .branchAnswer b), hanswer]
          rfl
        · rw [(hs.slots k).snapshot, hage]
    · rw [hcount]
      split
      · exact heldCount_handOver_from _
      · rename_i ho
        rw [if_neg ho] at hanswer
        exact hanswer

/-! ### The outcome of a station record -/

theorem leftBranch_fixOutcome {taken : Bool} {b : Branch} {i : RecordIndex} {o : ExchangeOutcome} {s : State}
    (hs : Fits (some b) taken s) (ho : OwedAgrees s) (hi : StationOn b s.records[i]) (hanswer : answerInHand b o s) :
    LeftBranch b taken i s (fixOutcome i b o s) := by
  obtain ⟨hrecords, -, -, hbuffers, -, -, hbranches⟩ := noteOutcome_same o s
  have hunmoved : Unmoved s (noteOutcome o s) := by
    unfold noteOutcome
    split
    · exact raise_unmoved _ s
    · exact raise_unmoved _ s
    all_goals exact .refl s
  have hfits := hunmoved.fits hs
  have howed := (noteOutcome_owedSame o s).kept.agrees ho
  have hcount : answerInHand b o (noteOutcome o s) := by
    unfold answerInHand at hanswer ⊢
    rw [hunmoved.held (.branchAnswer b) nofun, hanswer]
  have hback : ∀ {t}, LeftBranch b taken i (noteOutcome o s) t → LeftBranch b taken i s t := fun h =>
    ⟨h.fits, fun j hj => by rw [h.others j hj, hrecords], h.left, fun hq => by
      have hqueue := h.queue (by rw [hbranches]; exact hq)
      rw [hqueue, hbranches], h.answer⟩
  rw [← hrecords] at hi
  unfold fixOutcome
  split
  · rename_i hk
    exact hback (leftBranch_transparent hfits howed hi (by rw [hrecords]; exact hk) hcount)
  · rename_i hk
    exact hback (leftBranch_deferred hfits hi (by rw [hrecords]; exact hk) hcount)
  · rename_i hk
    exact hback (leftBranch_cyclic hfits hi (by rw [hrecords]; exact hk) hcount)
  all_goals
    rename_i hk
    rw [hrecords] at hi
    rcases stationKind_cases hi.station with h | h | h <;> cases hk.symm.trans h

end Sys2Proof.Machine
end

section
/-!
A branch that stands aside with its queue and its line: the end of an attempt, a group frame sent, and the settlement of
all its work when it leaves service (R54, R55, R62, R63, R94).
-/

namespace Sys2Proof.Machine

-- The gate's memory limit counts every thread's arena, so the declarations are elaborated one after another.
set_option Elab.async false

/-! ### A group record loses the branch -/

theorem inSet_setWithout (x : BranchSet) (b d : Branch) : inSet (setWithout x b) d = (inSet x d && d != b) := by
  revert x b d
  decide

theorem inSet_setWith (x : BranchSet) (b d : Branch) : inSet (setWith x b) d = (inSet x d || d == b) := by
  revert x b d
  decide

theorem recordAgrees_group {r : Record} (hk : r.kind = some .group) : recordAgrees r = true ↔
    r.state = .delivering ∧ r.pendingSet ||| r.sendingSet ≠ 0 ∧ r.pendingSet &&& r.sendingSet = 0 ∧
      r.outcome = none ∧ r.hold = none := by
  unfold recordAgrees
  simp only [hk, Bool.and_eq_true, beq_iff_eq, bne_iff_ne, Option.isNone_iff_eq_none, and_assoc, ne_eq]

/-- A record without the branch. -/
def Record.withoutBranch (r : Record) (b : Branch) : Record :=
  { r with pendingSet := setWithout r.pendingSet b, sendingSet := setWithout r.sendingSet b }

theorem recordAgrees_withoutBranch {b : Branch} {r : Record} (hk : r.kind = some .group) (ha : recordAgrees r = true)
    (hleft : ¬ (setWithout r.pendingSet b = 0 ∧ setWithout r.sendingSet b = 0)) :
    recordAgrees (r.withoutBranch b) = true := by
  obtain ⟨hstate, -, hapart, houtcome, hhold⟩ := (recordAgrees_group hk).mp ha
  refine (recordAgrees_group (r := r.withoutBranch b) hk).mpr ⟨hstate, fun h => hleft (BitVec.or_eq_zero_iff.mp h), ?_,
    houtcome, hhold⟩
  show setWithout r.pendingSet b &&& setWithout r.sendingSet b = 0
  unfold setWithout
  rw [show ∀ p g m : BranchSet, p &&& m &&& (g &&& m) = p &&& g &&& m by decide, hapart]
  exact BitVec.zero_and

theorem withoutBranch_work {b : Branch} {r : Record} (hstate : r.state = .delivering) (d : Branch) :
    waitsOn d (r.withoutBranch b) = (waitsOn d r && d != b) ∧
      servedOn d (r.withoutBranch b) = (servedOn d r && d != b) := by
  unfold waitsOn servedOn Record.withoutBranch
  dsimp only
  rw [hstate, inSet_setWithout, inSet_setWithout]
  exact ⟨rfl, rfl⟩

theorem groupLeave_eq (b : Branch) (i : RecordIndex) (s : State) : groupLeave b i s =
    if setWithout s.records[i].pendingSet b = 0 ∧ setWithout s.records[i].sendingSet b = 0 then
      freeRecord i (modifyRecord i (fun r => r.withoutBranch b) s)
    else modifyRecord i (fun r => r.withoutBranch b) s := by
  have hrecord : (modifyRecord i (fun r => r.withoutBranch b) s).records[i] = s.records[i].withoutBranch b :=
    updateAt_same ..
  unfold groupLeave
  dsimp only
  rw [show (modifyRecord i (fun r => { r with
    pendingSet := setWithout r.pendingSet b, sendingSet := setWithout r.sendingSet b }) s).records[i] =
      s.records[i].withoutBranch b from hrecord]
  rfl

theorem leftBranch_group {taken : Bool} {b : Branch} {i : RecordIndex} {s : State} (hs : Fits (some b) taken s)
    (hk : s.records[i].kind = some .group) (hanswer : heldCount (.branchAnswer b) s = 0) :
    LeftBranch b taken i s (groupLeave b i s) := by
  have ha := (hs.records i).agrees
  obtain ⟨hstate, -⟩ := (recordAgrees_group hk).mp ha
  have hslot := hs.unslotted (i := i) (by rw [hk]; exact nofun)
  have hrecord : (modifyRecord i (fun r => r.withoutBranch b) s).records[i] = s.records[i].withoutBranch b :=
    updateAt_same ..
  have hothers : ∀ j ≠ i, (modifyRecord i (fun r => r.withoutBranch b) s).records[j] = s.records[j] := fun j hj =>
    modifyRecord_other i hj _ s
  have htrunk := hs.trunk.same (t := modifyRecord i (fun r => r.withoutBranch b) s) rfl rfl rfl rfl rfl rfl rfl
  rw [groupLeave_eq]
  split
  · rename_i hempty
    refine ⟨hs.freed hothers rfl rfl (fun _ _ => rfl) (fun k h => absurd (hslot.symm.trans h) nofun) (fun d hd => ?_)
      (fun _ _ _ _ _ _ => rfl) htrunk.freed, fun j hj => ?_, ?_, fun h => ?_, ?_⟩
    · have hne : (d != b) = true := bne_iff_ne.mpr fun h => hd (by rw [h])
      have hserved := (withoutBranch_work (b := b) hstate d).2
      rw [hne, Bool.and_true] at hserved
      rw [← hserved]
      unfold servedOn Record.withoutBranch
      dsimp only
      rw [hstate, hempty.2]
      unfold inSet
      rw [show BitVec.getLsbD (0 : BranchSet) d.val = false from BitVec.getLsbD_zero]
      rfl
    · rw [freeRecord_records, if_neg hj]
      exact hothers j hj
    · rw [freeRecord_records, if_pos rfl]
      exact free_waits_nowhere b
    · rw [freeRecord_queue]
      exact filter_eq_self_of_not_mem h
    · exact (heldCount_freeRecord (g := .branchAnswer b) nofun i _).trans
        ((if_neg (by rintro (h | h) <;> cases h)).trans hanswer)
  · rename_i hleft
    have hwork := withoutBranch_work (b := b) hstate
    refine ⟨hs.record_changed hothers ⟨?_, ?_, ?_, ?_⟩ (fun _ _ => Iff.rfl) hs.nodup rfl ?_ (fun d hd => ?_)
      (fun _ _ _ _ _ => rfl) htrunk, hothers, ?_, fun _ => rfl, hanswer⟩
    · rw [hrecord]
      exact recordAgrees_withoutBranch hk ha hleft
    · rw [hrecord]
      exact (hs.records i).listed
    · rw [hrecord]
      exact (hs.records i).request
    · rw [hrecord]
      exact (hs.records i).answer
    · rw [hrecord]
      exact ⟨rfl, rfl, rfl⟩
    · have hne : (d != b) = true := bne_iff_ne.mpr fun h => hd (by rw [h])
      refine branchFits_elsewhere (hs.branches d hd) hothers ?_ ?_ (by rw [hrecord]; rfl) ⟨rfl, rfl, rfl⟩ rfl
      · rw [hrecord, (hwork d).1, hne, Bool.and_true]
      · rw [hrecord, (hwork d).2, hne, Bool.and_true]
    · rw [hrecord, (hwork b).1, (hwork b).2]
      simp

/-! ### A branch aside with its queue and its line -/

/-- The branch stands aside, its queue and its line in agreement with the records. -/
structure BranchAside (b : Branch) (taken : Bool) (s : State) : Prop where
  fits : Fits (some b) taken s
  nodup : s.branches[b].queue.Nodup
  waits : ∀ i : RecordIndex, i ∈ s.branches[b].queue ↔ waitsOn b s.records[i] = true
  serves : ∀ i : RecordIndex, s.branches[b].onLine = some i ↔ servedOn b s.records[i] = true

theorem Fits.standsAside {taken : Bool} {s : State} (hs : Fits none taken s) (b : Branch) : BranchAside b taken s :=
  ⟨hs.aside b, (hs.branches b nofun).nodup, (hs.branches b nofun).waits, (hs.branches b nofun).serves⟩

theorem BranchAside.changed {b : Branch} {taken : Bool} {s t : State} (h : BranchAside b taken s)
    (hfits : Fits (some b) taken t)
    (hbranch : t.branches[b].queue = s.branches[b].queue ∧ t.branches[b].onLine = s.branches[b].onLine)
    (hplace : ∀ i : RecordIndex, t.records[i].place = s.records[i].place) : BranchAside b taken t where
  fits := hfits
  nodup := by rw [hbranch.1]; exact h.nodup
  waits i := by rw [hbranch.1, waitsOn_place (hplace i)]; exact h.waits i
  serves i := by rw [hbranch.2, servedOn_place (hplace i)]; exact h.serves i

theorem BranchAside.modifyBranch {b : Branch} {taken : Bool} {s : State} {f : BranchState → BranchState}
    (h : BranchAside b taken s)
    (hf : (f s.branches[b]).queue = s.branches[b].queue ∧ (f s.branches[b]).onLine = s.branches[b].onLine) :
    BranchAside b taken (Machine.modifyBranch b f s) :=
  h.changed (fits_modifyBranch_aside h.fits) (by rw [modifyBranch_same]; exact hf) fun _ => rfl

theorem BranchAside.returnAnswer {b : Branch} {taken : Bool} {s : State} (h : BranchAside b taken s) :
    BranchAside b taken (returnBuffer (.branchAnswer b) s) :=
  h.changed (fits_returnAnswer_aside h.fits) ⟨rfl, rfl⟩ fun _ => rfl

theorem BranchAside.station {b : Branch} {taken : Bool} {i : RecordIndex} {s : State} (h : BranchAside b taken s)
    (hk : isStationKind s.records[i] = true) (hw : waitsOn b s.records[i] = true ∨ servedOn b s.records[i] = true) :
    StationOn b s.records[i] := stationOn_of_work (h.fits.records i).agrees hk hw

/-- A record served on the branch does not wait for it (R50). -/
theorem BranchAside.served_not_queued {b : Branch} {taken : Bool} {i : RecordIndex} {s : State}
    (h : BranchAside b taken s) (hi : s.branches[b].onLine = some i) : i ∉ s.branches[b].queue := fun hq =>
  waitsOn_ne_servedOn (h.fits.records i).agrees ((h.waits i).mp hq) ((h.serves i).mp hi)

/-- The branch drops the assignment that has been settled. -/
theorem BranchAside.dropped {b : Branch} {taken : Bool} {i : RecordIndex} {s t : State} (h : BranchAside b taken s)
    (hi : s.branches[b].onLine = some i) (hleft : LeftBranch b taken i s t) :
    BranchAside b taken (dropAssignment b t) := by
  have hqueue : (dropAssignment b t).branches[b].queue = s.branches[b].queue :=
    (congrArg BranchState.queue (modifyBranch_same ..)).trans (hleft.queue (h.served_not_queued hi))
  have hline : (dropAssignment b t).branches[b].onLine = none := congrArg BranchState.onLine (modifyBranch_same ..)
  refine ⟨fits_modifyBranch_aside hleft.fits, by rw [hqueue]; exact h.nodup, fun j => ?_, fun j => ?_⟩
  · rw [hqueue]
    show _ ↔ waitsOn b t.records[j] = true
    by_cases hj : j = i
    · subst hj
      exact ⟨fun hq => absurd hq (h.served_not_queued hi), fun hw => absurd (hleft.left.1.symm.trans hw) nofun⟩
    · rw [hleft.others j hj]
      exact h.waits j
  · rw [hline]
    show _ ↔ servedOn b t.records[j] = true
    by_cases hj : j = i
    · subst hj
      exact ⟨nofun, fun hw => absurd (hleft.left.2.symm.trans hw) nofun⟩
    · rw [hleft.others j hj]
      exact ⟨nofun, fun hw => absurd (Option.some.inj (hi.symm.trans ((h.serves j).mpr hw))) (Ne.symm hj)⟩

/-- The branch enters IDLE with no assignment and no answer. -/
theorem BranchAside.idle {b : Branch} {taken : Bool} {s : State} (h : BranchAside b taken s)
    (hline : s.branches[b].onLine = none) (hanswer : heldCount (.branchAnswer b) s = 0) :
    Fits none taken (enterIdle b s) := by
  have hbranch := enterIdle_branch b s
  rw [BranchState.rated_kept] at hbranch
  have hqueue : (enterIdle b s).branches[b].queue = s.branches[b].queue := by rw [hbranch]
  have hnone : (enterIdle b s).branches[b].onLine = none := by rw [hbranch, ← hline]
  have hidle : (enterIdle b s).branches[b].status = .idle := by rw [hbranch]
  refine (fits_enterIdle b h.fits).rejoined ⟨by rw [hqueue]; exact h.nodup, fun hout => ?_, fun i => ?_, fun i => ?_,
    fun i hi => ?_, ?_⟩
  · unfold inService at hout
    rw [hidle] at hout
    cases hout
  · rw [hqueue, enterIdle_records]
    exact h.waits i
  · rw [hnone, enterIdle_records, ← hline]
    exact h.serves i
  · cases hnone.symm.trans hi
  · rw [hnone]
    exact (heldCount_of_buffers (enterIdle_buffers ..) _).trans hanswer

end Sys2Proof.Machine
end

section
/-!
The end of an attempt, of a transmission and of a branch's service (R54, R83 to R88, R92, R94).
-/

namespace Sys2Proof.Machine

-- The gate's memory limit counts every thread's arena, so the declarations are elaborated one after another.
set_option Elab.async false

/-! ### The end of an attempt -/

theorem recordAgrees_retried {b : Branch} {r : Record} (ha : recordAgrees r = true) (hi : StationOn b r)
    (hk : r.kind ≠ some .cyclic) (habandoned : r.abandoned = false) (hcancel : r.cancelPending = false) (n : Nat) :
    recordAgrees { r with state := .queued, retriesLeft := n } = true := by
  have hended : (r.state == .ended) = false := by rcases hi.state with h | h <;> rw [h] <;> rfl
  unfold recordAgrees at ha ⊢
  rcases stationKind_cases hi.station with h | h | h
  · simp only [h, habandoned, hcancel, hi.branch, Bool.and_eq_true] at ha ⊢
    exact ⟨⟨by simp, ha.1.2⟩, ha.2⟩
  · simp only [h, habandoned, hcancel, hi.branch, hended, Bool.and_eq_true] at ha ⊢
    exact ⟨⟨⟨⟨⟨by simp, ha.1.1.1.1.2⟩, by simp⟩, by simp⟩, ha.1.2⟩, ha.2⟩
  · exact absurd h hk

/-- A record that may be retried is no poll (R45). -/
theorem not_cyclic_of_retries {r : Record} (ha : recordAgrees r = true) (hn : r.retriesLeft ≠ 0) :
    r.kind ≠ some .cyclic := by
  intro hk
  unfold recordAgrees at ha
  simp only [hk, Bool.and_eq_true, beq_iff_eq] at ha
  exact hn ha.1.1.1.1.2

theorem BranchAside.retried {b : Branch} {taken : Bool} {i : RecordIndex} {s : State} (h : BranchAside b taken s)
    (hi : s.branches[b].onLine = some i) (hk : isStationKind s.records[i] = true)
    (habandoned : s.records[i].abandoned = false) (hcancel : s.records[i].cancelPending = false)
    (hn : s.records[i].retriesLeft ≠ 0) : BranchAside b taken (dropAssignment b (retryRecord i b s)) := by
  have hon := h.station hk (.inr ((h.serves i).mp hi))
  have ha := (h.fits.records i).agrees
  have hcyclic := not_cyclic_of_retries ha hn
  have hother : ∀ j ≠ i, (retryRecord i b s).records[j] = s.records[j] := fun j hj => modifyRecord_other i hj _ s
  have hrecord : (retryRecord i b s).records[i] =
      { s.records[i] with state := .queued, retriesLeft := s.records[i].retriesLeft - 1 } := modifyRecord_same ..
  have hbranch : (retryRecord i b s).branches[b] = { s.branches[b] with queue := i :: s.branches[b].queue } :=
    modifyBranch_same ..
  have hbranches : ∀ d ≠ b, (retryRecord i b s).branches[d] = s.branches[d] := fun d hd => modifyBranch_other hd _ _
  have hcount : ∀ g, heldCount g (retryRecord i b s) = heldCount g s := fun _ => rfl
  have htrunk := h.fits.trunk.same (s := s) (t := retryRecord i b s) rfl rfl rfl rfl rfl rfl rfl
  have hlist : (retryRecord i b s).completions = s.completions := rfl
  have hslots : (retryRecord i b s).slots = s.slots := rfl
  generalize retryRecord i b s = t at *
  have hwaits : waitsOn b t.records[i] = true := by
    rw [hrecord]
    unfold waitsOn
    dsimp only
    rw [hon.branch]
    simp
  have hserves : servedOn b t.records[i] = false := by
    rw [hrecord]
    rfl
  have hon' : StationOn b t.records[i] := by
    rw [hrecord]
    exact ⟨hk, hon.branch, .inl rfl⟩
  have hfits : Fits (some b) taken t := by
    refine h.fits.record_changed hother ⟨?_, ?_, ?_, ?_⟩ (fun _ _ => by rw [hlist]) (by rw [hlist]; exact h.fits.nodup)
      hslots (by rw [hrecord]; exact ⟨rfl, rfl, rfl⟩) (fun d hd => ?_) (fun g _ _ _ _ => hcount g) htrunk
    · rw [hrecord]
      exact recordAgrees_retried ha hon hcyclic habandoned hcancel _
    · rw [hlist, (h.fits.records i).listed, hrecord]
      refine ⟨fun he => ?_, nofun⟩
      rcases hon.state with hst | hst <;> cases hst.symm.trans he
    · rw [hcount, (h.fits.records i).request, hon.wantsRequest hcyclic,
        hon'.wantsRequest (by rw [hrecord]; exact hcyclic)]
    · rw [hcount, (h.fits.records i).answer, hrecord]
    · have hne : d ≠ b := fun e => hd (by rw [e])
      refine branchFits_elsewhere (h.fits.branches d hd) hother ?_ ?_ (by rw [hrecord]) ?_ (hcount _)
      · rw [(hon'.elsewhere hne).1, (hon.elsewhere hne).1]
      · rw [(hon'.elsewhere hne).2, (hon.elsewhere hne).2]
      · rw [hbranches d hne]
        exact ⟨rfl, rfl, rfl⟩
  have hqueue : (dropAssignment b t).branches[b].queue = i :: s.branches[b].queue :=
    (congrArg BranchState.queue (modifyBranch_same ..)).trans (congrArg BranchState.queue hbranch)
  have hline : (dropAssignment b t).branches[b].onLine = none := congrArg BranchState.onLine (modifyBranch_same ..)
  refine ⟨fits_modifyBranch_aside hfits, ?_, fun j => ?_, fun j => ?_⟩
  · rw [hqueue]
    exact List.nodup_cons.mpr ⟨h.served_not_queued hi, h.nodup⟩
  · rw [hqueue, List.mem_cons]
    show _ ↔ waitsOn b t.records[j] = true
    by_cases hj : j = i
    · subst hj
      exact ⟨fun _ => hwaits, fun _ => .inl rfl⟩
    · rw [hother j hj, ← h.waits j]
      exact ⟨fun hm => hm.resolve_left hj, .inr⟩
  · rw [hline]
    show _ ↔ servedOn b t.records[j] = true
    by_cases hj : j = i
    · subst hj
      rw [hserves]
      exact ⟨nofun, nofun⟩
    · rw [hother j hj]
      exact ⟨nofun, fun hw => absurd (Option.some.inj (hi.symm.trans ((h.serves j).mpr hw))) (Ne.symm hj)⟩

/-- The record on line is retried or its outcome fixed, and the assignment dropped (R54, R55). -/
theorem BranchAside.attempted {b : Branch} {taken : Bool} {i : RecordIndex} {o : ExchangeOutcome} {s : State}
    (h : BranchAside b taken s) (ho : OwedAgrees s) (hi : s.branches[b].onLine = some i)
    (hk : isStationKind s.records[i] = true) (hanswer : answerInHand b o s) :
    BranchAside b taken (dropAssignment b (settleAttempt i b o s)) ∧
      heldCount (.branchAnswer b) (dropAssignment b (settleAttempt i b o s)) = 0 := by
  have hon := h.station hk (.inr ((h.serves i).mp hi))
  unfold settleAttempt
  dsimp only
  split
  · have hleft := leftBranch_fixOutcome h.fits ho hon hanswer
    exact ⟨h.dropped hi hleft, hleft.answer⟩
  · rename_i hretry
    simp only [Bool.or_eq_true, decide_eq_true_eq, beq_iff_eq, not_or, Bool.not_eq_true] at hretry
    obtain ⟨⟨⟨hne, habandoned⟩, hcancel⟩, hn⟩ := hretry
    unfold answerInHand at hanswer
    rw [if_neg hne] at hanswer
    exact ⟨h.retried hi hk habandoned hcancel hn, hanswer⟩

/-- An attempt in AWAIT or RECV ends (R86 to R89). -/
theorem fits_attemptEnds {taken : Bool} {b : Branch} (o : ExchangeOutcome) {s : State} (hs : Fits none taken s)
    (ho : OwedAgrees s) (hst : s.branches[b].status = .await ∨ s.branches[b].status = .recv) :
    Fits none taken (attemptEnds b o s) := by
  cases hi : s.branches[b].onLine with
  | none =>
    have hnone : (modifyBranch b (fun x => { x with windowTimer := none }) s).branches[b].onLine = none :=
      (congrArg BranchState.onLine (modifyBranch_same ..)).trans hi
    have heq : attemptEnds b o s = enterIdle b (modifyBranch b (fun x => { x with windowTimer := none }) s) := by
      unfold attemptEnds
      dsimp only
      rw [hnone]
    rw [heq]
    exact fits_enterIdle b (fits_modifyBranch rfl rfl id id hs)
  | some i =>
    have hk := (hs.branches b nofun).station i hi hst
    have hcounted : BranchAside b taken (resultCounted b i o s) := (hs.standsAside b).modifyBranch ⟨rfl, rfl⟩
    have hline : (resultCounted b i o s).branches[b].onLine = some i :=
      (congrArg BranchState.onLine (modifyBranch_same ..)).trans hi
    have howed := (modifyBranch_owedSame b (fun x => { x with
      windowTimer := none
      counters := resultCounters o (s.records[i].abandoned || s.records[i].cancelPending) x.counters }) s).kept.agrees
        ho
    have hheld : heldCount (.branchAnswer b) (resultCounted b i o s) = 1 := by
      show heldCount (.branchAnswer b) s = 1
      rw [(hs.branches b nofun).answer, hi]
      exact if_pos hk
    have hreported : BranchAside b taken (resultReported b i o s) ∧ OwedAgrees (resultReported b i o s) ∧
        (resultReported b i o s).branches[b].onLine = some i ∧
        isStationKind (resultReported b i o s).records[i] = true ∧ answerInHand b o (resultReported b i o s) := by
      unfold resultReported answerInHand
      split
      · exact ⟨hcounted, howed, hline, hk, hheld⟩
      · exact ⟨hcounted.returnAnswer, (returnBuffer_owedSame _ _).kept.agrees howed, hline, hk,
          heldCount_returnBuffer_same _⟩
    obtain ⟨haside, howed', hline', hk', hanswer⟩ := hreported
    rw [attemptEnds_eq o hi]
    obtain ⟨hdropped, hnone⟩ := haside.attempted howed' hline' hk' hanswer
    exact hdropped.idle (congrArg BranchState.onLine (modifyBranch_same ..)) hnone

/-- A good frame ends the attempt as an answer or as a bad one (R86). -/
theorem fits_answerGood {taken : Bool} {b : Branch} (a : Byte) {s : State} (hs : Fits none taken s) (ho : OwedAgrees s)
    (hst : s.branches[b].status = .recv) : Fits none taken (answerGood b a s) := by
  unfold answerGood
  split
  · exact fits_enterIdle b hs
  · split
    · exact fits_attemptEnds .answered hs ho (.inr hst)
    · refine fits_attemptEnds .badAnswer ((modifyBranchCounters_unmoved b _ s).fits hs)
        ((modifyBranchCounters_unmoved b _ s).owedSame.kept.agrees ho) (.inr ?_)
      exact (congrArg BranchState.status (modifyBranch_same ..)).trans hst

/-! ### The end of a transmission -/

theorem countAttempt_place {r : Record} : (if r.kind = some .transparent ∨ r.kind = some .deferred then
    { r with attempts := r.attempts + 1 } else r).place = r.place := by
  split <;> rfl

theorem recordAgrees_countAttempt {r : Record} (h : recordAgrees r = true) :
    recordAgrees (if r.kind = some .transparent ∨ r.kind = some .deferred then
      { r with attempts := r.attempts + 1 } else r) = true := by
  split
  · rename_i hk
    unfold recordAgrees at h ⊢
    rcases hk with hk | hk <;> rw [hk] at h <;> dsimp only <;> rw [hk] <;> exact h
  · exact h

theorem fits_countAttempt {x : Option Branch} {taken : Bool} (i : RecordIndex) {s : State} (hs : Fits x taken s) :
    Fits x taken (countAttempt i s) := fits_modifyRecord recordAgrees_countAttempt countAttempt_place hs

theorem countAttempt_kind (i : RecordIndex) (s : State) : (countAttempt i s).records[i].kind = s.records[i].kind :=
  (congrArg Record.kind (modifyRecord_same ..)).trans (place_fields countAttempt_place).1

theorem BranchAside.counted {b : Branch} {taken : Bool} {s : State} (h : BranchAside b taken s) (i : RecordIndex) :
    BranchAside b taken (countAttempt i s) := by
  refine h.changed (fits_countAttempt i h.fits) ⟨rfl, rfl⟩ fun j => ?_
  by_cases hj : j = i
  · subst hj
    exact (congrArg Record.place (modifyRecord_same ..)).trans countAttempt_place
  · exact congrArg Record.place (modifyRecord_other i hj _ s)

/-- A record at work that is no station record is a GROUP record. -/
theorem group_of_work {b : Branch} {r : Record} (ha : recordAgrees r = true) (hk : isStationKind r = false)
    (hw : waitsOn b r = true ∨ servedOn b r = true) : r.kind = some .group := by
  cases hkind : r.kind with
  | none =>
    unfold recordAgrees at ha
    rw [hkind] at ha
    rw [beq_iff_eq.mp ha] at hw
    rcases hw with h | h
    · cases (free_waits_nowhere b).1.symm.trans h
    · cases (free_waits_nowhere b).2.symm.trans h
  | some k =>
    unfold isStationKind at hk
    rw [hkind] at hk
    cases k with
    | group => rfl
    | transparent | deferred | cyclic => cases hk

/-- The branch awaits the answer to a station record (R83). -/
theorem fits_awaits {taken : Bool} {b : Branch} {i : RecordIndex} {f : BranchState → BranchState} {s : State}
    (hs : Fits none taken s) (hi : s.branches[b].onLine = some i) (hk : isStationKind s.records[i] = true)
    (hf : (f s.branches[b]).queue = s.branches[b].queue ∧ (f s.branches[b]).onLine = s.branches[b].onLine ∧
      (f s.branches[b]).status = .await) : Fits none taken (modifyBranch b f s) := by
  obtain ⟨hqueue, hline, hstatus⟩ := hf
  have hb := hs.branches b nofun
  have haside := (hs.standsAside b).modifyBranch (f := f) ⟨hqueue, hline⟩
  have hbranch : (modifyBranch b f s).branches[b] = f s.branches[b] := modifyBranch_same ..
  refine haside.fits.rejoined ⟨haside.nodup, fun hout => ?_, haside.waits, haside.serves, fun j hj _ => ?_, ?_⟩
  · unfold inService at hout
    rw [hbranch, hstatus] at hout
    cases hout
  · rw [hbranch, hline, hi] at hj
    obtain rfl := Option.some.inj hj
    exact hk
  · rw [hbranch, hline]
    exact hb.answer

/-- The branch's frame has been sent: the record awaits its answer, or the group record loses the branch (R83). -/
theorem fits_sendCompleted {taken : Bool} {b : Branch} {s : State} (hs : Fits none taken s) :
    Fits none taken (sendCompleted b s) := by
  have hport : Fits none taken (modifyBranch b (fun x => { x with contentionRun := 0 })
      (transmissionComplete (.branch b) s)) := fits_modifyBranch rfl rfl id id (fits_modifyBranch rfl rfl id id hs)
  unfold sendCompleted
  dsimp only
  generalize modifyBranch b (fun x => { x with contentionRun := 0 }) (transmissionComplete (.branch b) s) = u at *
  split
  · exact fits_enterIdle b hport
  · rename_i i hi
    have hcounted := fits_countAttempt i hport
    have hline : (countAttempt i u).branches[b].onLine = some i := hi
    generalize countAttempt i u = v at *
    split
    · rename_i hk
      exact fits_awaits hcounted hline hk ⟨rfl, rfl, rfl⟩
    · rename_i hk
      have haside := hcounted.standsAside b
      have hwork := (haside.serves i).mp hline
      have hgroup := group_of_work (hcounted.records i).agrees (Bool.eq_false_iff.mpr hk) (.inr hwork)
      have hnone : heldCount (.branchAnswer b) v = 0 := by
        rw [(hcounted.branches b nofun).answer, hline]
        exact if_neg hk
      have hleft := leftBranch_group haside.fits hgroup hnone
      exact (haside.dropped hline hleft).idle (congrArg BranchState.onLine (modifyBranch_same ..)) hleft.answer

/-- After contention the record on line has been retried, settled or left, and the branch has no assignment (R84). -/
theorem BranchAside.contended {b : Branch} {taken : Bool} {s : State} (hs : Fits none taken s) (ho : OwedAgrees s) :
    let t := contendedWork b (contendedBranch b s)
    BranchAside b taken t ∧ t.branches[b].onLine = none ∧ heldCount (.branchAnswer b) t = 0 := by
  dsimp only
  have hport : BranchAside b taken (contendedBranch b s) := by
    refine (hs.standsAside b).changed ?_ ?_ fun _ => rfl
    · exact fits_modifyBranch_aside ((raise_unmoved .contention _).fits (fits_modifyBranch_aside (hs.aside b)))
    · rw [contendedBranch_branch]
      exact ⟨rfl, rfl⟩
  have howed := (contendedBranch_owedSame b s).kept.agrees ho
  have hline : (contendedBranch b s).branches[b].onLine = s.branches[b].onLine := by rw [contendedBranch_branch]
  have hanswer := (hs.branches b nofun).answer
  rw [show heldCount (.branchAnswer b) s = heldCount (.branchAnswer b) (contendedBranch b s) from rfl,
    show s.records = (contendedBranch b s).records from rfl, ← hline] at hanswer
  generalize contendedBranch b s = u at *
  unfold contendedWork
  split
  · rename_i hnone
    rw [hnone] at hanswer
    exact ⟨hport, hnone, hanswer⟩
  · rename_i i hi
    dsimp only
    have hcounted := hport.counted i
    have howed' := (countAttempt_owedSame i u).kept.agrees howed
    have hstation : isStationKind (countAttempt i u).records[i] = isStationKind u.records[i] :=
      isStationKind_kind (countAttempt_kind i u)
    have hline' : (countAttempt i u).branches[b].onLine = some i := hi
    rw [hi, Option.any_some, ← hstation] at hanswer
    rw [show heldCount (.branchAnswer b) u = heldCount (.branchAnswer b) (countAttempt i u) from rfl] at hanswer
    generalize countAttempt i u = v at *
    split
    · rename_i hk
      have hreturned := hcounted.returnAnswer
      obtain ⟨haside, hheld⟩ := hreturned.attempted (o := .contention) ((returnBuffer_owedSame _ v).kept.agrees howed')
        hline' hk (heldCount_returnBuffer_same v)
      exact ⟨haside, congrArg BranchState.onLine (modifyBranch_same ..), hheld⟩
    · rename_i hk
      rw [if_neg hk] at hanswer
      have hgroup := group_of_work (hcounted.fits.records i).agrees (Bool.eq_false_iff.mpr hk)
        (.inr ((hcounted.serves i).mp hline'))
      have hleft := leftBranch_group hcounted.fits hgroup hanswer
      exact ⟨hcounted.dropped hline' hleft, congrArg BranchState.onLine (modifyBranch_same ..), hleft.answer⟩

/-! ### The branch leaves service -/

/-- Nothing works on the branch that stands aside. -/
structure BranchBare (b : Branch) (taken : Bool) (s : State) : Prop where
  fits : Fits (some b) taken s
  unworked : ∀ i : RecordIndex, waitsOn b s.records[i] = false ∧ servedOn b s.records[i] = false
  answer : heldCount (.branchAnswer b) s = 0

theorem leftBranch_branchOff {taken : Bool} {b : Branch} {i : RecordIndex} {s : State} (hs : Fits (some b) taken s)
    (ho : OwedAgrees s) (hw : waitsOn b s.records[i] = true ∨ servedOn b s.records[i] = true)
    (hanswer : heldCount (.branchAnswer b) s = 0) : LeftBranch b taken i s (settleBranchOff b s i) := by
  have ha := (hs.records i).agrees
  unfold settleBranchOff
  split
  · rename_i hk
    exact leftBranch_group hs hk hanswer
  · rename_i hk
    refine leftBranch_fixOutcome hs ho (stationOn_of_work ha ?_ hw) hanswer
    cases hstation : isStationKind s.records[i] with
    | true => rfl
    | false => exact absurd (group_of_work ha hstation hw) hk

/-- One record after another leaves the branch, until none works on it. -/
theorem branchBare_foldl {taken : Bool} {b : Branch} : ∀ (l : List RecordIndex) {s : State}, l.Nodup →
    Fits (some b) taken s → OwedAgrees s → heldCount (.branchAnswer b) s = 0 →
    (∀ i : RecordIndex, waitsOn b s.records[i] = true ∨ servedOn b s.records[i] = true ↔ i ∈ l) →
    BranchBare b taken (l.foldl (settleBranchOff b) s)
  | [], s, _, hs, _, hanswer, hwork => by
    refine ⟨hs, fun i => ?_, hanswer⟩
    have hnone : ¬ (waitsOn b s.records[i] = true ∨ servedOn b s.records[i] = true) := fun h =>
      absurd ((hwork i).mp h) List.not_mem_nil
    rw [not_or, Bool.not_eq_true, Bool.not_eq_true] at hnone
    exact hnone
  | i :: l, s, hnodup, hs, ho, hanswer, hwork => by
    obtain ⟨hi, hl⟩ := List.nodup_cons.mp hnodup
    have hleft := leftBranch_branchOff hs ho ((hwork i).mpr List.mem_cons_self) hanswer
    refine branchBare_foldl l hl hleft.fits ((settleBranchOff_owedKept b s i).agrees ho) hleft.answer fun j => ?_
    by_cases hj : j = i
    · subst hj
      rw [hleft.left.1, hleft.left.2]
      exact ⟨by simp, fun h => absurd h hi⟩
    · rw [hleft.others j hj, hwork j, List.mem_cons]
      exact ⟨fun h => h.resolve_left hj, .inr⟩

theorem BranchAside.bare {b : Branch} {taken : Bool} {s : State} (h : BranchAside b taken s) (ho : OwedAgrees s)
    (hanswer : heldCount (.branchAnswer b) s = 0) : BranchBare b taken (settleBranchWork b s) := by
  have hemptied : ∀ {u : State}, BranchBare b taken u →
      BranchBare b taken (Machine.modifyBranch b (fun x => { x with onLine := none, queue := [] }) u) := fun h =>
    ⟨fits_modifyBranch_aside h.fits, h.unworked, h.answer⟩
  unfold settleBranchWork
  dsimp only
  cases hi : s.branches[b].onLine with
  | none =>
    refine hemptied (branchBare_foldl _ h.nodup h.fits ho hanswer fun i => ?_)
    rw [h.waits i, ← h.serves i, hi]
    exact ⟨fun h => h.resolve_right nofun, .inl⟩
  | some i =>
    dsimp only
    have hserved := (h.serves i).mp hi
    have hleft := leftBranch_branchOff h.fits ho (.inr hserved) hanswer
    rw [hleft.queue (h.served_not_queued hi)]
    refine hemptied (branchBare_foldl _ h.nodup hleft.fits ((settleBranchOff_owedKept b s i).agrees ho) hleft.answer
      fun j => ?_)
    by_cases hj : j = i
    · subst hj
      rw [hleft.left.1, hleft.left.2]
      exact ⟨by simp, fun hq => absurd hq (h.served_not_queued hi)⟩
    · rw [hleft.others j hj, h.waits j, ← h.serves j, hi]
      exact ⟨fun hw => hw.resolve_right fun e => hj (Option.some.inj e).symm, .inl⟩

theorem fits_abandonDuePolls {x : Option Branch} {taken : Bool} (b : Branch) {s : State} (hs : Fits x taken s) :
    Fits x taken (abandonDuePolls b s) := by
  have hslot : ∀ k : SlotIndex, (abandonDuePolls b s).slots[k] = if slotDueOn s b k then
      { s.slots[k] with state := .armed, misses := missUp s.slots[k].misses } else s.slots[k] :=
        fun k => tableOf_get _ _
  refine hs.touch (t := abandonDuePolls b s) (fun i => .inr (recordSame_of_eq rfl Iff.rfl rfl rfl))
    (fun d hd => .inr ⟨hd, ⟨rfl, rfl, id, id, fun _ => rfl, fun _ => rfl, fun _ _ => rfl, rfl⟩⟩) (fun k => ?_) hs.nodup
    (hs.trunk.same (s := s) (t := abandonDuePolls b s) rfl rfl rfl rfl rfl rfl rfl)
  by_cases hdue : slotDueOn s b k = true
  · have hstate : s.slots[k].state = .due := by
      unfold slotDueOn at hdue
      simp only [Bool.and_eq_true, beq_iff_eq] at hdue
      exact hdue.1
    have hslot' := (hslot k).trans (if_pos hdue)
    refine .inr ⟨by rw [hslot'], ?_, ?_, by rw [hslot'], fun _ => Iff.rfl, fun _ _ => ⟨rfl, rfl⟩, rfl⟩
    · rw [hslot', hstate]
      exact ⟨nofun, nofun⟩
    · rw [hslot', hstate]
      exact ⟨fun h => absurd h (not_polling (by simp)), fun h => absurd h (not_polling (by simp))⟩
  · have hslot' := (hslot k).trans (if_neg hdue)
    exact .inr (slotSame_of_slot hslot' (fun _ => .inl rfl) rfl)

theorem BranchAside.leftService {b : Branch} {taken : Bool} {s : State} (h : BranchAside b taken s) (ho : OwedAgrees s)
    (hanswer : heldCount (.branchAnswer b) s = 0) : BranchBare b taken (leaveService b s) ∧
      (leaveService b s).branches[b].onLine = none ∧ (leaveService b s).branches[b].queue = [] := by
  have hbare := h.bare ho hanswer
  have hbranch := leaveService_branch b s
  rw [BranchState.rated_kept] at hbranch
  refine ⟨?_, by rw [hbranch], by rw [hbranch]⟩
  have hrate := fits_applyPendingRate b hbare.fits
  have hrecords : (applyPendingRate b (settleBranchWork b s)).records = (settleBranchWork b s).records :=
    (applyPendingRate_same b _).1
  have hbuffers : (applyPendingRate b (settleBranchWork b s)).buffers = (settleBranchWork b s).buffers :=
    (applyPendingRate_same b _).2.2.1
  have hunworked := hbare.unworked
  have hheld : heldCount (.branchAnswer b) (applyPendingRate b (settleBranchWork b s)) = 0 := by
    rw [heldCount_of_buffers hbuffers]
    exact hbare.answer
  rw [← hrecords] at hunworked
  unfold leaveService
  dsimp only
  generalize applyPendingRate b (settleBranchWork b s) = u at *
  exact ⟨fits_modifyBranch_aside (fits_abandonDuePolls b hrate), hunworked, hheld⟩

/-- The branch out of service joins the others again, its queue empty and its line free (R92, R94). -/
theorem BranchBare.rejoined {b : Branch} {taken : Bool} {f : BranchState → BranchState} {s : State}
    (h : BranchBare b taken s) (hline : (f s.branches[b]).onLine = none) (hqueue : (f s.branches[b]).queue = []) :
    Fits none taken (modifyBranch b f s) := by
  have hbranch : (modifyBranch b f s).branches[b] = f s.branches[b] := modifyBranch_same ..
  refine (fits_modifyBranch_aside h.fits).rejoined ⟨?_, fun _ => ?_, fun i => ?_, fun i => ?_, fun i hi => ?_, ?_⟩
  · rw [hbranch, hqueue]
    exact List.nodup_nil
  · rw [hbranch, hqueue]
  · rw [hbranch, hqueue]
    show _ ↔ waitsOn b s.records[i] = true
    rw [(h.unworked i).1]
    simp
  · rw [hbranch, hline]
    show _ ↔ servedOn b s.records[i] = true
    rw [(h.unworked i).2]
    simp
  · rw [hbranch, hline] at hi
    cases hi
  · rw [hbranch, hline]
    exact h.answer

/-- Contention ends the transmission: IDLE, or FAULT at the third in a row (R84, R94). -/
theorem fits_sendContended {taken : Bool} {b : Branch} {s : State} (hs : Fits none taken s) (ho : OwedAgrees s) :
    Fits none taken (sendContended b s) := by
  obtain ⟨haside, hline, hanswer⟩ := BranchAside.contended (b := b) hs ho
  have howed := ((contendedBranch_owedSame b s).kept.trans (contendedWork_owedKept b _)).agrees ho
  rw [sendContended_eq]
  generalize contendedWork b (contendedBranch b s) = u at *
  split
  · obtain ⟨hbare, hnone, hempty⟩ := haside.leftService howed hanswer
    unfold enterFault
    dsimp only
    generalize leaveService b u = v at *
    exact BranchBare.rejoined ⟨(raise_unmoved .branchFault v).fits hbare.fits, hbare.unworked,
      hbare.answer⟩ hnone hempty
  · exact haside.idle hline hanswer

/-- A branch in service that is disabled leaves service with its port silent (R92). -/
theorem fits_leavesService {taken : Bool} (b : Branch) {s : State} (hs : Fits none taken s) (ho : OwedAgrees s) :
    Fits none taken (setStatus b .off (leaveService b (returnBuffer (.branchAnswer b)
      (modifyBranch b (fun x => { x with windowTimer := none }) (stopReceive b s))))) := by
  have haside : BranchAside b taken (returnBuffer (.branchAnswer b)
      (modifyBranch b (fun x => { x with windowTimer := none }) (stopReceive b s))) :=
    (((hs.standsAside b).modifyBranch ⟨rfl, rfl⟩).modifyBranch ⟨rfl, rfl⟩).returnAnswer
  have howed := (((stopReceive_owedSame b s).trans (modifyBranch_owedSame b (fun x => { x with windowTimer := none })
    _)).trans (returnBuffer_owedSame (.branchAnswer b) _)).kept.agrees ho
  have hheld := heldCount_returnBuffer_same (h := .branchAnswer b)
    (modifyBranch b (fun x => { x with windowTimer := none }) (stopReceive b s))
  generalize returnBuffer (.branchAnswer b)
    (modifyBranch b (fun x => { x with windowTimer := none }) (stopReceive b s)) = u
    at *
  obtain ⟨hbare, hnone, hempty⟩ := haside.leftService howed hheld
  generalize leaveService b u = v at *
  exact hbare.rejoined hnone hempty

/-- DISABLE (R92, R95). -/
theorem fits_disableBranch {taken : Bool} (b : Branch) {s : State} (hs : Fits none taken s) (ho : OwedAgrees s) :
    Fits none taken (disableBranch b s) := by
  unfold disableBranch
  split
  · exact hs
  · rename_i hfault
    refine fits_modifyBranch rfl rfl (fun _ => .inr ?_) (by rintro (h | h) <;> cases h)
      (fits_modifyBranch rfl rfl id id hs)
    exact (congrArg BranchState.status (modifyBranch_same ..)).trans hfault
  all_goals exact fits_leavesService b hs ho

end Sys2Proof.Machine
end

section
/-!
A record that is created: in the row of a FREE one, waiting on the branches it names or on line (R36, R37, R52, R53,
R81).
-/

namespace Sys2Proof.Machine

-- The gate's memory limit counts every thread's arena, so the declarations are elaborated one after another.
set_option Elab.async false

/-- Record `i` is created in the row of a FREE record: it names no slot that the agreement does not look at anew. -/
theorem Fits.created {taken after : Bool} {i : RecordIndex} {s t : State} (hs : Fits none taken s)
    (hfree : s.records[i] = .free) (hothers : ∀ j ≠ i, t.records[j] = s.records[j])
    (hagrees : recordAgrees t.records[i] = true) (hstate : t.records[i].state ≠ .ended)
    (houtcome : t.records[i].outcome = none)
    (hrequest : heldCount (.request i) t = if wantsRequest t.records[i] then 1 else 0)
    (hlist : t.completions = s.completions)
    (hslots : ∀ k : SlotIndex, SlotFits k t ∨ t.slots[k] = s.slots[k] ∧ t.records[i].slot ≠ some k)
    (hbranches : ∀ d : Branch, BranchFits d t)
    (hheld : ∀ h : Holder, h.ofBlock → (∀ d, h ≠ .branchAnswer d) → h ≠ .request i → heldCount h t = heldCount h s)
    (trunk : TrunkFits after t) : Fits none after t := by
  refine hs.touch (fun j => ?_) (fun d _ => .inl (hbranches d)) (fun k => ?_) (by rw [hlist]; exact hs.nodup) trunk
  · by_cases hj : j = i
    · subst hj
      have hold := hs.records j
      refine .inl ⟨hagrees, ?_, hrequest, ?_⟩
      · rw [hlist, hold.listed, hfree]
        exact ⟨nofun, fun h => absurd h hstate⟩
      · rw [hheld (.answer j) trivial nofun nofun, hold.answer, hfree, houtcome]
        rfl
    · exact .inr (recordSame_of_eq (hothers j hj) (by rw [hlist])
        (hheld (.request j) trivial nofun fun e => hj (Holder.request.inj e))
        (hheld (.answer j) trivial nofun nofun))
  · refine (hslots k).imp id fun ⟨hslot, hnot⟩ => slotSame_of_slot hslot (fun j => ?_)
      (hheld (.snapshot k) trivial nofun nofun)
    by_cases hj : j = i
    · subst hj
      exact .inr (.inl ⟨hnot, by rw [hfree]; nofun⟩)
    · exact .inl (hothers j hj)

/-- A branch whose queue the new record joins exactly when it waits there. -/
theorem branchFits_joined {d : Branch} {i : RecordIndex} {s t : State} (hd : BranchFits d s)
    (hfree : s.records[i] = .free) (hothers : ∀ j ≠ i, t.records[j] = s.records[j])
    (hmem : ∀ j, j ∈ t.branches[d].queue ↔ j ∈ s.branches[d].queue ∨ j = i ∧ waitsOn d t.records[i] = true)
    (hnodup : i ∉ s.branches[d].queue → t.branches[d].queue.Nodup)
    (hservice : waitsOn d t.records[i] = true → inService s d = true) (hserves : servedOn d t.records[i] = false)
    (hkept : t.branches[d].onLine = s.branches[d].onLine ∧ t.branches[d].status = s.branches[d].status)
    (hcount : heldCount (.branchAnswer d) t = heldCount (.branchAnswer d) s) : BranchFits d t := by
  obtain ⟨hline, hstatus⟩ := hkept
  have hfree_work := free_waits_nowhere d
  rw [← hfree] at hfree_work
  have hunqueued : i ∉ s.branches[d].queue := fun h => absurd (hfree_work.1.symm.trans ((hd.waits i).mp h)) nofun
  have hne : ∀ j, s.branches[d].onLine = some j → j ≠ i := by
    rintro j hj rfl
    exact absurd (hfree_work.2.symm.trans ((hd.serves j).mp hj)) nofun
  have hsame_service : inService t d = inService s d := by
    unfold inService
    rw [hstatus]
  refine ⟨hnodup hunqueued, fun hout => ?_, fun j => ?_, fun j => ?_, fun j hj hst => ?_, ?_⟩
  · rw [hsame_service] at hout
    refine List.eq_nil_iff_forall_not_mem.mpr fun j hj => ?_
    rcases (hmem j).mp hj with h | ⟨-, hw⟩
    · rw [hd.outOfService hout] at h
      exact absurd h List.not_mem_nil
    · cases hout.symm.trans (hservice hw)
  · rw [hmem]
    by_cases hj : j = i
    · subst hj
      exact ⟨fun h => (h.resolve_left hunqueued).2, fun h => .inr ⟨rfl, h⟩⟩
    · rw [hothers j hj, ← hd.waits j]
      exact ⟨fun h => h.resolve_right fun e => hj e.1, .inl⟩
  · rw [hline]
    by_cases hj : j = i
    · subst hj
      rw [hserves, hd.serves j, hfree_work.2]
    · rw [hothers j hj]
      exact hd.serves j
  · rw [hline] at hj
    rw [hothers j (hne j hj)]
    exact hd.station j hj (hstatus ▸ hst)
  · rw [hcount, hd.answer, hline]
    cases hon : s.branches[d].onLine with
    | none => rfl
    | some j =>
      show (if isStationKind s.records[j] then 1 else 0) = if isStationKind t.records[j] then 1 else 0
      rw [hothers j (hne j hon)]

/-- A branch that grants: the record leaves its queue for its line, with an answer buffer for a station record. -/
theorem branchFits_granted {b : Branch} {i : RecordIndex} {s t : State} (hb : BranchFits b s)
    (hothers : ∀ j ≠ i, t.records[j] = s.records[j]) (hnone : s.branches[b].onLine = none)
    (hqueue : t.branches[b].queue = s.branches[b].queue.filter fun j => j != i)
    (hline : t.branches[b].onLine = some i) (hstatus : t.branches[b].status = .lead)
    (hwaits : waitsOn b t.records[i] = false) (hserves : servedOn b t.records[i] = true)
    (hcount : heldCount (.branchAnswer b) t = if isStationKind t.records[i] then 1 else 0) : BranchFits b t := by
  refine ⟨?_, fun hout => ?_, fun j => ?_, fun j => ?_, fun j _ hst => ?_, ?_⟩
  · rw [hqueue]
    exact hb.nodup.filter _
  · unfold inService at hout
    rw [hstatus] at hout
    cases hout
  · rw [hqueue, List.mem_filter, bne_iff_ne]
    by_cases hj : j = i
    · subst hj
      rw [hwaits]
      simp
    · rw [hothers j hj, hb.waits j]
      exact ⟨fun h => h.1, fun h => ⟨h, hj⟩⟩
  · rw [hline]
    by_cases hj : j = i
    · subst hj
      exact ⟨fun _ => hserves, fun _ => rfl⟩
    · rw [hothers j hj, ← hb.serves j, hnone]
      exact ⟨fun h => absurd (Option.some.inj h).symm hj, nofun⟩
  · rw [hstatus] at hst
    rcases hst with h | h <;> cases h
  · rw [hcount, hline]
    rfl

/-! ### The records that a frame or SUBMIT creates -/

theorem free_of_lowest {s : State} {i : RecordIndex} (ho : OwedAgrees s) (hi : lowestFreeRecord s = some i) :
    s.records[i] = .free := by
  obtain ⟨-, -, -, hfree⟩ := owedAgrees_iff.mp ho
  exact hfree i (lowestFreeRecord_state hi)

/-- A FREE record has no REQUEST. -/
theorem Fits.request_none {x : Option Branch} {taken : Bool} {i : RecordIndex} {s : State} (hs : Fits x taken s)
    (hfree : s.records[i] = .free) : heldCount (.request i) s = 0 := by
  rw [(hs.records i).request, hfree]
  rfl

/-- The counts of the buffers once the frame in hand has become the REQUEST of a new record. -/
theorem heldCount_requestTaken {i : RecordIndex} {s : State} (hs : Fits none true s) (hfree : s.records[i] = .free) :
    heldCount (.request i) (handOver .trunkAssembly (.request i) s) = 1 ∧
      heldCount .trunkAssembly (handOver .trunkAssembly (.request i) s) = 0 ∧
      ∀ h, h ≠ .trunkAssembly → h ≠ .request i → heldCount h (handOver .trunkAssembly (.request i) s) =
        heldCount h s := by
  refine ⟨?_, heldCount_handOver_from s, fun h ht hr => heldCount_handOver_other s (by nofun) ht hr⟩
  rw [heldCount_handOver_to, hs.trunk.assembly, hs.request_none hfree]
  rfl

theorem recordAgrees_groupRecord (line : Byte) {x : BranchSet} (hx : x ≠ 0) :
    recordAgrees (groupRecord line x) = true := by
  refine (recordAgrees_group (r := groupRecord line x) rfl).mpr ⟨rfl, fun h => hx ?_, BitVec.and_zero, rfl, rfl⟩
  exact (BitVec.or_zero (x := x)).symm.trans h

theorem groupRecord_work (line : Byte) (x : BranchSet) (d : Branch) :
    waitsOn d (groupRecord line x) = inSet x d ∧ servedOn d (groupRecord line x) = false := by
  refine ⟨rfl, ?_⟩
  show inSet 0 d = false
  exact BitVec.getLsbD_zero

/-- The record of a group frame joins the queues of its set (R37, R50). -/
theorem fits_group {line : Byte} {x : BranchSet} {i : RecordIndex} {s : State} (hx : inServiceSet s x ≠ 0)
    (hi : lowestFreeRecord s = some i) (ho : OwedAgrees s) (hs : Fits none true s) :
    Fits none false (enqueueGroup (inServiceSet s x) i (modifyRecord i (fun _ => groupRecord line (inServiceSet s x))
      (handOver .trunkAssembly (.request i) s))) := by
  have hfree := free_of_lowest ho hi
  obtain ⟨hrequest, hassembly, hother⟩ := heldCount_requestTaken hs hfree
  have hinside : ∀ d, inSet (inServiceSet s x) d = true → inService s d = true := fun d h => by
    rw [inSet_inServiceSet, Bool.and_eq_true] at h
    exact h.2
  generalize inServiceSet s x = y at *
  generalize hu : enqueueGroup y i
    (modifyRecord i (fun _ => groupRecord line y) (handOver .trunkAssembly (.request i) s)) = u
  have hcount : ∀ h, heldCount h u = heldCount h (handOver .trunkAssembly (.request i) s) := fun h => hu ▸ rfl
  have hothers : ∀ j ≠ i, u.records[j] = s.records[j] := fun j hj => hu ▸ modifyRecord_other i hj _ _
  have hrecord : u.records[i] = groupRecord line y := hu ▸ modifyRecord_same ..
  have hbranch : ∀ d : Branch, u.branches[d] = if inSet y d then
      { s.branches[d] with queue := s.branches[d].queue ++ [i] } else s.branches[d] := fun d => hu ▸ tableOf_get _ _
  have hwork := groupRecord_work line y
  have hrx : u.trunk.port.rx = .hunt := hu ▸ hs.trunk.hunts (.inl rfl)
  refine hs.created hfree hothers (by rw [hrecord]; exact recordAgrees_groupRecord line hx) (by rw [hrecord]; nofun)
    (by rw [hrecord]; rfl) (by rw [hrecord, hcount, hrequest]; rfl) (hu ▸ rfl)
    (fun k => .inr ⟨hu ▸ rfl, by rw [hrecord]; nofun⟩) (fun d => ?_)
    (fun h hb _ hr => (hcount h).trans (hother h (hb.ne_trunk id) hr)) ⟨?_, ?_, ?_, fun _ => hrx⟩
  · refine branchFits_joined (hs.branches d nofun) hfree hothers (fun j => ?_) (fun hq => ?_) (fun hw => ?_)
      (by rw [hrecord]; exact (hwork d).2) ?_ ((hcount _).trans (hother _ nofun nofun))
    · rw [hrecord, (hwork d).1, hbranch]
      split <;> rename_i hin <;> simp [hin]
    · rw [hbranch]
      split
      · rw [← List.concat_eq_append]
        exact (hs.branches d nofun).nodup.concat hq
      · exact (hs.branches d nofun).nodup
    · rw [hrecord, (hwork d).1] at hw
      exact hinside d hw
    · rw [hbranch]
      split <;> exact ⟨rfl, rfl⟩
  · rw [hcount, hassembly, show storing .trunk u = false from storing_of_hunt hrx]
    rfl
  · rw [hcount, hother .owedReply nofun nofun, hs.trunk.reply, ← hu]
    rfl
  · rw [hcount, hother .lastResponse nofun nofun, hs.trunk.response, ← hu]
    rfl

/-- The work of a record QUEUED on one branch. -/
theorem queued_work {b : Branch} {r : Record} (hstate : r.state = .queued) (hbranch : r.branch = some b) (d : Branch) :
    (waitsOn d r = true ↔ d = b) ∧ servedOn d r = false := by
  unfold waitsOn servedOn
  rw [hstate, hbranch]
  refine ⟨?_, rfl⟩
  simp only [Bool.or_eq_true, Bool.and_eq_true, beq_iff_eq, Option.some.injEq, reduceCtorEq, false_and,
    or_false, true_and]
  exact eq_comm

/-- The record of a station frame joins the head of its branch's queue (R36, R50). -/
theorem fits_transparent {a line : Byte} {b : Branch} {retries : Nat} {notify : Bool} {i : RecordIndex} {s : State}
    (hb : inService s b = true) (hi : lowestFreeRecord s = some i) (ho : OwedAgrees s) (hn : s.trunk.owed = .nothing)
    (hs : Fits none true s) : Fits none false (setOwed (.pendingAnswer i) (enqueueHead b i (modifyRecord i
      (fun _ => transparentRecord a line b retries notify) (handOver .trunkAssembly (.request i) s)))) := by
  have hfree := free_of_lowest ho hi
  obtain ⟨hrequest, hassembly, hother⟩ := heldCount_requestTaken hs hfree
  generalize hu : setOwed (.pendingAnswer i) (enqueueHead b i (modifyRecord i
    (fun _ => transparentRecord a line b retries notify) (handOver .trunkAssembly (.request i) s))) = u
  have hcount : ∀ h, heldCount h u = heldCount h (handOver .trunkAssembly (.request i) s) := fun h => hu ▸ rfl
  have hothers : ∀ j ≠ i, u.records[j] = s.records[j] := fun j hj => hu ▸ modifyRecord_other i hj _ _
  have hrecord : u.records[i] = transparentRecord a line b retries notify := hu ▸ modifyRecord_same ..
  have hbranch : u.branches[b] = { s.branches[b] with queue := i :: s.branches[b].queue } := hu ▸ modifyBranch_same ..
  have hbranches : ∀ d ≠ b, u.branches[d] = s.branches[d] := fun d hd => hu ▸ modifyBranch_other hd _ _
  have hwork := queued_work (r := u.records[i]) (b := b) (by rw [hrecord]; rfl) (by rw [hrecord]; rfl)
  have hrx : u.trunk.port.rx = .hunt := hu ▸ hs.trunk.hunts (.inl rfl)
  refine hs.created hfree hothers (by rw [hrecord]; rfl) (by rw [hrecord]; nofun)
    (by rw [hrecord]; rfl) (by rw [hrecord, hcount, hrequest]; rfl) (hu ▸ rfl)
    (fun k => .inr ⟨hu ▸ rfl, by rw [hrecord]; nofun⟩) (fun d => ?_)
    (fun h hblock _ hr => (hcount h).trans (hother h (hblock.ne_trunk id) hr)) ⟨?_, ?_, ?_, fun _ => hrx⟩
  · refine branchFits_joined (hs.branches d nofun) hfree hothers (fun j => ?_) (fun hq => ?_) (fun hw => ?_)
      (hwork d).2 ?_ ((hcount _).trans (hother _ nofun nofun))
    · rw [(hwork d).1]
      by_cases hd : d = b
      · subst hd
        rw [hbranch, List.mem_cons]
        simp [or_comm]
      · rw [hbranches d hd]
        simp [hd]
    · by_cases hd : d = b
      · subst hd
        rw [hbranch]
        exact List.nodup_cons.mpr ⟨hq, (hs.branches d nofun).nodup⟩
      · rw [hbranches d hd]
        exact (hs.branches d nofun).nodup
    · rw [(hwork d).1.mp hw]
      exact hb
    · by_cases hd : d = b
      · subst hd
        rw [hbranch]
        exact ⟨rfl, rfl⟩
      · rw [hbranches d hd]
        exact ⟨rfl, rfl⟩
  · rw [hcount, hassembly, show storing .trunk u = false from storing_of_hunt hrx]
    rfl
  · rw [hcount, hother .owedReply nofun nofun, hs.trunk.reply, hn, ← hu]
    rfl
  · rw [hcount, hother .lastResponse nofun nofun, hs.trunk.response, ← hu]
    rfl

end Sys2Proof.Machine
end

section
/-!
The record that SUBMIT creates, and the grants of the arbiter (R52, R62, R79 to R81).
-/

namespace Sys2Proof.Machine

-- The gate's memory limit counts every thread's arena, so the declarations are elaborated one after another.
set_option Elab.async false

/-! ### SUBMIT -/

theorem heldCount_createDeferred {i : RecordIndex} {a : Byte} {data : List Byte} {e : RouteEntry} {s : State}
    (hgate : gateOpen s = true) {h : Holder} (hh : h ≠ .free) : heldCount h (createDeferred i a data e s) =
      if h = .request i then heldCount h s + 1 else heldCount h s :=
  heldCount_claimBuffer (h := .request i) (freeCount_pos_of_gateOpen hgate) nofun hh (mkFrame a data)

/-- The record of a SUBMIT joins the tail of its branch's queue (R52). -/
theorem fits_submitted {a : Byte} {data : List Byte} {e : RouteEntry} {i : RecordIndex} {s : State}
    (hb : inService s (stationBranch e) = true) (hi : lowestFreeRecord s = some i) (hgate : gateOpen s = true)
    (ho : OwedAgrees s) (hs : Fits none true s) : Fits none true (createDeferred i a data e s) := by
  have hfree := free_of_lowest ho hi
  have hcount : ∀ {h : Holder}, h ≠ .free → h ≠ .request i → heldCount h (createDeferred i a data e s) =
      heldCount h s :=
    fun hf hr => (heldCount_createDeferred hgate hf).trans (if_neg hr)
  have hrequest : heldCount (.request i) (createDeferred i a data e s) = 1 := by
    rw [heldCount_createDeferred (h := .request i) hgate nofun, if_pos rfl, hs.request_none hfree]
  obtain ⟨n, -, heq⟩ := createDeferred_eq i a data e (freeCount_pos_of_gateOpen hgate)
  have hsame := createDeferred_sameBut i a data e (freeCount_pos_of_gateOpen hgate)
  have hrecord : (createDeferred i a data e s).records[i] =
      deferredRecord (issuedTag s) a (outgoing e a) (stationBranch e) e.retries := by
    rw [heq]
    exact updateAt_same ..
  have hothers : ∀ j ≠ i, (createDeferred i a data e s).records[j] = s.records[j] := fun j hj => by
    rw [heq]
    exact updateAt_other _ _ hj
  have hlist : (createDeferred i a data e s).completions = s.completions := by rw [heq]; rfl
  have hslots : (createDeferred i a data e s).slots = s.slots := by rw [heq]; rfl
  have htrunk : (createDeferred i a data e s).trunk = s.trunk := by rw [heq]; rfl
  have hlast : (createDeferred i a data e s).lastCode = s.lastCode := by rw [heq]; rfl
  generalize stationBranch e = b at *
  have hbranch : (createDeferred i a data e s).branches[b] =
      { s.branches[b] with queue := s.branches[b].queue ++ [i] } := by
    rw [heq]
    exact modifyBranch_same ..
  have hbranches : ∀ d ≠ b, (createDeferred i a data e s).branches[d] = s.branches[d] := fun d hd => by
    rw [heq]
    exact modifyBranch_other hd _ s
  generalize createDeferred i a data e s = u at *
  have hwork := queued_work (r := u.records[i]) (b := b) (by rw [hrecord]; rfl) (by rw [hrecord]; rfl)
  refine hs.created hfree hothers (by rw [hrecord]; rfl) (by rw [hrecord]; nofun) (by rw [hrecord]; rfl)
    (by rw [hrecord, hrequest]; rfl) hlist (fun k => .inr ⟨by rw [hslots], by rw [hrecord]; nofun⟩) (fun d => ?_)
    (fun h hblock _ hr => hcount hblock.ne_free hr)
    (hs.trunk.same (by rw [htrunk]) (by rw [htrunk]) (by rw [htrunk]) hlast (hcount nofun nofun) (hcount nofun nofun)
      (hcount nofun nofun))
  by_cases hd : d = b
  · subst hd
    refine branchFits_joined (hs.branches d nofun) hfree hothers (fun j => ?_) (fun hq => ?_) (fun _ => hb)
      (hwork d).2 (by rw [hbranch]; exact ⟨rfl, rfl⟩) (hcount nofun nofun)
    · rw [(hwork d).1, hbranch]
      simp
    · rw [hbranch, ← List.concat_eq_append]
      exact (hs.branches d nofun).nodup.concat hq
  · refine branchFits_joined (hs.branches d nofun) hfree hothers (fun j => ?_) (fun hq => ?_)
      (fun hw => absurd ((hwork d).1.mp hw) hd) (hwork d).2 (by rw [hbranches d hd]; exact ⟨rfl, rfl⟩)
      (hcount nofun nofun)
    · rw [(hwork d).1, hbranches d hd]
      simp [hd]
    · rw [hbranches d hd]
      exact (hs.branches d nofun).nodup

/-! ### Grants -/

theorem recordAgrees_onLine {b : Branch} {r : Record} (ha : recordAgrees r = true) (hi : StationOn b r) :
    recordAgrees { r with state := .onLine } = true := by
  have hended : (r.state == .ended) = false := by rcases hi.state with h | h <;> rw [h] <;> rfl
  unfold recordAgrees at ha ⊢
  rcases stationKind_cases hi.station with h | h | h
  · simp only [h, Bool.and_eq_true] at ha ⊢
    exact ⟨⟨⟨⟨⟨rfl, ha.1.1.1.1.2⟩, by simp⟩, ha.1.1.2⟩, ha.1.2⟩, ha.2⟩
  · simp only [h, hended, Bool.and_eq_true] at ha ⊢
    exact ⟨⟨⟨⟨⟨⟨rfl, ha.1.1.1.1.1.2⟩, ha.1.1.1.1.2⟩, ha.1.1.1.2⟩, by simp⟩, ha.1.2⟩, ha.2⟩
  · simp only [h, Bool.and_eq_true] at ha ⊢
    exact ⟨⟨⟨⟨⟨⟨⟨rfl, ha.1.1.1.1.1.1.2⟩, ha.1.1.1.1.1.2⟩, ha.1.1.1.1.2⟩, ha.1.1.1.2⟩, ha.1.1.2⟩, ha.1.2⟩, ha.2⟩

/-- The work of a record ON_LINE on one branch. -/
theorem onLine_work {b : Branch} {r : Record} (hstate : r.state = .onLine) (hbranch : r.branch = some b) (d : Branch) :
    waitsOn d r = false ∧ (servedOn d r = true ↔ d = b) := by
  unfold waitsOn servedOn
  rw [hstate, hbranch]
  refine ⟨rfl, ?_⟩
  simp only [Bool.or_eq_true, Bool.and_eq_true, beq_iff_eq, Option.some.injEq, reduceCtorEq, false_and,
    or_false, true_and]
  exact eq_comm

theorem grantRecord_buffers (b : Branch) (i : RecordIndex) (s : State) :
    (grantRecord b i s).buffers = (claimBuffer (.branchAnswer b) [] s).buffers := by
  unfold grantRecord
  dsimp only
  generalize claimBuffer (.branchAnswer b) [] s = u
  rfl

theorem grantSlot_buffers {b : Branch} {k : SlotIndex} {i : RecordIndex} {c : SlotConfig} {s : State}
    (hi : lowestFreeRecord s = some i) (hc : s.slots[k].config = some c) :
    (grantSlot b k s).buffers = (claimBuffer (.branchAnswer b) [] s).buffers := by
  unfold grantSlot
  rw [hi, hc]
  dsimp only
  generalize claimBuffer (.branchAnswer b) [] s = u
  rfl

/-- A queued station record is granted (R81). -/
theorem fits_grantRecord {taken : Bool} {b : Branch} {i : RecordIndex} {s : State} (hs : Fits none taken s)
    (hgate : gateOpen s = true) (hidle : s.branches[b].onLine = none) (hq : i ∈ s.branches[b].queue)
    (hk : s.records[i].kind ≠ some .group) : Fits none taken (grantRecord b i s) := by
  have hfree := freeCount_pos_of_gateOpen hgate
  obtain ⟨hbranch, hrecord, hothers, -, -, hsame⟩ := grantRecord_granted b i hfree
  have hold := hs.records i
  have hb := hs.branches b nofun
  have hwaits := (hb.waits i).mp hq
  have hstation : isStationKind s.records[i] = true := by
    cases h : isStationKind s.records[i] with
    | true => rfl
    | false => exact absurd (group_of_work hold.agrees h (.inl hwaits)) hk
  have hon := stationOn_of_work hold.agrees hstation (.inl hwaits)
  have hcount : ∀ {h : Holder}, h ≠ .free → heldCount h (grantRecord b i s) =
      if h = .branchAnswer b then heldCount h s + 1 else heldCount h s := fun hf =>
    (heldCount_of_buffers (grantRecord_buffers b i s) _).trans
      (heldCount_claimBuffer (h := .branchAnswer b) hfree nofun hf [])
  have hother : ∀ {h : Holder}, h ≠ .free → h ≠ .branchAnswer b → heldCount h (grantRecord b i s) = heldCount h s :=
    fun hf hne => (hcount hf).trans (if_neg hne)
  have hanswer : heldCount (.branchAnswer b) (grantRecord b i s) = 1 := by
    rw [hcount (h := .branchAnswer b) nofun, if_pos rfl, hb.answer, hidle]
    rfl
  have hlist : (grantRecord b i s).completions = s.completions := hsame.2 .completions (by decide) (by simp)
  have hslots : (grantRecord b i s).slots = s.slots := hsame.slots_eq (by simp)
  have htrunk : (grantRecord b i s).trunk = s.trunk := hsame.2 .trunk (by decide) (by simp)
  have hlast : (grantRecord b i s).lastCode = s.lastCode := (hsame.2 .lastCommand (by decide) (by simp)).1
  have hbranches : ∀ d ≠ b, (grantRecord b i s).branches[d] = s.branches[d] := fun d hd =>
    hsame.branch_eq (by simpa using hd)
  generalize grantRecord b i s = u at *
  have hwork := onLine_work (r := u.records[i]) (b := b) (by rw [hrecord]) (by rw [hrecord]; exact hon.branch)
  refine hs.record_changed hothers ⟨?_, ?_, ?_, ?_⟩ (fun _ _ => by rw [hlist]) (by rw [hlist]; exact hs.nodup) hslots
    (by rw [hrecord]; exact ⟨rfl, rfl, rfl⟩) (fun d _ => ?_) (fun h hblock hd _ _ => hother hblock.ne_free (hd b))
    (hs.trunk.same (by rw [htrunk]) (by rw [htrunk]) (by rw [htrunk]) hlast (hother nofun nofun) (hother nofun nofun)
      (hother nofun nofun))
  · rw [hrecord]
    exact recordAgrees_onLine hold.agrees hon
  · rw [hlist, hold.listed, hrecord]
    refine ⟨fun he => ?_, nofun⟩
    rcases hon.state with hst | hst <;> cases hst.symm.trans he
  · rw [hother (h := .request i) nofun nofun, hold.request, hrecord]
    unfold wantsRequest
    rcases hon.state with hst | hst
    · rw [hst]
      rfl
    · rw [hst]
  · rw [hother (h := .answer i) nofun nofun, hold.answer, hrecord]
  · by_cases hd : d = b
    · subst hd
      refine branchFits_granted hb hothers hidle (by rw [hbranch]; rfl) (by rw [hbranch]; rfl) (by rw [hbranch]; rfl)
        (hwork d).1 ((hwork d).2.mpr rfl) ?_
      rw [hanswer, hrecord]
      exact (if_pos hstation).symm
    · refine branchFits_elsewhere (hs.branches d nofun) hothers ?_ ?_ (by rw [hrecord])
        (by rw [hbranches d hd]; exact ⟨rfl, rfl, rfl⟩) (hother nofun fun h => hd (Holder.branchAnswer.inj h))
      · rw [(hwork d).1, (hon.elsewhere hd).1]
      · rw [(hon.elsewhere hd).2, Bool.eq_false_iff]
        exact fun h => hd ((hwork d).2.mp h)

/-- A GROUP record passes from the set of the branches that wait to that of those that send (R62). -/
theorem recordAgrees_sends {b : Branch} {r : Record} (hk : r.kind = some .group) (ha : recordAgrees r = true) :
    recordAgrees { r with pendingSet := setWithout r.pendingSet b, sendingSet := setWith r.sendingSet b } = true := by
  obtain ⟨hstate, -, hapart, houtcome, hhold⟩ := (recordAgrees_group hk).mp ha
  have hsets : ∀ (p g : BranchSet) (b : Branch), p &&& g = 0 →
      setWithout p b ||| setWith g b ≠ 0 ∧ setWithout p b &&& setWith g b = 0 := by decide
  obtain ⟨hsome, hnone⟩ := hsets r.pendingSet r.sendingSet b hapart
  exact (recordAgrees_group (r := { r with
    pendingSet := setWithout r.pendingSet b, sendingSet := setWith r.sendingSet b }) hk).mpr
    ⟨hstate, hsome, hnone, houtcome, hhold⟩

/-- A queued GROUP record is granted on the branch (R62, R81). -/
theorem fits_grantGroup {taken : Bool} {b : Branch} {i : RecordIndex} {s : State} (hs : Fits none taken s)
    (hidle : s.branches[b].onLine = none) (hk : s.records[i].kind = some .group) :
    Fits none taken (grantGroup b i s) := by
  obtain ⟨hbranch, hrecord, hothers, hsame⟩ := grantGroup_granted b i s
  have hold := hs.records i
  have hb := hs.branches b nofun
  obtain ⟨hstate, -⟩ := (recordAgrees_group hk).mp hold.agrees
  have hcount : ∀ h, heldCount h (grantGroup b i s) = heldCount h s := fun _ => rfl
  have hlist : (grantGroup b i s).completions = s.completions := hsame.2 .completions (by decide) (by simp)
  have hslots : (grantGroup b i s).slots = s.slots := hsame.slots_eq (by simp)
  have htrunk : (grantGroup b i s).trunk = s.trunk := hsame.2 .trunk (by decide) (by simp)
  have hlast : (grantGroup b i s).lastCode = s.lastCode := (hsame.2 .lastCommand (by decide) (by simp)).1
  have hbranches : ∀ d ≠ b, (grantGroup b i s).branches[d] = s.branches[d] := fun d hd =>
    hsame.branch_eq (by simpa using hd)
  generalize grantGroup b i s = u at *
  have hwork : ∀ d, waitsOn d u.records[i] = (waitsOn d s.records[i] && d != b) ∧
      servedOn d u.records[i] = (servedOn d s.records[i] || d == b) := fun d => by
    rw [hrecord]
    unfold waitsOn servedOn
    dsimp only
    rw [hstate, inSet_setWithout, inSet_setWith]
    exact ⟨rfl, rfl⟩
  refine hs.record_changed hothers ⟨?_, ?_, ?_, ?_⟩ (fun _ _ => by rw [hlist]) (by rw [hlist]; exact hs.nodup) hslots
    (by rw [hrecord]; exact ⟨rfl, rfl, rfl⟩) (fun d _ => ?_) (fun h _ _ _ _ => hcount h)
    (hs.trunk.same (by rw [htrunk]) (by rw [htrunk]) (by rw [htrunk]) hlast (hcount _) (hcount _) (hcount _))
  · rw [hrecord]
    exact recordAgrees_sends hk hold.agrees
  · rw [hlist, hold.listed, hrecord]
  · rw [hcount, hold.request, hrecord]
    rfl
  · rw [hcount, hold.answer, hrecord]
  · by_cases hd : d = b
    · subst hd
      refine branchFits_granted hb hothers hidle (by rw [hbranch]; rfl) (by rw [hbranch]; rfl) (by rw [hbranch]; rfl)
        (by rw [(hwork d).1]; simp) (by rw [(hwork d).2]; simp) ?_
      rw [hcount, hb.answer, hidle, hrecord]
      unfold isStationKind
      dsimp only
      rw [hk]
      rfl
    · have hne : (d != b) = true := bne_iff_ne.mpr hd
      refine branchFits_elsewhere (hs.branches d nofun) hothers ?_ ?_ (by rw [hrecord])
        (by rw [hbranches d hd]; exact ⟨rfl, rfl, rfl⟩) (hcount _)
      · rw [(hwork d).1, hne, Bool.and_true]
      · rw [(hwork d).2, beq_false_of_ne hd, Bool.or_false]

/-- A DUE slot of the branch is granted: its poll is created on line (R53, R134). -/
theorem fits_grantSlot {taken : Bool} {b : Branch} {k : SlotIndex} {i : RecordIndex} {s : State}
    (hs : Fits none taken s) (ho : OwedAgrees s) (hgate : gateOpen s = true) (hidle : s.branches[b].onLine = none)
    (hdue : slotDueOn s b k = true) (hi : lowestFreeRecord s = some i) : Fits none taken (grantSlot b k s) := by
  have hfree := free_of_lowest ho hi
  have hpos := freeCount_pos_of_gateOpen hgate
  unfold slotDueOn at hdue
  simp only [Bool.and_eq_true, beq_iff_eq] at hdue
  obtain ⟨hstate, hconfig⟩ := hdue
  obtain ⟨c, hc, hcb⟩ := Option.map_eq_some_iff.mp hconfig
  obtain ⟨hbranch, hrecord, hothers, hslot, hslots, -, -, hsame⟩ := grantSlot_granted (b := b) hpos hi hc
  have hb := hs.branches b nofun
  have hunqueued : i ∉ s.branches[b].queue := fun h => by
    have hw := (hb.waits i).mp h
    rw [hfree] at hw
    cases hw
  have hcount : ∀ {h : Holder}, h ≠ .free → heldCount h (grantSlot b k s) =
      if h = .branchAnswer b then heldCount h s + 1 else heldCount h s := fun hf =>
    (heldCount_of_buffers (grantSlot_buffers hi hc) _).trans
      (heldCount_claimBuffer (h := .branchAnswer b) hpos nofun hf [])
  have hother : ∀ {h : Holder}, h ≠ .free → h ≠ .branchAnswer b → heldCount h (grantSlot b k s) = heldCount h s :=
    fun hf hne => (hcount hf).trans (if_neg hne)
  have hanswer : heldCount (.branchAnswer b) (grantSlot b k s) = 1 := by
    rw [hcount (h := .branchAnswer b) nofun, if_pos rfl, hb.answer, hidle]
    rfl
  have hlist : (grantSlot b k s).completions = s.completions := hsame.2 .completions (by decide) (by simp)
  have htrunk : (grantSlot b k s).trunk = s.trunk := hsame.2 .trunk (by decide) (by simp)
  have hlast : (grantSlot b k s).lastCode = s.lastCode := (hsame.2 .lastCommand (by decide) (by simp)).1
  have hbranches : ∀ d ≠ b, (grantSlot b k s).branches[d] = s.branches[d] := fun d hd =>
    hsame.branch_eq (by simpa using hd)
  generalize grantSlot b k s = u at *
  have hwork := onLine_work (r := u.records[i]) (b := b) (by rw [hrecord]; rfl) (by rw [hrecord]; rfl)
  have hpolls : u.records[i].slot = some k := by rw [hrecord]; rfl
  have honly : ∀ j : RecordIndex, u.records[j].slot = some k → j = i := fun j hj => by
    by_contra hne
    rw [hothers j hne] at hj
    rcases (hs.slots k).polled.mp ⟨j, hj⟩ with h | h <;> cases hstate.symm.trans h
  refine hs.created hfree hothers (by rw [hrecord]; rfl) (by rw [hrecord]; nofun) (by rw [hrecord]; rfl) ?_ hlist
    (fun j => ?_) (fun d => ?_) (fun h hblock hd _ => hother hblock.ne_free (hd b))
    (hs.trunk.same (by rw [htrunk]) (by rw [htrunk]) (by rw [htrunk]) hlast (hother nofun nofun) (hother nofun nofun)
      (hother nofun nofun))
  · rw [hother (h := .request i) nofun nofun, hs.request_none hfree, hrecord]
    rfl
  · by_cases hj : j = k
    · subst hj
      refine .inl ⟨?_, ⟨fun _ => ?_, fun _ => ⟨i, hpolls⟩⟩, fun l hl => ?_, fun l m hl hm => ?_, ?_⟩
      · rw [hslot, hc]
        exact ⟨nofun, nofun⟩
      · rw [hslot]
        exact .inl rfl
      · rw [honly l hl, hrecord, hslot, hc, Option.map_some, hcb]
        exact ⟨rfl, rfl⟩
      · exact (honly l hl).trans (honly m hm).symm
      · rw [hother (h := .snapshot j) nofun nofun, (hs.slots j).snapshot, hslot]
    · refine .inr ⟨hslots j hj, ?_⟩
      rw [hpolls]
      exact fun h => hj (Option.some.inj h).symm
  · by_cases hd : d = b
    · subst hd
      refine branchFits_granted hb hothers hidle ?_ (by rw [hbranch]; rfl) (by rw [hbranch]; rfl)
        (hwork d).1 ((hwork d).2.mpr rfl) ?_
      · rw [hbranch, filter_eq_self_of_not_mem hunqueued]
      · rw [hanswer, hrecord]
        rfl
    · refine branchFits_joined (hs.branches d nofun) hfree hothers (fun j => ?_) (fun _ => ?_) (fun hw => ?_) ?_
        (by rw [hbranches d hd]; exact ⟨rfl, rfl⟩) (hother nofun fun h => hd (Holder.branchAnswer.inj h))
      · rw [hbranches d hd, (hwork d).1]
        simp
      · rw [hbranches d hd]
        exact (hs.branches d nofun).nodup
      · cases (hwork d).1.symm.trans hw
      · exact Bool.eq_false_iff.mpr fun h => hd ((hwork d).2.mp h)

/-- Arbitration (R78 to R81). -/
theorem fits_arbitrate {taken : Bool} (b : Branch) {s : State} (hb : BranchesAgree s) (ho : OwedAgrees s)
    (hs : Fits none taken s) : Fits none taken (arbitrate b s) := by
  have hserved : ∀ {m : Served} {u : State}, Fits none taken u → Fits none taken (setServed b m u) := fun h =>
    fits_modifyBranch rfl rfl id id h
  have hgranted : s.branches[b].status = .idle → ∀ {t}, chooseGrant b s = some t → Fits none taken t := by
    intro hidle t ht
    obtain ⟨-, -, hline, -⟩ := branchAgrees_iff.mp (hb b)
    rw [hidle] at hline
    have hnone : s.branches[b].onLine = none := 
      Option.not_isSome_iff_eq_none.mp fun h => nomatch hline.mp h
    rcases chooseGrant_cases ht with h | h | h
    · unfold tryTransparent at h
      split at h
      · cases h
      · rename_i i hi
        split at h
        · rename_i hgate
          obtain rfl := Option.some.inj h
          refine fits_grantRecord hs hgate hnone (List.mem_of_find?_eq_some hi) ?_
          have hk := List.find?_some hi
          rw [beq_iff_eq.mp hk]
          nofun
        · cases h
    · unfold tryQueueClass at h
      split at h
      · cases h
      · rename_i i hi
        split at h
        · rename_i hk
          obtain rfl := Option.some.inj h
          exact hserved (fits_grantGroup hs hnone hk)
        · rename_i hk
          split at h
          · rename_i hgate
            obtain rfl := Option.some.inj h
            exact hserved (fits_grantRecord hs hgate hnone (List.mem_of_find?_eq_some hi) hk)
          · cases h
    · unfold tryPollClass at h
      split at h
      · cases h
      · rename_i k hk
        split at h
        · rename_i hready
          obtain rfl := Option.some.inj h
          obtain ⟨hgate, hrecords⟩ := hready
          obtain ⟨i, hi⟩ := lowestFreeRecord_of_freeRecords (s := s) (by omega)
          exact hserved (fits_grantSlot hs ho hgate hnone (List.find?_some hk) hi)
        · cases h
  unfold arbitrate
  split
  · rename_i hidle
    split
    · split
      · rename_i t ht
        exact hgranted hidle ht
      · unfold stallBranch
        split
        · exact hs
        · exact fits_modifyBranch rfl rfl id id hs
    · exact fits_modifyBranch rfl rfl id id hs
  · exact hs

end Sys2Proof.Machine
end

section
/-!
Supersede, the commands that free a record or discard a snapshot, and RESTART (R64, R69, R71, R104, R139, R178).
-/

namespace Sys2Proof.Machine

-- The gate's memory limit counts every thread's arena, so the declarations are elaborated one after another.
set_option Elab.async false

/-! ### A record is freed by its HOLD timer or a command -/

/-- Only a DEFERRED record is ENDED (R45). -/
theorem deferred_of_ended {r : Record} (ha : recordAgrees r = true) (he : r.state = .ended) :
    r.kind = some .deferred := by
  unfold recordAgrees at ha
  cases hk : r.kind with
  | none =>
    rw [hk] at ha
    rw [beq_iff_eq.mp ha] at he
    cases he
  | some k =>
    cases k with
    | deferred => rfl
    | transparent | cyclic | group =>
      rw [hk, he] at ha
      cases ha

/-- A DEFERRED record that is not on line is freed (R69, R71). -/
theorem Fits.freeDeferred {x : Option Branch} {taken : Bool} {i : RecordIndex} {s : State} (hs : Fits x taken s)
    (hk : s.records[i].kind = some .deferred) (hst : s.records[i].state ≠ .onLine) :
    Fits x taken (Machine.freeRecord i s) := by
  refine hs.freeRecord (hs.unslotted (by rw [hk]; nofun)) fun d _ => ?_
  have hd := station_not_delivering (hs.records i).agrees (by unfold isStationKind; rw [hk]; rfl)
  unfold servedOn
  rw [beq_false_of_ne hst, beq_false_of_ne hd]
  rfl

theorem fits_collected {x : Option Branch} {taken : Bool} {i : RecordIndex} {s : State} (hs : Fits x taken s)
    (hi : i ∈ s.completions ∨ s.records[i].kind = some .deferred ∧ s.records[i].state ≠ .onLine) :
    Fits x taken (freeRecord i s) := by
  rcases hi with h | ⟨hk, hst⟩
  · have hended := (hs.records i).listed.mp h
    exact hs.freeDeferred (deferred_of_ended (hs.records i).agrees hended) (by rw [hended]; nofun)
  · exact hs.freeDeferred hk hst

theorem fits_holdExpire {x : Option Branch} {taken : Bool} (i : RecordIndex) {s : State} (hs : Fits x taken s) :
    Fits x taken (holdExpire i s) := by
  unfold holdExpire
  split
  · rename_i hended
    dsimp only
    have hcounted : ∀ t, Unmoved s t → Fits x taken (freeRecord i (raise .uncollected t)) := fun t h => by
      have hu := h.trans (raise_unmoved .uncollected t)
      exact fits_collected (hu.fits hs) (.inl (by
        rw [hu.completions]
        exact (hs.records i).listed.mpr hended))
    split
    · exact hcounted _ (modifyBranchCounters_unmoved _ _ s)
    · exact hcounted _ (.refl s)
  · exact hs

/-! ### Supersede -/

theorem fits_supersedeOwed {x : Option Branch} {taken : Bool} {s : State} (hrx : s.trunk.port.rx = .hunt)
    (hs : Fits x taken s) : Fits x taken (supersedeOwed s) := by
  have hcounted : ∀ {u : State}, Fits x taken u → Fits x taken
      (modifyTrunkCounters (fun c => { c with superseded := countUp c.superseded }) u) := fun h =>
    (modifyTrunkCounters_unmoved _ _).fits h
  have haborted : Fits x taken (abortPort .trunk s) := by
    refine hs.trunk_only (t := abortPort .trunk s) rfl rfl rfl rfl (fun _ _ => rfl)
      ⟨?_, hs.trunk.reply, hs.trunk.response, fun _ => rfl⟩
    refine hs.trunk.assembly.trans ?_
    rw [storing_of_hunt hrx, show storing .trunk (abortPort .trunk s) = false from storing_of_hunt rfl]
  unfold supersedeOwed
  cases howed : s.trunk.owed with
  | nothing => exact hs
  | pendingAnswer i =>
    refine hcounted (hs.trunk_only (t := setOwed .nothing s) rfl rfl rfl rfl (fun _ _ => rfl)
      ⟨hs.trunk.assembly, ?_, hs.trunk.response, hs.trunk.hunts⟩)
    refine hs.trunk.reply.trans ?_
    rw [howed]
    rfl
  | answer | proxy | response => exact hcounted (fits_finishOwed haborted)

theorem recordAgrees_abandoned {r : Record} (ha : recordAgrees r = true) (hk : r.kind = some .transparent)
    (hq : r.state ≠ .queued) : recordAgrees { r with abandoned := true } = true := by
  unfold recordAgrees at ha ⊢
  simp only [hk, Bool.and_eq_true, Bool.or_eq_true, beq_iff_eq, hq, false_or] at ha ⊢
  obtain ⟨⟨⟨⟨⟨hline, hbranch⟩, -⟩, hcancel⟩, houtcome⟩, hhold⟩ := ha
  exact ⟨⟨⟨⟨⟨hline, hbranch⟩, .inr hline⟩, hcancel⟩, houtcome⟩, hhold⟩

theorem fits_supersedeRecord {x : Option Branch} {taken : Bool} {s : State} (hs : Fits x taken s) :
    Fits x taken (supersedeRecord s) := by
  unfold supersedeRecord
  split
  · exact hs
  · rename_i i hi
    obtain ⟨hk, -⟩ := awaitedByTrunk_iff.mp (liveTransparent_eq_some hi).1
    split
    · rename_i hq
      refine hs.freeRecord (hs.unslotted (by rw [hk]; nofun)) fun d _ => ?_
      unfold servedOn
      rw [hq]
      rfl
    · rename_i hq
      exact fits_modifyRecord (fun ha => recordAgrees_abandoned ha hk hq) rfl hs

/-- Supersede (R104). -/
theorem fits_supersede {x : Option Branch} {taken : Bool} {s : State} (hrx : s.trunk.port.rx = .hunt)
    (hs : Fits x taken s) : Fits x taken (supersede s) :=
  fits_settlePending (supersedeRecord_rx hrx) (fits_supersedeRecord (fits_supersedeOwed hrx hs))

/-! ### Slots without a poll -/

theorem not_polling_of_not_running {x : SlotState} (h : x.running = false) : ¬ x.polling := by
  rintro (rfl | rfl) <;> cases h

/-- A slot that is not running is written, its snapshot discarded (R139, R140). -/
theorem fits_slotWritten {x : Option Branch} {taken : Bool} {k : SlotIndex} {f : Slot → Slot} {s : State}
    (hrunning : s.slots[k].state.running = false)
    (hf : ∀ y : Slot, ((f y).config.isNone = true ↔ (f y).state = .unset) ∧ (f y).state.running = false ∧
      (f y).age = y.age)
    (hs : Fits x taken s) : Fits x taken (modifySlot k f (discardSnapshot k s)) := by
  have hnone : ∀ i : RecordIndex, s.records[i].slot ≠ some k := fun i hi =>
    not_polling_of_not_running hrunning ((hs.slots k).polled.mp ⟨i, hi⟩)
  have hcount : ∀ h, heldCount h (modifySlot k f (discardSnapshot k s)) = heldCount h (returnBuffer (.snapshot k) s) :=
    fun _ => rfl
  have hother : ∀ {h : Holder}, h ≠ .free → h ≠ .snapshot k →
      heldCount h (modifySlot k f (discardSnapshot k s)) = heldCount h s := fun hf hne =>
    heldCount_returnBuffer_other s hf hne
  have hslot : (modifySlot k f (discardSnapshot k s)).slots[k] =
      f { s.slots[k] with seq := 0, age := none, misses := 0, overruns := 0 } :=
    (updateAt_same ..).trans (congrArg f (updateAt_same ..))
  have hslots : ∀ j ≠ k, (modifySlot k f (discardSnapshot k s)).slots[j] = s.slots[j] := fun j hj =>
    (modifySlot_other hj _ _).trans (modifySlot_other hj _ _)
  have htrunk := hs.trunk.same (s := s) (t := modifySlot k f (discardSnapshot k s)) rfl rfl rfl rfl (hother nofun nofun)
    (hother nofun nofun) (hother nofun nofun)
  have hbranches : (modifySlot k f (discardSnapshot k s)).branches = s.branches := rfl
  have hrecords : (modifySlot k f (discardSnapshot k s)).records = s.records := rfl
  have hlist : (modifySlot k f (discardSnapshot k s)).completions = s.completions := rfl
  generalize modifySlot k f (discardSnapshot k s) = u at *
  refine hs.touch (fun i => .inr (recordSame_of_eq (by rw [hrecords]) (by rw [hlist]) (hother nofun nofun)
    (hother nofun nofun))) (fun d hd => .inr ⟨hd, ⟨by rw [hbranches], by rw [hbranches], fun h => ?_, fun h => ?_,
      fun i => by rw [hrecords], fun i => by rw [hrecords], fun i _ => by rw [hrecords], hother nofun nofun⟩⟩)
    (fun j => ?_) (by rw [hlist]; exact hs.nodup) htrunk
  · unfold inService at h ⊢
    rwa [hbranches] at h
  · rwa [hbranches] at h
  · by_cases hj : j = k
    · subst hj
      obtain ⟨hconfig, hstopped, hage⟩ := hf { s.slots[j] with seq := 0, age := none, misses := 0, overruns := 0 }
      refine .inl ⟨by rw [hslot]; exact hconfig, ⟨fun ⟨i, hi⟩ => ?_, fun hp => ?_⟩, fun i hi => ?_,
        fun i _ hi => ?_, ?_⟩
      · rw [hrecords] at hi
        exact absurd hi (hnone i)
      · rw [hslot] at hp
        exact absurd hp (not_polling_of_not_running hstopped)
      · rw [hrecords] at hi
        exact absurd hi (hnone i)
      · rw [hrecords] at hi
        exact absurd hi (hnone i)
      · rw [hcount, heldCount_returnBuffer_same, hslot, hage]
        rfl
    · exact .inr (slotSame_of_slot (hslots j hj) (fun i => .inl (by rw [hrecords]))
        (hother nofun fun h => hj (Holder.snapshot.inj h)))

/-! ### RESTART -/

theorem restartSlot_fits {x : Slot} (hx : x.config.isNone = true ↔ x.state = .unset) :
    ((restartSlot x).config.isNone = true ↔ (restartSlot x).state = .unset) ∧ ¬ (restartSlot x).state.polling ∧
      (restartSlot x).age = none := by
  unfold restartSlot
  dsimp only
  cases hst : x.state with
  | unset | stopped =>
    rw [hst] at hx
    exact ⟨hx, not_polling (by simp), rfl⟩
  | armed | due | onLine | stopping =>
    rw [hst] at hx
    exact ⟨Iff.intro (fun h => nomatch hx.mp h) nofun, not_polling (by simp), rfl⟩

theorem restartBranch_work (x : BranchState) : (restartBranch x).queue = [] ∧ (restartBranch x).onLine = none := by
  unfold restartBranch
  dsimp only
  split <;> exact ⟨rfl, rfl⟩

/-- RESTART clears every block (R178). -/
theorem fits_restartPart {s : State} (hs : Fits none true s) : Fits none true (restartPart s) := by
  have hnone : ∀ {h : Holder}, h.ofBlock → heldCount h (restartPart s) = 0 := fun hb =>
    (heldCount_restartPart hb.ne_free s).trans
      (if_neg (by rintro (h | h); exacts [hb.ne_trunk id h, hb.ne_trunk id h]))
  have hrecords := restartPart_record s
  refine ⟨fun i => ⟨?_, ?_, ?_, ?_⟩, fun b _ => ⟨?_, fun _ => ?_, fun i => ?_, fun i => ?_, fun i hi => ?_, ?_⟩,
    fun k => ?_, List.nodup_nil, ⟨?_, ?_, ?_, fun _ => rfl⟩⟩
  · rw [hrecords]
    rfl
  · rw [hrecords]
    exact ⟨fun h => absurd h List.not_mem_nil, nofun⟩
  · rw [hrecords, hnone (h := .request i) trivial]
    rfl
  · rw [hrecords, hnone (h := .answer i) trivial]
    rfl
  · rw [restartPart_branches, (restartBranch_work _).1]
    exact List.nodup_nil
  · rw [restartPart_branches, (restartBranch_work _).1]
  · rw [restartPart_branches, (restartBranch_work _).1, hrecords]
    exact ⟨fun h => absurd h List.not_mem_nil, nofun⟩
  · rw [restartPart_branches, (restartBranch_work _).2, hrecords]
    exact ⟨nofun, nofun⟩
  · rw [restartPart_branches, (restartBranch_work _).2] at hi
    cases hi
  · rw [restartPart_branches, (restartBranch_work _).2, hnone (h := .branchAnswer b) trivial]
    rfl
  · obtain ⟨hconfig, hpolling, hage⟩ := restartSlot_fits (hs.slots k).config
    have hunnamed : ∀ i : RecordIndex, (restartPart s).records[i].slot ≠ some k := fun i hi => by
      rw [hrecords] at hi
      cases hi
    rw [← restartPart_slots] at hconfig hpolling hage
    refine ⟨hconfig, ⟨fun ⟨i, hi⟩ => absurd hi (hunnamed i), fun h => absurd h hpolling⟩,
      fun i hi => absurd hi (hunnamed i), fun i _ hi => absurd hi (hunnamed i), ?_⟩
    rw [hnone (h := .snapshot k) trivial, hage]
    rfl
  · rw [heldCount_restartPart (h := .trunkAssembly) nofun, if_pos (.inl rfl)]
    exact hs.trunk.assembly
  · exact (heldCount_restartPart (h := .owedReply) nofun s).trans (if_neg (by simp))
  · rw [heldCount_restartPart (h := .lastResponse) nofun, if_pos (.inr rfl)]
    exact hs.trunk.response

end Sys2Proof.Machine
end

section
/-!
Every event of a step keeps the records, the queues, the lists, the slots and the buffers in agreement (R45, R50, R65,
R118, R130).
-/

namespace Sys2Proof.Machine

-- The gate's memory limit counts every thread's arena, so the declarations are elaborated one after another.
set_option Elab.async false

/-- A whole frame is in hand. -/
def Phase.inHand : Phase → Bool
  | .clear => false
  | .taken | .superseding => true

/-- The branches, the owed reply and the table agree. -/
structure TableIn (ph : Phase) (s : State) : Prop where
  branches : BranchesAgree s
  owed : OwedIn ph s
  fits : Fits none ph.inHand s

/-- Every event keeps the branches, the owed reply and the table in agreement. -/
theorem tableAgrees_invariant : StepInvariant TableIn where
  unmoved {ph _ _} h hs := ⟨branchesAgree_invariant.unmoved (ph := ph) h hs.branches,
    owedAgrees_invariant.unmoved h hs.owed, h.fits hs.fits⟩
  reset a r held waiting := ⟨branchesAgree_invariant.reset a r held waiting,
    owedAgrees_invariant.reset a r held waiting,
    fits_iff.mpr (invariants_resetPart a r held waiting).2.2.2.2⟩
  frameStarts c _ hq hs := ⟨branchesAgree_invariant.frameStarts c hq hs.branches,
    owedAgrees_invariant.frameStarts c hq hs.owed, fits_trunkFrameStarts c hq hs.fits⟩
  assemblyEnds x _ hx hs := ⟨branchesAgree_invariant.assemblyEnds x hx hs.branches,
    owedAgrees_invariant.assemblyEnds x hx hs.owed, fits_assemblyEnds x hx hs.fits⟩
  frameTaken hst hs := ⟨branchesAgree_invariant.frameTaken hst hs.branches,
    owedAgrees_invariant.frameTaken hst hs.owed, fits_frameTaken hst hs.fits⟩
  supersedesFollowed hrx hq hs := ⟨branchesAgree_invariant.supersedesFollowed hrx hq hs.branches,
    owedAgrees_invariant.supersedesFollowed hrx hq hs.owed, fits_supersede hrx hs.fits⟩
  supersedes hrx hq hs := ⟨branchesAgree_invariant.supersedes hrx hq hs.branches,
    owedAgrees_invariant.supersedes hrx hq hs.owed, fits_supersede hrx hs.fits⟩
  dropped hs := ⟨branchesAgree_invariant.dropped hs.branches, owedAgrees_invariant.dropped hs.owed,
    fits_dropped hs.fits⟩
  group line x _ _ hx hi hs := ⟨branchesAgree_invariant.group line x hx hi hs.branches,
    owedAgrees_invariant.group line x hx hi hs.owed, fits_group hx hi hs.owed.1 hs.fits⟩
  transparent a line _ retries notify _ _ hb hi hs :=
    ⟨branchesAgree_invariant.transparent a line retries notify hb hi hs.branches,
      owedAgrees_invariant.transparent a line retries notify hb hi hs.owed,
      fits_transparent hb hi hs.owed.1 (hs.owed.2 rfl) hs.fits⟩
  proxy a reason _ hs := ⟨branchesAgree_invariant.proxy a reason hs.branches,
    owedAgrees_invariant.proxy a reason hs.owed,
    fits_proxy a reason (hs.owed.2 rfl) hs.fits⟩
  answered code seq _ hs := ⟨branchesAgree_invariant.answered code seq hs.branches,
    owedAgrees_invariant.answered code seq hs.owed, fits_answered code seq (hs.owed.2 rfl) hs.fits⟩
  replayed h hs := ⟨branchesAgree_invariant.replayed h hs.branches, owedAgrees_invariant.replayed h hs.owed,
    fits_replayed (hs.owed.2 rfl) hs.fits⟩
  replyStarts hlead hs := ⟨branchesAgree_invariant.replyStarts hlead hs.branches,
    owedAgrees_invariant.replyStarts hlead hs.owed, fits_replyStarts hs.fits⟩
  replySent hq hs := ⟨branchesAgree_invariant.replySent hq hs.branches, owedAgrees_invariant.replySent hq hs.owed,
    fits_trunkSent hq hs.fits⟩
  replyLost hq hs := ⟨branchesAgree_invariant.replyLost hq hs.branches, owedAgrees_invariant.replyLost hq hs.owed,
    fits_trunkContended hq hs.fits⟩
  branchSends hlead ha hs := ⟨branchesAgree_invariant.branchSends hlead ha hs.branches,
    owedAgrees_invariant.branchSends hlead ha hs.owed, fits_branchSends ha hs.fits⟩
  answerBegins hst hs := ⟨branchesAgree_invariant.answerBegins hst hs.branches,
    owedAgrees_invariant.answerBegins hst hs.owed, fits_answerBegins hst hs.fits⟩
  attemptOver o _ hst hs := ⟨branchesAgree_invariant.attemptOver o hst hs.branches,
    owedAgrees_invariant.attemptOver o hst hs.owed, fits_attemptEnds o hs.fits hs.owed.1 hst⟩
  answerJudged a _ hst hs := ⟨branchesAgree_invariant.answerJudged a hst hs.branches,
    owedAgrees_invariant.answerJudged a hst hs.owed, fits_answerGood a hs.fits hs.owed.1 hst⟩
  sendDone hq hs := ⟨branchesAgree_invariant.sendDone hq hs.branches, owedAgrees_invariant.sendDone hq hs.owed,
    fits_sendCompleted hs.fits⟩
  sendLost hq hs := ⟨branchesAgree_invariant.sendLost hq hs.branches, owedAgrees_invariant.sendLost hq hs.owed,
    fits_sendContended hs.fits hs.owed.1⟩
  arbitrated b _ hs := ⟨branchesAgree_invariant.arbitrated b hs.branches, owedAgrees_invariant.arbitrated b hs.owed,
    fits_arbitrate b hs.branches hs.owed.1 hs.fits⟩
  millisecond hs := ⟨branchesAgree_invariant.millisecond hs.branches, owedAgrees_invariant.millisecond hs.owed,
    fits_countMillisecond hs.fits⟩
  quarantine b _ hs := ⟨branchesAgree_invariant.quarantine b hs.branches, owedAgrees_invariant.quarantine b hs.owed,
    fits_quarantineExpire b hs.fits⟩
  hold i _ hs := ⟨branchesAgree_invariant.hold i hs.branches, owedAgrees_invariant.hold i hs.owed,
    fits_holdExpire i hs.fits⟩
  slotExpired {ph} k _ hs := ⟨branchesAgree_invariant.slotExpired (ph := ph) k hs.branches,
    owedAgrees_invariant.slotExpired k hs.owed, fits_slotExpire k hs.fits⟩
  submitted a line data e _ _ hb hi hgate hs :=
    ⟨branchesAgree_invariant.submitted a line data e hb hi hgate hs.branches,
    owedAgrees_invariant.submitted a line data e hb hi hgate hs.owed, fits_submitted hb hi hgate hs.owed.1 hs.fits⟩
  collected hi hs := ⟨branchesAgree_invariant.collected hi hs.branches, owedAgrees_invariant.collected hi hs.owed,
    fits_collected hs.fits hi⟩
  cancelled hk hline hs := ⟨branchesAgree_invariant.cancelled hk hline hs.branches,
    owedAgrees_invariant.cancelled hk hline hs.owed, fits_cancelled hk hline hs.fits⟩
  pollSet c _ hk hs := ⟨branchesAgree_invariant.pollSet c hk hs.branches, owedAgrees_invariant.pollSet c hk hs.owed,
    fits_slotWritten hk (fun _ => ⟨⟨nofun, nofun⟩, rfl, rfl⟩) hs.fits⟩
  pollUnset hk hs := ⟨branchesAgree_invariant.pollUnset hk hs.branches, owedAgrees_invariant.pollUnset hk hs.owed,
    fits_slotWritten hk (fun _ => ⟨⟨fun _ => rfl, fun _ => rfl⟩, rfl, rfl⟩) hs.fits⟩
  pollStarted n _ hk hs := ⟨branchesAgree_invariant.pollStarted n hk hs.branches,
    owedAgrees_invariant.pollStarted n hk hs.owed, fits_slotState rfl rfl (.inl hk) (.inr (.inl rfl)) hs.fits⟩
  pollStopped k _ hs := ⟨branchesAgree_invariant.pollStopped k hs.branches, owedAgrees_invariant.pollStopped k hs.owed,
    fits_stopSlot k hs.fits⟩
  enabled b _ hs := ⟨branchesAgree_invariant.enabled b hs.branches, owedAgrees_invariant.enabled b hs.owed,
    fits_enableBranch b hs.fits⟩
  disabled b _ hs := ⟨branchesAgree_invariant.disabled b hs.branches, owedAgrees_invariant.disabled b hs.owed,
    fits_disableBranch b hs.fits hs.owed.1⟩
  restarted hs := ⟨branchesAgree_invariant.restarted hs.branches, owedAgrees_invariant.restarted hs.owed,
    fits_restartPart hs.fits⟩

/-- Settles O59: the owed reply and the table, by the events of a step. -/
theorem stepKeepsTheOwedReply : Obligations.StepKeepsTheOwedReply := by
  refine ⟨fun s t hs ht => step_owedAgrees hs ht, fun s t hb ho hs ht => ?_⟩
  have hin : TableIn .clear s := ⟨hb, ⟨ho, nofun⟩, fits_iff.mpr hs⟩
  exact fits_iff.mp (tableAgrees_invariant.steps hin ht).fits

end Sys2Proof.Machine
end
